-- ==== Sys2Proof/Word.lean ====
section
/-! DEFINITION. Word types of the SKG6 model: 64-bit registers (R8), 256-bit Turter commands (R166), bytes (R5). -/

namespace Sys2Proof

/-- One byte of memory (R5: multi-byte values are little-endian). -/
abbrev Byte := BitVec 8

/-- One register (R8). -/
abbrev Reg := BitVec 64

/-- One 32-byte Turter command (R162, R166). -/
abbrev CmdWord := BitVec 256

/-- Partition index P0–P7 (R4). -/
abbrev Part := Fin 8

/-- Device queue index 0–255 (R162). -/
abbrev QIdx := Fin 256

/-- Logical array L0–L119 (R4). -/
abbrev Arr := Fin 120

/-- Physical array A000–A127 (R4). -/
abbrev Phys := Fin 128

/-- Exano port E0–E7 (R4). -/
abbrev Port := Fin 8

/-- Wavelength λ0–λ17 of one port (R4). -/
abbrev Wl := Fin 18

/-- Host DMA engine 0–15 (R367). -/
abbrev DmaIdx := Fin 16

/-- PCIe function: 0 the PF, k the VF k (R352, R474). -/
abbrev Func := Fin 9

/-- Grid row 0–7 of the compute die (R4). -/
abbrev GridRow := Fin 8

end Sys2Proof
end

