-- ==== Sys2Proof/Syntax.lean ====
section
/-! DEFINITION. Syntax of the commands and events of the SKG6: one constructor of `Instr` for each row of
spec/opcode_table.json. An operand is what the row's text leaves to the outside: which queue and ring position, a
register value, a message, or what the device measures at that moment. A Turter command at an engine is named by its
device queue and ring index (R163); its 256 bits were copied at COMMAND_DISPATCH. An operand with a default may be left
out: it then tells of no error, failure, measurement or wait, and a register is written whole. -/

namespace Sys2Proof

/-- Memory tiers (R4). -/
inductive Tier where
  | t0 | t1 | t2
  deriving DecidableEq, Repr, Inhabited

/-- Triggers of a cold reset (R440). -/
inductive ColdTrigger where
  | modRstN | wmcRst | watchdog | inputLoss
  deriving DecidableEq, Repr

/-- Triggers of a PF FLR (R440). -/
inductive PfTrigger where
  | flr | hotReset | dataLinkDown
  deriving DecidableEq, Repr

/-- Triggers of a partition FLR (R440). -/
inductive FlrTrigger where
  | vfFlr | d3hotReturn | vfEnableCleared | swapDisabled | pfFlr
  deriving DecidableEq, Repr

/-- An ECC error that the reads of one step met (R41, R228, R229, R239). `stored` gives the bytes an uncorrectable
read returns, from `addr` on, or the elements of a GAB entry by their index; `t1Unmapped` is an uncorrectable error of
a line that holds no partition's bolt (R230). -/
inductive ReadError where
  | arrayCorrected (a : Phys) (resource : Byte) (row : BitVec 16)
  | arrayUncorrectable (a : Phys) (resource : Byte) (row : BitVec 16)
  | t0Corrected (area : Byte) (addr : BitVec 52) (p : Part)
  | t0Uncorrectable (area : Byte) (addr : BitVec 52) (p : Part) (stored : List Byte)
  | gabUncorrectable (param : BitVec 16) (p : Part) (stored : List (Nat × BitVec 40))
  | t1Corrected (ch : Fin 192) (bank : Fin 16) (row : BitVec 32) (inline : Bool)
  | t1Uncorrectable (ch : Fin 192) (bank : Fin 16) (row : BitVec 32) (addr : BitVec 52) (p : Part)
      (stored : List Byte)
  | t1Unmapped (ch : Fin 192) (bank : Fin 16) (row : BitVec 32)
  | t1MapStore (ch : Fin 192) (bank : Fin 16) (row : BitVec 32)
  | t1LinkTraining (ch : Fin 192)
  | flashCorrected (ch : Fin 16) (block page : BitVec 32) (reads : Byte)
  | flashUncorrectable (ch : Fin 16) (block page : BitVec 32) (addr : BitVec 52) (p : Part) (stored : List Byte)
  deriving DecidableEq, Repr

/-- A draw on the selvedge margin (R188, R285): what delays a command at a queue and ring index, or a fault of the table
with the wait it was measured to cost, in ns. -/
inductive MarginDraw where
  | overflowRetry (q : QIdx) (pos : BitVec 32) (ns : Nat)
  | storageCorrected
  | inlineEcc (ns : Nat)
  | retirement (q : QIdx) (pos : BitVec 32) (ns : Nat)
  | switchIn
  | linkRetry (ns : Nat)
  | retrain (ns : Nat)
  | measured (ns : Nat)
  | member (q : QIdx) (pos : BitVec 32) (ns : Nat)
  deriving DecidableEq, Repr

/-- What the third execution of a mismatching tile agrees with (R343), with the failing cell column when every
mismatching element lies in one, the spare that voted, the temperature bin and the load signature (R344). -/
inductive ShadowVote where
  | shadow (column : Option (BitVec 16)) (bin sig : Byte)
  | sampled (bin sig : Byte)
  | neither (bin sig : Byte)
  | noThird (bin sig : Byte)
  deriving DecidableEq, Repr

/-- A feed step (R320): this module as the member that lacks the result, with the feeder's answer and the elements of it
that overflowed, or as the feeder, asked by a rank. -/
inductive FeedStep where
  | member (q : QIdx) (pos : BitVec 32) (answer : Option (List Byte)) (ovf : List Nat)
  | feeder (p : Part) (group : BitVec 12) (seq : BitVec 32) (rank : Nat)
  deriving DecidableEq, Repr

/-- A stream control flit (R303): `tag` is the tag of its header, `rev` the tag of the reverse route in its payload. -/
structure StreamCtl where
  tag : BitVec 12
  rev : BitVec 12
  src : BitVec 25
  dst : BitVec 25
  group : BitVec 12
  seq : BitVec 32
  chunk : BitVec 32
  fp : BitVec 32
  route : List (Fin 8)
  hop : Nat
  deriving DecidableEq, Repr

/-- How a member converts what it owns (R309): stochastic rounding or not, its seed, step, tensor and index origin. -/
structure Rounding where
  sr : Bool
  seed : BitVec 64
  step : BitVec 32
  tensor : BitVec 32
  origin : Nat
  deriving DecidableEq, Repr

/-- A whole chunk of a stream (R304): `rank` is the member whose contribution it carries, `lanes` the adder lanes
whose residue check failed on it (R322), `conv` how that member converts the elements it owns, none where it is not told,
and `ovf` the elements of the contribution that had overflowed already (R309). -/
structure Chunk where
  p : Part
  group : BitVec 12
  seq : BitVec 32
  rank : Nat
  index : Nat
  last : Bool
  data : List Byte
  lanes : List (Fin 4 × Byte)
  conv : Option Rounding
  ovf : List Nat
  deriving DecidableEq, Repr

/-- Why a port goes down (R275, R424, R465). -/
inductive PortDownCause where
  | retrainFailed | fewLanes | disabled | lcfTimeout | pllUnlock | noLight
  deriving DecidableEq, Repr

/-- What a training of a port finds (R278, R265): the last step completed when it fails, the partner's version, and
per wavelength the effective bits in 1/16 bit at 64 and 32 GBd that the far receiver reports, the receive modes, the
effective bits of the receive side, the monitors PM_L, PM_C, PM_M, PM_R and the far PM_R in 0.01 dBm, and the round trip. -/
structure TrainObs where
  failed : Option (Fin 6)
  partnerVer : Byte
  txEnob64 : List Nat
  txEnob32 : List Nat
  rxModes : List Nat
  rxEnob : List Nat
  monL : List Int
  monC : List Int
  monM : List Int
  monR : List Int
  farR : List Int
  rttNs : Nat
  deriving DecidableEq, Repr

/-- What the monitors and receivers of a port measure (R265, R280), by wavelength: effective bits in 1/16 bit, PM_L, PM_C,
PM_M and PM_R in 0.01 dBm. -/
structure Measure where
  rxEnob : List Nat
  monL : List Int
  monC : List Int
  monM : List Int
  monR : List Int
  deriving DecidableEq, Repr

/-- The item of a cinch round (R326): a collective of a group, or the rack. -/
inductive CinchItem where
  | group (p : Part) (group : BitVec 12) (seq : BitVec 32)
  | rack
  deriving DecidableEq, Repr

/-- A group proposal (R327): outcome 0 no change, 1 completed set, 2 restart; sets are bitmaps over ranks. -/
structure GroupProposal where
  outcome : Nat
  feeder : Option Nat
  set : List Nat
  removed : List Nat
  deriving DecidableEq, Repr, Inhabited

/-- A rack proposal (R327, R334): failed modules, (slot, module) assignments and the module to drain. -/
structure RackProposal where
  failed : List Nat
  spares : List (Nat × Nat)
  drain : Option Nat
  deriving DecidableEq, Repr, Inhabited

/-- The body of an agreement message (R327). -/
inductive CinchBody where
  | call (subject : Nat)
  | reportGroup (status : Nat) (accepted : Option (Nat × GroupProposal)) (feeder : Option Nat) (entered : List Nat)
  | reportRack (down : List Nat) (fatal : Bool) (late : Nat) (accepted : Option (Nat × RackProposal))
  | proposalGroup (g : GroupProposal)
  | proposalRack (r : RackProposal)
  | accept
  deriving DecidableEq, Repr

/-- An agreement message, whole (R327): `sender` and the coordinator are ranks, or module indices in rack rounds. -/
structure CinchMsg where
  item : CinchItem
  round : Nat
  cause : Byte
  sender : Nat
  fp : BitVec 32
  body : CinchBody
  coord : Nat := 0
  deriving DecidableEq, Repr

/-- The outcome of a known-answer test (R345): the failing test at trim 0 in the first run and in its repetition
(with the one failing column, if one), and the failing tests at −15 and −30 mV; the temperature bin and signature. -/
structure KatObs where
  first : Option Byte
  second : Option Byte
  column : Option (BitVec 16)
  low15 : Option Byte
  low30 : Option Byte
  bin : Byte
  sig : Byte
  deriving DecidableEq, Repr

/-- A BAR2 request (R361, R363). -/
inductive Bar2Access where
  | read (len : Nat)
  | write (data : List Byte)
  | poisoned (data : List Byte)
  deriving DecidableEq, Repr

/-- Which part of a 64-bit register an aligned access touches (R8). -/
inductive RegHalf where
  | full | low | high
  deriving DecidableEq, Repr

/-- Engines with a stall block (R430). -/
inductive StallEngine where
  | matrix (l : Arr)
  | vector (l : Arr)
  | queue (q : QIdx)
  | collective (p : Part)
  | migration (m : Fin 4)
  | dma (d : DmaIdx)
  deriving DecidableEq, Repr

/-- Management paths (R389) and Data Object Exchange on the PF (R401). -/
inductive MgmtPath where
  | pcie | i3c | sgmii | doe
  deriving DecidableEq, Repr, Inhabited

/-- PLLs whose unlock R424 lists beside the root PLL. -/
inductive PllName where
  | optical (p : Port)
  | sgmii
  | pcie
  deriving DecidableEq, Repr

/-- What the power loop measures (R418): averages in W, input current in 0.1 A, VIN in 10 mV. -/
structure PowerObs where
  avg10ms : Nat
  avg1s : Nat
  iin : Nat
  vin : Nat
  pin : Nat
  deriving DecidableEq, Repr

/-- What a boot step meets (R376): a rail that stays outside tolerance (R414), T1 channels whose link training fails
(R231), fuse blows that fail (R398), and journal records that fail their CRC (R249). -/
structure BootObs where
  railFail : Option Byte
  t1Fail : List (Fin 192)
  blowFails : Bool
  crcAbsent : Nat
  deriving DecidableEq, Repr

/-- The commands and events of the device, one constructor for each row of spec/opcode_table.json. -/
inductive Instr where
  /-- POWER_ON (R440). -/
  | powerOn (vin10mV : Nat)
  /-- COLD_RESET (R440). -/
  | coldReset (trigger : ColdTrigger)
  /-- WARM_RESET (R440). -/
  | warmReset
  /-- PF_FLR (R354). -/
  | pfFlr (trigger : PfTrigger)
  /-- PARTITION_FLR (R444). -/
  | partitionFlr (p : Part) (trigger : FlrTrigger)
  /-- MOD_RST_N_ASSERT (R462). -/
  | modRstNAssert (lowUs : Nat)
  /-- MODULE_REMOVAL (R458). -/
  | moduleRemoval
  /-- MODULE_INSERTION (R458). -/
  | moduleInsertion (lowMs : Nat)
  /-- VIN_OUT_OF_RANGE (R411). -/
  | vinOutOfRange (vin10mV : Nat) (us : Nat)
  /-- IMAGE_TRIAL_TIMEOUT (R378). -/
  | imageTrialTimeout
  /-- QUEUE_DOORBELL (R164). -/
  | queueDoorbell (q : QIdx) (tail : BitVec 32)
  /-- QUEUE_ENABLE (R165). -/
  | queueEnable (fn : Func) (q : QIdx)
  /-- QUEUE_DISABLE (R165). -/
  | queueDisable (q : QIdx)
  /-- QUEUE_RESUME (R183). -/
  | queueResume (q : QIdx)
  /-- QUEUE_ABORT (R173). -/
  | queueAbort (q : QIdx)
  /-- COMMAND_DISPATCH (R169). -/
  | commandDispatch (q : QIdx) (errs : List ReadError := [])
  /-- COMMAND_COMPLETE (R167). -/
  | commandComplete (q : QIdx) (pos : BitVec 32)
  /-- NOP (R168). -/
  | nop (q : QIdx) (pos : BitVec 32)
  /-- REJECTED_OPCODE (R168). -/
  | rejectedOpcode (q : QIdx) (pos : BitVec 32)
  /-- MX_MUL (R56). -/
  | mxMul (q : QIdx) (pos : BitVec 32) (errs : List ReadError)
  /-- MX_MAC (R57). -/
  | mxMac (q : QIdx) (pos : BitVec 32) (errs : List ReadError)
  /-- MX_ZACC (R56). -/
  | mxZacc (q : QIdx) (pos : BitVec 32)
  /-- MX_SACC (R56). -/
  | mxSacc (q : QIdx) (pos : BitVec 32) (errs : List ReadError := [])
  /-- MX_LACC (R56). -/
  | mxLacc (q : QIdx) (pos : BitVec 32) (errs : List ReadError)
  /-- SHADOW_MISMATCH_VOTE (R343). -/
  | shadowMismatchVote (l : Arr) (vote : ShadowVote)
  /-- VX_ADD (R140). -/
  | vxAdd (q : QIdx) (pos : BitVec 32) (errs : List ReadError := [])
  /-- VX_SUB (R140). -/
  | vxSub (q : QIdx) (pos : BitVec 32) (errs : List ReadError := [])
  /-- VX_MUL (R140). -/
  | vxMul (q : QIdx) (pos : BitVec 32) (errs : List ReadError := [])
  /-- VX_FMA (R140). -/
  | vxFma (q : QIdx) (pos : BitVec 32) (errs : List ReadError := [])
  /-- VX_MAX (R140). -/
  | vxMax (q : QIdx) (pos : BitVec 32) (errs : List ReadError := [])
  /-- VX_MIN (R140). -/
  | vxMin (q : QIdx) (pos : BitVec 32) (errs : List ReadError := [])
  /-- VX_ABS (R140). -/
  | vxAbs (q : QIdx) (pos : BitVec 32) (errs : List ReadError := [])
  /-- VX_NEG (R140). -/
  | vxNeg (q : QIdx) (pos : BitVec 32) (errs : List ReadError := [])
  /-- VX_MOV (R140). -/
  | vxMov (q : QIdx) (pos : BitVec 32) (errs : List ReadError := [])
  /-- VX_SEL (R140). -/
  | vxSel (q : QIdx) (pos : BitVec 32) (errs : List ReadError := [])
  /-- VX_CEQ (R145). -/
  | vxCeq (q : QIdx) (pos : BitVec 32) (errs : List ReadError := [])
  /-- VX_CLT (R145). -/
  | vxClt (q : QIdx) (pos : BitVec 32) (errs : List ReadError := [])
  /-- VX_CLE (R145). -/
  | vxCle (q : QIdx) (pos : BitVec 32) (errs : List ReadError := [])
  /-- VX_CGT (R145). -/
  | vxCgt (q : QIdx) (pos : BitVec 32) (errs : List ReadError := [])
  /-- VX_CGE (R145). -/
  | vxCge (q : QIdx) (pos : BitVec 32) (errs : List ReadError := [])
  /-- VX_CUN (R145). -/
  | vxCun (q : QIdx) (pos : BitVec 32) (errs : List ReadError := [])
  /-- VX_CVT (R147). -/
  | vxCvt (q : QIdx) (pos : BitVec 32) (errs : List ReadError := [])
  /-- VX_EXP (R144). -/
  | vxExp (q : QIdx) (pos : BitVec 32) (errs : List ReadError := [])
  /-- VX_LOG (R144). -/
  | vxLog (q : QIdx) (pos : BitVec 32) (errs : List ReadError := [])
  /-- VX_RCP (R144). -/
  | vxRcp (q : QIdx) (pos : BitVec 32) (errs : List ReadError := [])
  /-- VX_RSQRT (R144). -/
  | vxRsqrt (q : QIdx) (pos : BitVec 32) (errs : List ReadError := [])
  /-- VX_TANH (R144). -/
  | vxTanh (q : QIdx) (pos : BitVec 32) (errs : List ReadError := [])
  /-- VX_RSUM (R148). -/
  | vxRsum (q : QIdx) (pos : BitVec 32) (errs : List ReadError := [])
  /-- VX_RSUMSQ (R148). -/
  | vxRsumsq (q : QIdx) (pos : BitVec 32) (errs : List ReadError := [])
  /-- VX_RMAX (R148). -/
  | vxRmax (q : QIdx) (pos : BitVec 32) (errs : List ReadError := [])
  /-- VX_RMIN (R148). -/
  | vxRmin (q : QIdx) (pos : BitVec 32) (errs : List ReadError := [])
  /-- VX_RMV (R149). -/
  | vxRmv (q : QIdx) (pos : BitVec 32) (errs : List ReadError := [])
  /-- VX_PERM (R152). -/
  | vxPerm (q : QIdx) (pos : BitVec 32) (errs : List ReadError := [])
  /-- VX_COMPRESS (R153). -/
  | vxCompress (q : QIdx) (pos : BitVec 32) (errs : List ReadError := [])
  /-- VX_EXPAND (R155). -/
  | vxExpand (q : QIdx) (pos : BitVec 32) (errs : List ReadError := [])
  /-- VX_LD (R156). -/
  | vxLd (q : QIdx) (pos : BitVec 32) (errs : List ReadError)
  /-- VX_ST (R156). -/
  | vxSt (q : QIdx) (pos : BitVec 32) (errs : List ReadError := [])
  /-- VX_STF (R157). -/
  | vxStf (q : QIdx) (pos : BitVec 32) (errs : List ReadError := [])
  /-- TX_MOVE (R215). -/
  | txMove (q : QIdx) (pos : BitVec 32) (errs : List ReadError)
  /-- TX_FETCH (R215). -/
  | txFetch (q : QIdx) (pos : BitVec 32) (errs : List ReadError)
  /-- TX_SPILL (R215). -/
  | txSpill (q : QIdx) (pos : BitVec 32) (errs : List ReadError := [])
  /-- TX_PIN (R213). -/
  | txPin (q : QIdx) (pos : BitVec 32)
  /-- TX_UNPIN (R213). -/
  | txUnpin (q : QIdx) (pos : BitVec 32)
  /-- TX_ATTR (R203). -/
  | txAttr (q : QIdx) (pos : BitVec 32)
  /-- TX_MAP (R202). -/
  | txMap (q : QIdx) (pos : BitVec 32)
  /-- TX_UNMAP (R202). -/
  | txUnmap (q : QIdx) (pos : BitVec 32)
  /-- TX_CKPT (R244). -/
  | txCkpt (q : QIdx) (pos : BitVec 32) (errs : List ReadError := [])
  /-- TX_RESTORE (R247). -/
  | txRestore (q : QIdx) (pos : BitVec 32) (errs : List ReadError)
  /-- TX_CKDROP (R247). -/
  | txCkdrop (q : QIdx) (pos : BitVec 32)
  /-- TX_GBIND (R111). -/
  | txGbind (q : QIdx) (pos : BitVec 32) (errs : List ReadError := [])
  /-- TX_GZERO (R118). -/
  | txGzero (q : QIdx) (pos : BitVec 32)
  /-- TX_GFLUSH (R119). -/
  | txGflush (q : QIdx) (pos : BitVec 32) (errs : List ReadError := [])
  /-- GFLUSH_WAIT_TIMEOUT (R119). -/
  | gflushWaitTimeout (q : QIdx) (pos : BitVec 32) (errs : List ReadError := [])
  /-- GAB_CONTRIBUTION_ADD (R114). -/
  | gabContributionAdd (q : QIdx) (pos : BitVec 32) (band : Nat) (errs : List ReadError := [])
  /-- GAB_WAIT_TIMEOUT (R115). -/
  | gabWaitTimeout (q : QIdx) (pos : BitVec 32) (band : Nat)
  /-- KP_WAIT (R174). -/
  | kpWait (q : QIdx) (pos : BitVec 32)
  /-- KP_WAIT_SATISFIED (R174). -/
  | kpWaitSatisfied (q : QIdx) (pos : BitVec 32)
  /-- KP_SET (R174). -/
  | kpSet (q : QIdx) (pos : BitVec 32)
  /-- KP_ADD (R174). -/
  | kpAdd (q : QIdx) (pos : BitVec 32)
  /-- KP_CAS (R174). -/
  | kpCas (q : QIdx) (pos : BitVec 32)
  /-- KEEPER_SET_HOST (R176). -/
  | keeperSetHost (fn : Func) (k : BitVec 16) (value : BitVec 32)
  /-- KEEPER_ADD_HOST (R176). -/
  | keeperAddHost (fn : Func) (k : BitVec 16) (value : BitVec 32)
  /-- PH_MARK (R434). -/
  | phMark (q : QIdx) (pos : BitVec 32)
  /-- ENV_OPEN (R178). -/
  | envOpen (q : QIdx) (pos : BitVec 32)
  /-- ENV_JOIN (R179). -/
  | envJoin (q : QIdx) (pos : BitVec 32)
  /-- ENV_CLOSE (R179). -/
  | envClose (q : QIdx) (pos : BitVec 32)
  /-- ENVELOPE_READY (R181). -/
  | envelopeReady (p : Part) (uid : Nat) (errs : List ReadError := [])
  /-- ADMISSION_EVALUATE (R187). -/
  | admissionEvaluate (p : Part) (errs : List ReadError := [])
  /-- PROJECTION_EVALUATE (R189). -/
  | projectionEvaluate (p : Part) (uid : Nat) (draws : List MarginDraw)
  /-- ENVELOPE_COMPLETE (R184). -/
  | envelopeComplete (p : Part) (uid : Nat)
  /-- FN_EPOCH (R124). -/
  | fnEpoch (q : QIdx) (pos : BitVec 32)
  /-- EPOCH_FENCE_CLOSE (R124). -/
  | epochFenceClose (q : QIdx) (pos : BitVec 32)
  /-- FN_DRAIN (R177). -/
  | fnDrain (q : QIdx) (pos : BitVec 32)
  /-- CO_ARED (R308). -/
  | coAred (q : QIdx) (pos : BitVec 32) (errs : List ReadError := [])
  /-- CO_RSCAT (R308). -/
  | coRscat (q : QIdx) (pos : BitVec 32) (errs : List ReadError := [])
  /-- CO_AGATH (R308). -/
  | coAgath (q : QIdx) (pos : BitVec 32) (errs : List ReadError := [])
  /-- CO_BCAST (R308). -/
  | coBcast (q : QIdx) (pos : BitVec 32) (errs : List ReadError := [])
  /-- CO_BARR (R336). -/
  | coBarr (q : QIdx) (pos : BitVec 32)
  /-- CO_A2A (R308). -/
  | coA2a (q : QIdx) (pos : BitVec 32) (errs : List ReadError := [])
  /-- CO_A2AV (R308). -/
  | coA2av (q : QIdx) (pos : BitVec 32) (errs : List ReadError := [])
  /-- CO_GBIND (R311). -/
  | coGbind (q : QIdx) (pos : BitVec 32) (errs : List ReadError := [])
  /-- COLLECTIVE_SEQ_START (R313). -/
  | collectiveSeqStart (q : QIdx) (pos : BitVec 32) (errs : List ReadError := [])
  /-- COLLECTIVE_COMPLETE (R321). -/
  | collectiveComplete (q : QIdx) (pos : BitVec 32) (errs : List ReadError := [])
  /-- COLLECTIVE_DEADLINE (R319). -/
  | collectiveDeadline (q : QIdx) (pos : BitVec 32)
  /-- FEED_REQUEST (R320). -/
  | feedRequest (f : FeedStep) (errs : List ReadError := [])
  /-- STREAM_OPEN (R303). -/
  | streamOpen (via : Option Port) (c : StreamCtl)
  /-- STREAM_ACK (R304). -/
  | streamAck (via : Option Port) (c : StreamCtl)
  /-- STREAM_CLOSE (R303). -/
  | streamClose (via : Option Port) (c : StreamCtl)
  /-- STREAM_REFUSE (R306). -/
  | streamRefuse (via : Option Port) (c : StreamCtl)
  /-- CHUNK_RECEIVE (R304). -/
  | chunkReceive (c : Chunk)
  /-- TX_SLOT (R270). -/
  | txSlot (p : Port) (measured : Option Measure := none)
  /-- DATA_FLIT_RECEIVE (R272). -/
  | dataFlitReceive (p : Port) (flit : BitVec 2048)
  /-- LCF_RECEIVE (R276). -/
  | lcfReceive (p : Port) (lcf : BitVec 2048) (retrained : Option TrainObs := none)
  /-- LCF_TIMEOUT (R275). -/
  | lcfTimeout (p : Port)
  /-- PORT_DOWN (R275). -/
  | portDown (p : Port) (cause : PortDownCause)
  /-- PORT_COLD_TRAIN (R278). -/
  | portColdTrain (p : Port) (o : TrainObs)
  /-- TRAINING_RETRY (R278). -/
  | trainingRetry (p : Port)
  /-- SWITCH_POINT (R277). -/
  | switchPoint (p : Port) (index : Nat)
  /-- BIAS_CHECK (R283). -/
  | biasCheck (p : Port) (bias : List Nat)
  /-- SPARE_TRAIN_COMPLETE (R283). -/
  | spareTrainComplete (p : Port) (w : Wl) (margin : Int)
  /-- LASER_POWER_DROP (R283). -/
  | laserPowerDrop (p : Port) (w : Wl) (dropCentiDb : Nat)
  /-- LANE_STEP_DOWN (R284). -/
  | laneStepDown (p : Port) (lane : Fin 16) (newMargin : Option Int)
  /-- RING_HOLD_ENTER (R288). -/
  | ringHoldEnter (p : Port) (w : Wl) (rx : Bool) (detunePct : Nat)
  /-- RING_HOLD_EXIT (R288). -/
  | ringHoldExit (p : Port) (w : Wl) (detunePct : Nat) (us : Nat)
  /-- RING_HOLD_TIMEOUT (R288). -/
  | ringHoldTimeout (p : Port) (w : Wl)
  /-- LASER_SHUTDOWN (R465). -/
  | laserShutdown (p : Port)
  /-- EXO_STEP_UP (R290). -/
  | exoStepUp (p : Port) (enob64 enob32 : List Nat)
  /-- EXO_RETRAIN (R290). -/
  | exoRetrain (p : Port) (o : TrainObs)
  /-- EXO_ENABLE (R290). -/
  | exoEnable (p : Port) (enable : Bool)
  /-- EXO_INJ_WRITE (R292). -/
  | exoInjWrite (p : Port) (value : BitVec 64) (half : RegHalf := .full)
  /-- EXO_CNT_CLEAR (R293). -/
  | exoCntClear (p : Port)
  /-- CINCH_CALL (R326). -/
  | cinchCall (m : CinchMsg)
  /-- CINCH_REPORT (R328). -/
  | cinchReport (m : CinchMsg)
  /-- CINCH_PROPOSE (R328). -/
  | cinchPropose (m : CinchMsg)
  /-- CINCH_ACCEPT (R328). -/
  | cinchAccept (m : CinchMsg)
  /-- CINCH_DECIDE (R328). -/
  | cinchDecide (m : CinchMsg)
  /-- REPORT_COLLECT_TIMEOUT (R328). -/
  | reportCollectTimeout (item : CinchItem)
  /-- ACCEPT_COLLECT_TIMEOUT (R328). -/
  | acceptCollectTimeout (item : CinchItem)
  /-- CINCH_ROUND_TIMEOUT (R328). -/
  | cinchRoundTimeout (item : CinchItem)
  /-- DRAIN_CALL (R339). -/
  | drainCall (slotFree : Bool)
  /-- FAP_DRAIN_GO (R338). -/
  | fapDrainGo
  /-- FAP_ROUND_CNT_CLEAR (R347). -/
  | fapRoundCntClear
  /-- FAP_SHADOW_CNT_CLEAR (R347). -/
  | fapShadowCntClear
  /-- KNOWN_ANSWER_TEST (R345). -/
  | knownAnswerTest (a : Phys) (o : KatObs)
  /-- CURRENT_WINDOW_GRANT (R66). -/
  | currentWindowGrant
  /-- FILL_FLOOR_TIMEOUT (R67). -/
  | fillFloorTimeout (l : Arr)
  /-- COLUMN_SPARE (R69). -/
  | columnSpare (a : Phys) (col : BitVec 16)
  /-- ARRAY_RETIRE (R71). -/
  | arrayRetire (a : Phys) (errs : List ReadError)
  /-- HW_RECORD_WRITE (R73). -/
  | hwRecordWrite
  /-- DEMAND_MIGRATION (R206). -/
  | demandMigration (p : Part) (dva : BitVec 52) (pendingSlot : Bool) (tier : Tier) (agent : BitVec 8) (errs : List ReadError)
  /-- MIGRATION_COMPLETE (R207). -/
  | migrationComplete (p : Part) (dva : BitVec 52) (pendingSlot : Bool)
  /-- MEM_RGN_GO (R204). -/
  | memRgnGo (p : Part)
  /-- PATROL_SCRUB (R230). -/
  | patrolScrub (errs : List ReadError)
  /-- T1_REHASH_COMPLETE (R231). -/
  | t1RehashComplete (ch : Fin 192)
  /-- MEM_RA_CLEAR (R226). -/
  | memRaClear (p : Part)
  /-- STATIC_WEAR_LEVELLING (R238). -/
  | staticWearLevelling (worn : Nat)
  /-- READ_DISTURB_REFRESH (R238). -/
  | readDisturbRefresh (block : Nat)
  /-- RETENTION_SCAN (R238). -/
  | retentionScan (block : Nat) (correctedPct : Nat) (errs : List ReadError := [])
  /-- RETENTION_REFRESH (R238). -/
  | retentionRefresh (block : Nat)
  /-- BAD_BLOCK_RETIRE (R240). -/
  | badBlockRetire (block : Nat) (failed : Bool := false)
  /-- GARBAGE_COLLECTION (R241). -/
  | garbageCollection
  /-- GC_THROTTLE: user writes to a channel have waited for us µs, and the engines that wait for them (R242). -/
  | gcThrottle (ch : Fin 16) (us : Nat) (waiting : List StallEngine := [])
  /-- JOURNAL_RECORD_DURABLE (R249). -/
  | journalRecordDurable
  /-- NVT_GC_CLEAR (R256). -/
  | nvtGcClear
  /-- HOST_BAR2_ACCESS (R361). -/
  | hostBar2Access (fn : Func) (offset : Nat) (acc : Bar2Access) (errs : List ReadError)
  /-- NO_REGISTER_ACCESS (R358). -/
  | noRegisterAccess (fn : Func) (offset : BitVec 32)
  /-- MISALIGNED_REGISTER_ACCESS (R8). -/
  | misalignedRegisterAccess (fn : Func) (offset : BitVec 32)
  /-- REGISTER_WRITE (R9). -/
  | registerWrite (fn : Func) (offset : BitVec 32) (half : RegHalf) (value : BitVec 64)
  /-- LINK_CHANGE (R350). -/
  | linkChange (speed : BitVec 3) (width : BitVec 5) (flit : Bool)
  /-- PCI_ABI_OFFER (R373). -/
  | pciAbiOffer (fn : Func) (major : Byte) (minor : Byte)
  /-- MSIX_COALESCE_EXPIRE (R366). -/
  | msixCoalesceExpire (fn : Func) (vector : BitVec 11)
  /-- MSIX_UNMASK (R365). -/
  | msixUnmask (fn : Func) (vector : BitVec 11)
  /-- DMA_DOORBELL (R368). -/
  | dmaDoorbell (d : DmaIdx) (tail : BitVec 32)
  /-- DMA_ENABLE (R367). -/
  | dmaEnable (fn : Func) (d : DmaIdx) (enable : Bool)
  /-- DMA_ABORT (R372). -/
  | dmaAbort (d : DmaIdx)
  /-- DMA_DESCRIPTOR_START (R369). -/
  | dmaDescriptorStart (d : DmaIdx) (desc : CmdWord) (data : List Byte) (moved : Nat) (errs : List ReadError := [])
  /-- DMA_DESCRIPTOR_COMPLETE (R370). -/
  | dmaDescriptorComplete (d : DmaIdx) (errs : List ReadError := [])
  /-- DMA_HOST_REQUEST_FAIL (R371). -/
  | dmaHostRequestFail (d : DmaIdx) (kind : BitVec 8) (hostAddr : BitVec 64)
  /-- RESP_RP_WRITE (R194). -/
  | respRpWrite (p : Part) (rp : BitVec 16)
  /-- TCS_ADM_CNT_CLEAR (R194). -/
  | tcsAdmCntClear (p : Part)
  /-- NORM_RP_WRITE (R134). -/
  | normRpWrite (p : Part) (rp : BitVec 32)
  /-- EVT_RP_WRITE (R451). -/
  | evtRpWrite (rp : BitVec 16)
  /-- CNT_CLAMP_CLEAR (R35). -/
  | cntClampClear (p : Option Part) (sameCycle : Option Byte)
  /-- CNT_ACC_CLEAR (R102). -/
  | cntAccClear (p : Part)
  /-- CNT_LATE_CLEAR (R129). -/
  | cntLateClear (p : Part)
  /-- COL_CNT_CLEAR (R323). -/
  | colCntClear (p : Part)
  /-- PWR_CNT_CLEAR (R425). -/
  | pwrCntClear
  /-- CNT_STALL_CLEAR (R432). -/
  | cntStallClear (e : StallEngine)
  /-- CNT_SNAP (R433). -/
  | cntSnap (parts : Byte) (shared : Bool)
  /-- CNT_SELV_CLEAR (R437). -/
  | cntSelvClear (p : Part)
  /-- CNT_FILL_CLEAR (R438). -/
  | cntFillClear
  /-- WMC_RST_WARM (R452). -/
  | wmcRstWarm (value : BitVec 64)
  /-- WMC_RST_COLD (R452). -/
  | wmcRstCold (value : BitVec 64)
  /-- HALT_CLEAR (R453). -/
  | haltClear (bits : Byte)
  /-- PARTITION_HALT (R447). -/
  | partitionHalt (p : Part)
  /-- DEVICE_FATAL_STOP (R448). -/
  | deviceFatalStop
  /-- STAGE_BEGIN (R384). -/
  | stageBegin (path : MgmtPath)
  /-- STAGE_DATA (R384). -/
  | stageData (path : MgmtPath) (offset : Nat) (data : List Byte)
  /-- STAGE_END (R384). -/
  | stageEnd (path : MgmtPath)
  /-- STAGE_TIMEOUT (R384). -/
  | stageTimeout
  /-- ARM (R385). -/
  | arm (path : MgmtPath) (swapStep : BitVec 32) (timeoutMs : Nat)
  /-- ABORT (R385). -/
  | abort (path : MgmtPath)
  /-- SWAP_APPLY (R386). -/
  | swapApply
  /-- SWAP_TIMEOUT (R385). -/
  | swapTimeout
  /-- COMMIT_WORD_PROGRAM (R385). -/
  | commitWordProgram
  /-- READ_ACTIVE (R389). -/
  | readActive (path : MgmtPath)
  /-- READ_LOG (R392). -/
  | readLog (path : MgmtPath) (persistent : Bool) (index : Nat) (count : Nat)
  /-- COORD (R296). -/
  | coord (fromRack : Bool) (rack : BitVec 16) (spare : Bool) (spareSlot : Fin 8) (z : Fin 4) (y : Fin 4) (x : Fin 4)
  /-- GET_VERSION_SUPPORT (R389). -/
  | getVersionSupport (path : MgmtPath) (msgType : Byte)
  /-- GET_PLDM_VERSION (R389). -/
  | getPldmVersion (path : MgmtPath) (pldmType : Byte)
  /-- SET_EVENT_RECEIVER (R390). -/
  | setEventReceiver (path : MgmtPath) (receiver : Byte)
  /-- PLDM_SENSOR_READ (R390). -/
  | pldmSensorRead (path : MgmtPath) (sensor : BitVec 16)
  /-- REQUEST_UPDATE (R391). -/
  | requestUpdate (path : MgmtPath)
  /-- FIRMWARE_DATA_TRANSFER (R391). -/
  | firmwareDataTransfer (path : MgmtPath) (offset : Nat) (data : List Byte)
  /-- VERIFY_COMPLETE (R391). -/
  | verifyComplete (path : MgmtPath)
  /-- ACTIVATE_FIRMWARE (R391). -/
  | activateFirmware (path : MgmtPath)
  /-- SPDM_GET_VERSION (R401). -/
  | spdmGetVersion (path : MgmtPath)
  /-- SPDM_GET_CAPABILITIES (R401). -/
  | spdmGetCapabilities (path : MgmtPath)
  /-- SPDM_NEGOTIATE_ALGORITHMS (R401). -/
  | spdmNegotiateAlgorithms (path : MgmtPath)
  /-- SPDM_UNSUPPORTED_REQUEST (R401). -/
  | spdmUnsupportedRequest (path : MgmtPath) (code : Byte)
  /-- GET_CERT (R402). -/
  | getCert (path : MgmtPath) (offset : BitVec 32) (length : BitVec 16)
  /-- GET_REPORT (R403). -/
  | getReport (path : MgmtPath) (offset : BitVec 32) (length : BitVec 16) (nonce : BitVec 256)
  /-- KEY_ERASE (R407). -/
  | keyErase (path : MgmtPath) (p : Part) (keyId : Byte)
  /-- ENTROPY_HEALTH_FAIL (R408). -/
  | entropyHealthFail (test : Byte)
  /-- SENSOR_UPDATE (R388). -/
  | sensorUpdate (sensor : BitVec 16) (value : BitVec 32) (failed : Bool)
  /-- COOLANT_LIMIT (R421). -/
  | coolantLimit (inletDeciC : Int) (flowCentiL : Nat) (outside : Bool)
  /-- RAIL_OUT_OF_TOLERANCE (R413). -/
  | railOutOfTolerance (rail : BitVec 8) (reading : BitVec 16) (us : Nat)
  /-- DROOP_DETECT (R416). -/
  | droopDetect (row : GridRow) (belowMv : Nat)
  /-- DROOP_RECOVER (R416). -/
  | droopRecover (row : GridRow) (belowMv : Nat) (ns : Nat)
  /-- THERMAL_LOOP_SAMPLE (R419). -/
  | thermalLoopSample (rows : List Int) (core : Int)
  /-- POWER_LOOP_SAMPLE (R418). -/
  | powerLoopSample (o : PowerObs)
  /-- REFERENCE_CLOCK_LOSS (R424). -/
  | referenceClockLoss (rootPll : Bool)
  /-- PLL_UNLOCK (R424). -/
  | pllUnlock (pll : PllName)
  /-- CLK_REF_EDGE (R428). -/
  | clkRefEdge
  /-- MOD_RST_N_DEASSERT (R462). -/
  | modRstNDeassert
  /-- PERST_DEASSERTION (R377). -/
  | perstDeassertion
  /-- PLL_RELOCK (R424). -/
  | pllRelock (pll : PllName)
  /-- VF_ENABLE (R352). -/
  | vfEnable (numVfs : Fin 9)
  /-- BOOT_STEP_COMPLETE (R376). -/
  | bootStepComplete (o : BootObs)
  /-- FLASH_PROGRAM_COMPLETE (R249). -/
  | flashProgramComplete (errs : List ReadError := [])
  /-- CLOCK_STEP_RAMP_END (R415). -/
  | clockStepRampEnd (row : GridRow)
  /-- SWITCH_IN_MESSAGE (R335). -/
  | switchInMessage (fromRack : Bool) (coord : BitVec 22) (set : List Byte)
  deriving DecidableEq, Repr

end Sys2Proof
end

