-- ==== Sys2Proof/Machine/State.lean ====
section
/-! DEFINITION. The state of the SKG6 as plain data. Numbered families (queues, keepers, bolts, vectors …) are sparse
tables: an index that is not listed holds the family's reset value, which the accessors of Machine/Ops.lean name.
Counters and indices are natural numbers kept below their field's bound by the operations; register and command
contents are bit vectors. -/

namespace Sys2Proof.Machine

/-- A sparse table: pairs of key and value; an unlisted key holds the family's default. -/
abbrev Tab (α : Type) := List (Nat × α)

/-- Stops of the machine. The spec gives every command of its table an effect, so there is none. -/
inductive Fault where
  deriving DecidableEq, Repr

/-- Refusals. -/
inductive Refusal where
  /-- Raised by an arm of Dispatch.lean for a row that has no meaning yet; safe: the model stops. -/
  | notModelled (mnemonic : String)
  deriving DecidableEq, Repr

/-! ### Configuration sets (R380–R382) -/

/-- Device record (R382). -/
structure DeviceRec where
  fillFloor : Nat := 60
  slewLimit : Nat := 10
  suspectCount : Nat := 8
  shadowInterval : Nat := 4096
  spares : List Nat := [7, 23, 39, 55, 71, 87, 103, 119]
  deriving DecidableEq, Repr

/-- Partition record (R382); the defaults are the factory values of P0. -/
structure PartRec where
  enabled : Bool := true
  vecMode : Bool := false
  prioClass : Nat := 3
  raDepth : Nat := 8
  selvedgePct : Nat := 40
  selvedgeFloor : Nat := 200
  collSmallMax : Nat := 262144
  normGroups : Nat := 4096
  gabQuota : Nat := 10240
  arraySet : BitVec 128 := BitVec.ofNat 128 (2 ^ 120 - 1)
  resT1 : Nat := 3200000
  resT2r : Nat := 28000
  resT2w : Nat := 12000
  resLink : Nat := 80
  own : Nat := 0
  dmaMask : BitVec 16 := 0xFFFF#16
  roles : BitVec 32 := 0x87654321#32
  kpBase : Nat := 0
  kpCount : Nat := 65536
  keyId : Nat := 1
  quotaT0 : Nat := 664
  quotaT1 : Nat := 757760
  quotaT2 : Nat := 13351440
  descCount : Nat := 0
  normRingRecords : Nat := 0
  descBase : Nat := 0
  normRingBase : Nat := 0
  deriving DecidableEq, Repr

/-- Port record (R382). -/
structure PortRec where
  dacBits : Nat := 6
  spareBiasPct : Nat := 90
  spareMarginDb : Nat := 20
  modeMax : Nat := 3
  deriving DecidableEq, Repr

/-- A configuration set (R380, R381): `raw` holds the staged bytes, empty for the factory set. -/
structure ConfigSet where
  setSeq : Nat := 0
  device : DeviceRec := {}
  parts : Tab PartRec := [(0, {})]
  routes : Tab (List (BitVec 32)) := []
  ports : Tab PortRec := []
  raw : List Byte := []
  deriving DecidableEq, Repr

/-- No set read yet: no partition, and the device values that the registers' Reset columns give. -/
def ConfigSet.none : ConfigSet where
  parts := []

/-! ### Boot, NOR and management (R375–R393) -/

/-- What the boot ROM reads of a bundle (R396): header fields, the checks of R397 that depend on the bundle and the
manufactured fuses alone, and the digests M1–M5 (R404), none for the bundle as shipped. -/
structure Image where
  formOk : Bool
  keySlot : Nat
  revokeSlot0 : Bool
  svn : Nat
  fwMajor : Nat
  fwMinor : Nat
  fwBuild : Nat
  keyHashOk : Bool
  sigOk : Bool
  digestsOk : Bool
  digests : List (BitVec 512)
  deriving DecidableEq, Repr

/-- An image slot of the NOR (R375): directory entry and bundle. -/
structure ImageSlot where
  valid : Bool
  trial : Bool
  version : Nat
  image : Image
  deriving DecidableEq, Repr

/-- A configuration slot of the NOR (R375, R379). -/
structure CfgSlot where
  set : ConfigSet
  committed : Bool
  deriving DecidableEq, Repr

/-- The facts of the hardware records (R73, R231, R287, R322, R255), kept live and in NOR. -/
structure HwFacts where
  phys : List Nat
  offline : List Nat
  sparesFree : List Nat
  retired : List Nat
  lastSpare : Nat
  lastRetired : Nat
  failedCols : Tab (List Nat)
  t1Retired : List Nat
  wlRetired : List Nat
  lanesRetired : Tab (List Nat)
  bootCount : Nat
  grownBad : Nat
  factoryBad : Nat
  spareUsed : Nat
  nvtMode : Nat
  deriving DecidableEq, Repr

/-- One event record (R449). -/
structure EventRec where
  code : BitVec 16
  sev : Nat
  part : Option Nat
  seq : BitVec 32
  time : Nat
  data : List Byte
  deriving DecidableEq, Repr

/-- Contents of the NOR (R375). -/
structure NorSt where
  slotA : ImageSlot
  slotB : ImageSlot
  cfg0 : Option CfgSlot
  cfg1 : Option CfgSlot
  hw : HwFacts
  ring : List EventRec
  deriving DecidableEq, Repr

/-- The answer the device last gave on a management path (model field: the completion's content). -/
structure Answer where
  path : MgmtPath
  status : Nat
  bytes : List Byte
  deriving DecidableEq, Repr

/-- A sensor reading (R388). -/
structure Sensor where
  value : BitVec 32 := 0
  failed : Bool := false
  time : Nat := 0
  deriving DecidableEq, Repr

/-- A firmware update in progress (R391); `verified` after a VerifyComplete that passed. -/
structure FwUpdate where
  path : MgmtPath
  slot : Nat
  cells : Tab Byte
  length : Nat
  verified : Bool
  deriving DecidableEq, Repr

/-- Reception of a shadow set (R384). -/
structure Reception where
  path : MgmtPath
  cells : Tab Byte
  length : Nat
  last : Nat
  deriving DecidableEq, Repr

/-- An armed swap (R385); `heldAt` is the time at which its first partition became held. -/
structure Armed where
  path : MgmtPath
  step : Nat
  timeoutMs : Nat
  at_ : Nat
  affected : List Nat
  heldAt : Option Nat
  deriving DecidableEq, Repr

/-- The management controller (R375–R393) and power-on pins (R458, R462). -/
structure WmcSt where
  step : Nat
  resetType : Nat
  trigger : Nat
  resetAt : Nat
  factoryCfg : Bool
  cfgFallback : Bool
  imgFallback : Bool
  slot : Nat
  failedSlot : Option Nat
  running : Option Image
  stage1On : Bool
  railsOn : Bool
  present : Bool
  modRstLow : Bool
  perstLow : Bool
  rrs : Bool
  nor : NorSt
  hwDirty : Bool
  active : ConfigSet
  held : List Nat
  reason : Nat
  shadow : Option ConfigSet
  reception : Option Reception
  armed : Option Armed
  commitDue : Option Nat
  sensorSel : BitVec 16
  sensors : Tab Sensor
  update : Option FwUpdate
  receiver : Option Byte
  pldmLast : Option EventRec
  answer : Option Answer
  deriving DecidableEq, Repr

/-! ### Events (R449–R453) -/

/-- Event delivery, halt and fatal state; `haltDue`, `fatalDue` and `roundDue` are the actions that recorded events have
made due (R447, R448). -/
structure EventSt where
  seq : BitVec 32
  log : List EventRec
  pfBase : BitVec 64
  pfSize : Nat
  pfMinSev : Nat
  pfDropped : Nat
  pfWp : Nat
  pfRp : Nat
  suppressed : Nat
  lastFatal : BitVec 16
  fatal : Bool
  halted : BitVec 8
  haltSeq : Tab (BitVec 32)
  haltDue : List Nat
  fatalDue : Bool
  fatalHeld : Bool
  roundDue : Bool
  norStamp : Tab Nat
  pldmStamp : Tab Nat
  hostStamp : Tab Nat
  deriving DecidableEq, Repr

/-! ### Host interface (R349–R373) -/

/-- PCI_ABI_Fk (R373). -/
structure Abi where
  activeMajor : Nat := 0
  activeMinor : Nat := 0
  hostMajor : Nat := 0
  hostMinor : Nat := 0
  deriving DecidableEq, Repr

/-- One MSI-X table entry with its pending bit (R364–R366). -/
structure Msix where
  addr : BitVec 64 := 0
  data : BitVec 32 := 0
  masked : Bool := true
  pendingBit : Bool := false
  sentAt : Option Nat := none
  merged : Bool := false
  deriving DecidableEq, Repr

/-- The descriptor an engine is executing (R368–R371), with the bytes its host range holds (the host's answers) and how
many bytes have moved. -/
structure DmaCur where
  desc : CmdWord
  data : List Byte
  moved : Nat
  status : Nat
  deriving DecidableEq, Repr

/-- A host DMA engine (R367–R372). -/
structure Dma where
  base : BitVec 64 := 0
  vector : Nat := 0
  enable : Bool := false
  sizeCode : Nat := 0
  state : Nat := 0
  head : BitVec 32 := 0
  tail : BitVec 32 := 0
  cur : Option DmaCur := none
  deriving DecidableEq, Repr

/-- What the host sets in a function's configuration space (R355): MSI-X Enable and Function Mask, Enable Relaxed Ordering, the
size code of BAR2 (0 for 64 GiB, one more for each doubling); and what its Advanced Error Reporting logs, a poisoned TLP
received and the function whose request it was (R363). -/
structure PciCfg where
  msixEnable : Bool := true
  functionMask : Bool := false
  relaxed : Bool := true
  bar2Size : Nat := 0
  poisoned : Option Nat := none
  deriving DecidableEq, Repr

/-- The PCI block. `cfg` holds the configuration space by function, `hostRo` whether the latest write to host memory carried
Relaxed Ordering (R369). `hostOut` holds the bytes the device has written to host memory, latest per host address;
`bar2Data` the data of the latest BAR2 read (model fields: the device's outputs). -/
structure PciSt where
  speed : Nat
  width : Nat
  flit : Bool
  changes : Nat
  numVfs : Nat
  abi : Tab Abi
  win : Tab (BitVec 52 × Nat)
  msix : Tab Msix
  cfg : Tab PciCfg
  hostRo : Bool
  badVec : List Nat
  dma : Tab Dma
  hostOut : Tab Byte
  bar2Data : List Byte
  deriving DecidableEq, Repr

/-! ### Command streams (R162–R194) -/

/-- A queue (R163, R165): `env` is the envelope part the queue is inside, `seed` and `step` those of its last marker
whose envelope ran (R180), `wait` the position that blocks dispatch, `aborted` that an abort disabled it (R183). -/
structure Queue where
  base : BitVec 52 := 0
  sizeCode : Nat := 0
  vector : Nat := 0
  enable : Bool := false
  state : Nat := 0
  head : BitVec 32 := 0
  tail : BitVec 32 := 0
  env : Option Nat := none
  seed : BitVec 64 := 0
  step : BitVec 32 := 0
  wait : Option (BitVec 32) := none
  aborted : Bool := false
  deriving DecidableEq, Repr

/-- A command handed to its engine and not yet completed (R167, R169, R180). `done` says that it has reached its
completion point, `late` that it was discarded under R127; `ord` is its place in the order of dispatch. -/
structure Inflight where
  q : Nat
  pos : BitVec 32
  word : CmdWord
  env : Option Nat
  seed : BitVec 64
  step : BitVec 32
  update : Bool
  started : Bool
  done : Bool
  late : Bool
  since : Nat
  admitted : Bool
  ord : Nat
  deriving DecidableEq, Repr

/-- A response ring (R193, R194). -/
structure RespRing where
  base : BitVec 52 := 0
  sizeCode : Nat := 0
  dropped : Nat := 0
  wp : Nat := 0
  rp : Nat := 0
  deriving DecidableEq, Repr

/-- TCS_ADM_CNT_Pn (R194). -/
structure AdmCnt where
  revoked : Nat := 0
  refused : Nat := 0
  admitted : Nat := 0
  deriving DecidableEq, Repr

/-- Where an envelope stands (R181–R191); `skipping` while member queues have yet to skip their part (R173, R183). -/
inductive EnvStatus where
  | opening | queued | admitted | unguaranteed | skipping | ended
  deriving DecidableEq, Repr

/-- One part of an envelope: its queue, the ring indices of its marker and of its env.close once dispatched. -/
structure EnvPart where
  q : Nat
  first : BitVec 32
  close : Option (BitVec 32)
  deriving DecidableEq, Repr

/-- An envelope (R178–R191). Times in ns of CNT_TIME; `booked` holds the booked-until time of each array it names, `bound`
the present bound in µs after t_a (0xFFFF_FFFF: unbounded), `turn` its place in the order of admissions and
revocations (R190), `ext` its external waits and `kpAt` the keepers at t_a (R186); `usesT1`, `usesLink` say
that its commands need res_t1 or res_link (R192). -/
structure Envelope where
  uid : Nat
  part : Nat
  envId : BitVec 16
  members : BitVec 32
  deadline : Nat
  seed : BitVec 64
  step : BitVec 32
  update : Bool
  onRefuse : Nat
  openQ : Nat
  parts : List EnvPart
  status : EnvStatus
  tA : Nat
  w : Nat
  m : Nat
  bound : Nat
  admSeq : Nat
  turn : Nat
  booked : List (Nat × Nat)
  fences : List (Nat × BitVec 32 × Nat)
  ext : List (Nat × BitVec 32)
  kpAt : Tab (BitVec 32)
  usesT1 : Bool
  usesLink : Bool
  bytesT1 : Nat
  bytesT2r : Nat
  bytesT2w : Nat
  bytesLink : Nat
  late : Bool
  drew : Bool
  counted : Bool
  revoked : Bool
  dead : Bool
  warned : Bool
  deriving DecidableEq, Repr

/-- The TCS block: queues, keepers, envelopes, admission. -/
structure TcsSt where
  queues : Tab Queue
  keepers : Tab (BitVec 32)
  inflight : List Inflight
  resp : Tab RespRing
  admCnt : Tab AdmCnt
  envs : List Envelope
  admQueue : Tab (List Nat)
  nextUid : Nat
  nextOrd : Nat
  admSeq : Nat
  deriving DecidableEq, Repr

/-! ### Arrays and vector units (R40, R83, R136, R153, R157) -/

/-- A tile register: bytes written since its contents were last zeroed (`base = none`) or left not defined
(`base = some k`, the k-th free content; R59). -/
structure TileReg where
  base : Option Nat := none
  cells : Tab Byte := []
  deriving DecidableEq, Repr

/-- An accumulator tile with its flag byte and term count (R54, R83). -/
structure AccTile where
  base : Option Nat := none
  cells : Tab (BitVec 32) := []
  flag : Byte := 0
  terms : Nat := 0
  deriving DecidableEq, Repr

/-- What the shadow executor compared and awaits a vote on (R343). -/
structure ShadowPend where
  q : Nat
  pos : BitVec 32
  spare : Nat
  deriving DecidableEq, Repr

/-- Storage of an array whose content no command can name (R40): zeros since the last reset (`none`), or the k-th free
content that a command left (`some k`; R59). -/
abbrev Hidden := Option Nat

/-- Levels of array current (R65–R67): idle, fill at the floor, full, or full while holding fill. -/
inductive Level where
  | idle | floor | full
  deriving DecidableEq, Repr

/-- A logical array with its vector unit. `raised` lists the bins and signatures under increased sampling with the
tiles left (R344); `request` is the current level it asks for (R66, R67). The hidden storage of R40: the active and the
shadow stationary buffer, the weight slots of each, the two output latches of the cells, and the segment store (R80). -/
structure ArrayL where
  tiles : Tab TileReg := []
  acc0 : AccTile := {}
  acc1 : AccTile := {}
  packed : Nat := 0
  vflag : Byte := 0
  tileCount : Nat := 0
  raised : List (Byte × Byte × Nat) := []
  shadow : Option ShadowPend := none
  level : Level := .idle
  request : Option Level := none
  floorSince : Nat := 0
  idleSince : Nat := 0
  stationary : Hidden := none
  stationaryShadow : Hidden := none
  weights : Hidden := none
  weightsShadow : Hidden := none
  latch0 : Hidden := none
  latch1 : Hidden := none
  segments : Hidden := none
  deriving DecidableEq, Repr

/-- Arrays of the device. `retireDue` lists physical arrays decided retired or quarantined, `colDue` (array, column) marked
failed, until the next command boundary (R69, R71). -/
structure MxaSt where
  arrays : Tab ArrayL
  hw : HwFacts
  katBin : Tab Byte
  katAt : Tab Nat
  windowUsed : Nat
  windowAt : Nat
  retireDue : List Nat
  colDue : List (Nat × Nat)
  deriving DecidableEq, Repr

/-! ### Memory tiers (R196–R232) -/

/-- A region (R197, R199); `pins` maps a page index of the region to its pin tier (R213). -/
structure Region where
  base : Nat
  len : Nat
  floor : Tier
  pin : Option Tier
  single : Bool
  park : Bool
  runahead : Bool
  twoVer : Bool
  pins : Tab Tier
  deriving DecidableEq, Repr

/-- Copies of one bolt (R198, R211, R212): the last-access stamp in µs of each valid copy (R219), the envelope that
protects its T0 or T1 copy (R220), whether run-ahead placed it untouched (R224), and the T2 copy's key (R406). -/
structure Bolt where
  t0 : Option Nat := none
  t1 : Option Nat := none
  t2 : Option Nat := none
  prot0 : Option Nat := none
  prot1 : Option Nat := none
  ahead : Bool := false
  key : Nat := 0
  deriving DecidableEq, Repr

/-- A migration in progress (R207), with the writes it holds, the transfer it belongs to, and the envelope that protects
the copy it places (R215, R220). -/
structure Migration where
  part : Nat
  slot : Nat
  bolt : Nat
  dst : Tier
  held : List (Nat × Byte)
  cmd : Option (Nat × BitVec 32) := none
  prot : Option Nat := none
  deriving DecidableEq, Repr

/-- A norm partial (R131): the FA40 sum of closed chains, the open FP32 chain and its terms, all terms, flags. -/
structure Partial where
  seg : BitVec 40 := 0
  chain : BitVec 32 := 0
  open_ : Nat := 0
  terms : Nat := 0
  ovf : Bool := false
  deriving DecidableEq, Repr

/-- Version state of a bolt of a two-version region (R125). `flip` says that the current slot is slot 1. -/
structure BoltVer where
  two : Bool := false
  flip : Bool := false
  deriving DecidableEq, Repr

/-- Present reservations of a partition in MB/s, and per port in percent (R185, R192). -/
structure Res where
  t1 : Nat := 0
  t2r : Nat := 0
  t2w : Nat := 0
  link : List Nat := []
  deriving DecidableEq, Repr

/-- The MEM block and map store; `mboxBusy` holds, for a partition whose mailbox is busy, the command that go started
(R204). Bytes are keyed by partition, slot and DVA (see Ops.byteKey). -/
structure MemSt where
  regions : Tab (List Region)
  bolts : Tab Bolt
  vers : Tab BoltVer
  bytes : List Host.Cell
  migrations : List Migration
  mbox : Tab (BitVec 64)
  mboxStatus : Tab Nat
  mboxBusy : Tab CmdWord
  raDiscarded : Tab Nat
  raFetched : Tab Nat
  res : Tab Res
  t1Pages : Nat
  t1Rate : Nat
  t1Errors : List (Nat × Nat)
  t1Rehash : List Nat
  t1Deferred : List Nat
  mapStoreErr : Bool
  deriving DecidableEq, Repr

/-! ### GAB (R107–R135) -/

/-- A tensor descriptor (R44). -/
structure Desc where
  base : Nat
  fmt : Nat
  blockAxis : Bool
  rows : Nat
  cols : Nat
  rowStride : Nat
  scaleBase : Nat
  scaleStride : Nat
  flagBase : Nat
  idxPitch : Nat
  deriving DecidableEq, Repr

/-- A band header (R110). -/
structure Band where
  nextSeq : Nat := 0
  terms : Nat := 0
  ovf : Bool := false
  long : Bool := false
  deriving DecidableEq, Repr

/-- A bound GAB entry (R108–R111); `elems` holds its FA40 elements when it lies in the GAB; `wgt` and `upd` the norm
partials of the bolts of its parameter region (R131). -/
structure GabEntry where
  param : Nat
  ms : Bool
  rows : Nat
  cols : Nat
  group : Nat
  wBase : Nat
  wLen : Nat
  msBase : Nat
  wDesc : Option Desc
  unit0 : Nat
  units : Nat
  version : Nat
  bands : Tab Band
  elems : Tab (BitVec 40)
  grad : Partial
  wgt : Tab Partial
  upd : Tab Partial
  deriving DecidableEq, Repr

/-- A contribution sent to the GAB and not yet fully added (R112–R115): exact values by (row, column) of the entry,
as sign, magnitude and exponent of two, or an FA40 special code. `todo` lists the bands not yet passed; `since` the
time its first row began to wait at each band, `ord` the place of its command in the order of dispatch. -/
structure Contribution where
  q : Nat
  pos : BitVec 32
  ord : Nat
  part : Nat
  param : Nat
  seq : Nat
  k : Nat
  discarded : Bool
  row0 : Nat
  col0 : Nat
  rows : Nat
  cols : Nat
  vals : List (Bool × Nat × Int × Nat)
  todo : List Nat
  since : Tab Nat
  told : Bool
  deriving DecidableEq, Repr

/-- A flush past its checks (R119): the destination that it found then, whether it has recorded an unmapped access (R210),
and whether it has written its tensor and has only the zeroing left. -/
structure Flush where
  q : Nat
  pos : BitVec 32
  ord : Nat
  part : Nat
  param : Nat
  desc : Desc
  told : Bool
  written : Bool
  deriving DecidableEq, Repr

/-- The gradient accumulation buffer. -/
structure GabSt where
  maps : Tab (List GabEntry)
  quota : Tab Nat
  contribs : List Contribution
  flushes : List Flush
  deriving DecidableEq, Repr

/-! ### Flash (R234–R258) -/

/-- A flash page that holds data (R235): the owner, whether live (0) or checkpoint slot s + 1, slot, bolt, quarter. -/
structure FlashPage where
  part : Nat
  origin : Nat
  slot : Nat
  bolt : Nat
  quarter : Nat
  deriving DecidableEq, Repr

/-- A flash block (R236, R238): stream 0 spills, 1 relocations, 2 + p the commit of Pp. -/
structure FBlock where
  erases : Nat := 0
  reads : Nat := 0
  at_ : Nat := 0
  stream : Nat := 0
  used : Nat := 0
  bad : Bool := false
  soft : List Nat := []
  correctedPct : Nat := 0
  pages : List FlashPage := []
  deriving DecidableEq, Repr

/-- One bolt of a checkpoint: DVA bolt index, its bytes when not zero (R244). -/
structure CkptBolt where
  bolt : Nat
  nonzero : Bool
  bytes : List (Nat × Byte)
  deriving DecidableEq, Repr

/-- A valid checkpoint (R244). -/
structure Ckpt where
  gen : Nat
  keyId : Nat
  step : Nat
  tag : Nat
  dva : Nat
  len : Nat
  regions : List Region
  bolts : List CkptBolt
  deriving DecidableEq, Repr

/-- A checkpoint command in progress (R245, R253, R257): phase 1 copying, 2 directory, 3 committed, 4 restoring. -/
structure Commit where
  part : Nat
  slot : Nat
  q : Nat
  pos : BitVec 32
  phase : Nat
  image : Ckpt
  begun : Bool
  bolts : Nat
  deriving DecidableEq, Repr

/-- A journal record being programmed (R249). -/
inductive JRec where
  | begin_ (p : Nat)
  | dir (p : Nat)
  | commit (p : Nat)
  | released (p : Nat)
  | home (p slot bolt : Nat)
  | reloc (page : FlashPage) (block : Nat)
  deriving DecidableEq, Repr

/-- A flash program that makes the next record due (R249, R250). -/
inductive FlashWork where
  | ckptBolts (p : Nat)
  | ckptDir (p : Nat)
  | homeCopy (p slot bolt : Nat)
  | relocCopy (page : FlashPage) (src : Nat)
  deriving DecidableEq, Repr

/-- The NVT block and the contents of T2. `wrote` lists, for the last 10 s, the times at which pages were programmed with the
pages of the spill and of the relocation stream (R256); `userPages` counts, by channel, the pages that user writes have
programmed (R242). -/
structure NvtSt where
  blocks : Tab FBlock
  open_ : Tab Nat
  ckpts : Tab Ckpt
  gens : Tab Nat
  commits : List Commit
  journal : List JRec
  work : List FlashWork
  wrote : List (Nat × Nat × Nat)
  userPages : Tab Nat
  throttleUs : Nat
  episodes : Nat
  throttled : List Nat
  salts : Tab Nat
  halfTold : Bool
  deriving DecidableEq, Repr

/-! ### Exano ports (R259–R295) -/

/-- Flit classes (R268). -/
inductive FlitClass where
  | collective | control | transit | agreement | management
  deriving DecidableEq, Repr

/-- What the engine that handed a flit over keeps with it: nothing; the partition of collective data with the admission
sequence of its work (R302); a control flit of a stream, with its kind (R303, R305); the partition, node and port of a flit of
the agreement class that goes to another module (R327); or the port and class from which a passing flit still holds a
buffer (R271, R301). -/
inductive FlitNote where
  | none
  | data (part : Nat) (adm : Option Nat)
  | ctl (kind : Nat) (c : StreamCtl)
  | message (part node : Nat)
  | through (port : Nat) (cls : FlitClass)
  deriving DecidableEq, Repr

/-- A data flit without its CRC (R267). -/
structure Flit where
  cls : FlitClass
  last : Bool
  tag : BitVec 12
  payload : List Byte
  note : FlitNote := .none
  deriving DecidableEq, Repr

/-- A wavelength of a port (R282, R294). `dealt` says that codewords are dealt to its lane (R263, R277), `emptyAt` since when
an assigned lane carries nothing (R286), `holdBy` what holds it: 1 its own ring, 2 the far receiver's, 4 its laser, and
`trigger` the cause for which a spare is to replace it (R283); `rxLane` is the partner's lane on the receive wavelength. -/
structure Wave where
  state : Nat := 0
  lane : Option Nat := none
  dealt : Bool := false
  emptyAt : Option Nat := none
  holdBy : List Nat := []
  trigger : Nat := 0
  rxLane : Option Nat := none
  mode : Nat := 0
  txMargin : Int := 0
  rxMargin : Int := 0
  rxEnob : Nat := 0
  rxMode : Nat := 0
  bias : Nat := 0
  monL : Int := -2048
  monC : Int := -2048
  monM : Int := -2048
  monR : Int := -2048
  farR : Int := -2048
  baseL : Int := -2048
  baseC : Int := -2048
  baseM : Int := -2048
  baseP : Int := -2048
  holdAt : Nat := 0
  lowAt : Option Nat := none
  cause : Nat := 0
  replaces : Option Nat := none
  told : List Nat := []
  tryAt : Nat := 0
  deriving DecidableEq, Repr

/-- A proposed change of the lane set (R276, R277): kind 1 spare switch, 2 hold enter, 3 hold exit, 4 mode change,
5 lane removal. -/
structure Change where
  kind : Nat
  lane : Nat
  wave : Nat
  mode : Nat
  point : Nat
  id : Nat
  confirmed : Bool
  deriving DecidableEq, Repr

/-- One Exano port (R259–R293). `rxCodeword`, `rxBits` and `rxChanges` are the codeword index, the bits beyond it and the
partner's proposals of the receive direction (R263, R277); `injDue` says that the flit a reorder holds is sent next
(R289); `usedByPart` counts the collective slots of each partition in the present frame, and `rrPart` is the partition last
served in round-robin order (R302). -/
structure PortSt where
  enable : Bool := true
  state : Nat := 0
  partnerVer : Byte := 0
  version : Byte := 0
  waves : Tab Wave := []
  changes : List Change := []
  nextChg : Nat := 0
  codeword : Nat := 0
  rxCodeword : Nat := 0
  rxBits : Nat := 0
  rxChanges : List Change := []
  frame : Nat := 0
  slotNo : Nat := 0
  slotBits : Nat := 0
  usedInFrame : Tab Nat := []
  usedByPart : Tab Nat := []
  rrPart : Nat := 7
  ready : List Flit := []
  sent : Tab Nat := []
  freedFar : Tab Nat := []
  freed : Tab Nat := []
  nextSeq : Nat := 0
  retry : List (Nat × Flit) := []
  replay : List (Nat × Flit) := []
  replayFrom : Option Nat := none
  replayAt : Nat := 0
  replayRun : Nat := 0
  rxExpect : Nat := 0
  await : Bool := false
  rx : List Flit := []
  lcfBad : Nat := 0
  lastLcf : Nat := 0
  injInterval : Nat := 0
  injCount : Nat := 0
  injMask : Nat := 0
  injKind : Nat := 0
  injNext : Nat := 0
  injHold : Option (Nat × Flit) := none
  injDue : Bool := false
  injected : Nat := 0
  replays : Nat := 0
  holds : Nat := 0
  lcfLost : Nat := 0
  out : Option (BitVec 2048) := none
  rtt : Nat := 0
  downAt : Nat := 0
  dark : Bool := false
  partnerLcf : Option (BitVec 64) := none
  deriving DecidableEq, Repr

/-- The EXO block. -/
structure ExoSt where
  ports : Tab PortSt
  deriving DecidableEq, Repr

/-! ### Collectives (R296–R325) -/

/-- A bound group (R311): `axes` are (extent, port pair, line form); `members` the member table entries; `done` the
sequence numbers above next_seq that are passed already (R310); `hist` the sets of the latest completions, newest first
(seq, set, feeder). -/
structure Group where
  part : Nat
  id : Nat
  p : Nat
  rank : Nat
  axes : List (Nat × Nat × Bool)
  csetBase : Nat
  carryBase : Nat
  stagingBase : Nat
  stagingBytes : Nat
  members : List Nat
  fp : BitVec 32
  nextSeq : Nat
  done : List Nat
  removed : List Nat
  carry : Option (Nat × Bool × List (BitVec 40))
  hist : List (Nat × List Nat × Option Nat)
  deriving DecidableEq, Repr

/-- A collective command at the engine (R313, R318–R321). `arrived` holds, per rank, the chunks applied, as (index, last,
data), this member's own contribution among them; `staged` the chunks kept while a round freezes it (R330); `set` and
`feeder` what a decision fixed, `needFeed` that the result comes by feed, `fed` that the feed has been answered; `ownOvf`
the elements whose own contribution overflowed; `convs` and `ovfs` what the chunks of a rank told of its rounding and its
overflows (R309); `sizes` the size table read at the start (R308); `told` that the command has recorded event 0x0401. -/
structure Coll where
  q : Nat
  pos : BitVec 32
  part : Nat
  group : Nat
  seq : Nat
  word : CmdWord
  running : Bool
  since : Nat
  arrived : Tab (List (Nat × Bool × List Byte))
  staged : List Chunk
  set : Option (List Nat)
  feeder : Option Nat
  needFeed : Bool
  fed : Bool
  excluded : Bool
  frozen : Bool
  ownOvf : List Nat
  convs : Tab Rounding := []
  ovfs : Tab (List Nat) := []
  sizes : List (Nat × Nat) := []
  told : Bool := false
  deriving DecidableEq, Repr

/-- A decision on a collective kept for a member that has not started it (R320, R331). -/
structure Decided where
  part : Nat
  group : Nat
  seq : Nat
  prop : GroupProposal
  deriving DecidableEq, Repr

/-- A stream end or hop held by this module (R303–R306). `revIn` is the tag that this module gave the next hop for the
reverse route; at the source, `rank` is the destination, `next` the next chunk to send, `held` the chunks sent and not
acknowledged, `detour` that it runs in the transit class (R305), and `feed` the bytes of a feed (R320). -/
structure Stream where
  ctl : StreamCtl
  inPort : Option Nat
  outPort : Option Nat
  outTag : BitVec 12
  acked : List Nat
  waiting : Bool
  revIn : BitVec 12 := 0
  rank : Nat := 0
  next : Nat := 0
  held : List (Nat × List Byte) := []
  detour : Bool := false
  feed : Option (List Byte) := none
  deriving DecidableEq, Repr

/-- COL_CNT_Pn (R323). -/
structure ColCnt where
  feedRefused : Nat := 0
  fed : Nat := 0
  dropped : Nat := 0
  carried : Nat := 0
  excluded : Nat := 0
  deriving DecidableEq, Repr

/-- COL_COORD (R296). -/
structure Coord where
  rack : Nat := 0
  valid : Bool := false
  spare : Bool := false
  spareSlot : Nat := 0
  z : Nat := 0
  y : Nat := 0
  x : Nat := 0
  deriving DecidableEq, Repr

/-- The COL block. `early` keeps chunks of collectives not started yet; `fed` the feeds served, newest first, as (partition
and group key, seq, 1 served or 0 refused) (model field); `withdrawn` the node addresses of failed modules, with the time
from which a spare answers there, 0 when none was assigned (R335); `lasts` each group's latest completed collective with its
command, from which a feed is served, and `requests` the feeds this module has asked for, newest first, as (partition and
group key, seq, feeder) (model fields, R320). -/
structure ColSt where
  coord : Coord
  groups : Tab Group
  colls : List Coll
  early : List Chunk
  decided : List Decided
  streams : List Stream
  cnt : Tab ColCnt
  mismatches : Nat
  laneErrors : List (Nat × Nat × Nat)
  withdrawn : List (Nat × Nat)
  fed : List (Nat × Nat × Nat)
  lasts : Tab (Coll × Inflight)
  requests : List (Nat × Nat × Nat)
  deriving DecidableEq, Repr

/-! ### Fault agreement (R326–R348) -/

/-- A round sequence this module takes part in (R328): the reports and accepts a coordinator holds, the proposal a
participant accepted, the decision applied, and whether
ACCEPTs are being counted. -/
structure Round where
  item : CinchItem
  start : Nat
  round : Nat
  cause : Byte
  reports : List CinchMsg
  proposed : Option CinchBody
  accepts : List Nat
  accepted : Option (Nat × CinchBody)
  decided : Option CinchBody
  deciding : Bool
  deriving DecidableEq, Repr

/-- The FAP block. `sentMsgs` holds the agreement messages this module has sent, newest first (model field). -/
structure FapSt where
  hist : BitVec 64
  suspect : Bool
  drainState : Nat
  drainSlot : Nat
  drainAt : Option Nat
  draining : Option Nat
  rounds : List Round
  sentMsgs : List (Nat × CinchMsg)
  failed : Nat
  later : Nat
  first : Nat
  called : Nat
  katFail : Nat
  mismatches : Nat
  skipped : Nat
  samples : Nat
  failedModules : List Nat
  usedSlots : List Nat
  deriving DecidableEq, Repr

/-! ### Security, power, clocks, counters -/

/-- The security subsystem (R395–R409). -/
structure SecSt where
  rollback : BitVec 64
  slot0Revoked : Bool
  trngFail : Bool
  draws : Nat
  report : Option (List Byte)
  m6 : BitVec 512
  m7 : BitVec 512
  deriving DecidableEq, Repr

/-- A grid row's clock (R415–R417, R419): thermal step and its last change, present step, start of the ramp in progress,
stretch, and the time a recovery from a stretch began. -/
structure RowClk where
  thermal : Nat := 0
  thermalAt : Nat := 0
  applied : Nat := 0
  ramp : Option Nat := none
  stretch : Bool := false
  recovering : Option Nat := none
  deriving DecidableEq, Repr

/-- The PWR block. -/
structure PwrSt where
  vin : Nat
  iin : Nat
  pin : Nat
  vinLow : Bool
  vinHigh : Bool
  rows : Tab RowClk
  sPower : Nat
  sPowerAt : Nat
  coolant : Bool
  coolantOkAt : Option Nat
  throttle : Bool
  cap : Bool
  warned : List Nat
  hotSince : Option Nat
  stretches : Nat
  excessUs : Nat
  capEpisodes : Nat
  deriving DecidableEq, Repr

/-- The CLK block and CNT_TIME (R424, R426, R428). -/
structure ClkSt where
  time : Nat
  refOk : Bool
  rootLock : Bool
  oeLock : BitVec 8
  sgmiiLock : Bool
  pcieLock : Bool
  unlocks : Nat
  deriving DecidableEq, Repr

/-- A clamp register (R34). -/
structure Clamp where
  lastId : Nat := 0
  count : Nat := 0
  deriving DecidableEq, Repr

/-- CNT_ACC_Pn (R102). -/
structure AccCnt where
  longSum : Nat := 0
  saturations : Nat := 0
  retries : Nat := 0
  deriving DecidableEq, Repr

/-- CNT_LATE_Pn (R129). -/
structure LateCnt where
  commands : Nat := 0
  envelopes : Nat := 0
  staleFences : Nat := 0
  deriving DecidableEq, Repr

/-- CNT_SELV_Pn (R437). -/
structure Selv where
  maxUs : Nat := 0
  drawn : Nat := 0
  deriving DecidableEq, Repr

/-- A phase timer (R434). -/
structure Phase where
  time : Nat := 0
  count : Nat := 0
  queue : Nat := 0
  hi : Nat := 0
  tag : BitVec 32 := 0
  deriving DecidableEq, Repr

/-- A norm ring's indices (R134). -/
structure NormRing where
  dropped : Nat := 0
  wp : Nat := 0
  rp : Nat := 0
  deriving DecidableEq, Repr

/-- Live counts of a stall block since the clear (R430, R431): by slot the cycles whose cause the state of the machine
decides, and those `unsettled` whose cause lies inside an engine's timing, until a snapshot settles them. -/
structure Stall where
  clearedAt : Nat := 0
  counts : Tab Nat := []
  unsettled : Nat := 0
  deriving DecidableEq, Repr

/-- The CNT block. -/
structure CntSt where
  clampDev : Clamp
  clamp : Tab Clamp
  acc : Tab AccCnt
  late : Tab LateCnt
  selv : Tab Selv
  phase : Tab Phase
  norm : Tab NormRing
  stall : Tab Stall
  snap : Tab (List Nat)
  snapTime : Nat
  fillPeriods : Nat
  fillUs : Nat
  deriving DecidableEq, Repr

/-- The whole machine: `pending` holds the commands waiting, first in first out; `free` is the model's own counter
that free values are applied to (notes/assumptions/1.md). -/
structure State where
  pending : List Instr
  free : Nat
  wmc : WmcSt
  evt : EventSt
  pci : PciSt
  tcs : TcsSt
  mxa : MxaSt
  mem : MemSt
  gab : GabSt
  nvt : NvtSt
  exo : ExoSt
  col : ColSt
  fap : FapSt
  sec : SecSt
  pwr : PwrSt
  clk : ClkSt
  cnt : CntSt
  deriving DecidableEq, Repr

/-! ### Reset -/

/-- The physical arrays that carry L0–L119 by default (R70): ascending, without the spares. -/
def defaultMap (spares : List Nat) : List Nat :=
  ((List.range 128).filter (fun a => ! spares.contains a)).take 120

/-- The hardware facts of a module as shipped (R70; notes/assumptions/4.md for the records' initial contents). -/
def HwFacts.shipped : HwFacts where
  phys := defaultMap [7, 23, 39, 55, 71, 87, 103, 119]
  offline := []
  sparesFree := [7, 23, 39, 55, 71, 87, 103, 119]
  retired := []
  lastSpare := 0xFF
  lastRetired := 0xFF
  failedCols := []
  t1Retired := []
  wlRetired := []
  lanesRetired := []
  bootCount := 0
  grownBad := 0
  factoryBad := 0
  spareUsed := 0
  nvtMode := 0

/-- The bundle shipped in slot A (notes/assumptions/4.md): it passes every check of R397. -/
def Image.shipped : Image where
  formOk := true
  keySlot := 0
  revokeSlot0 := false
  svn := 0
  fwMajor := 1
  fwMinor := 0
  fwBuild := 0
  keyHashOk := true
  sigOk := true
  digestsOk := true
  digests := []

/-- NOR as shipped (notes/assumptions/4.md). -/
def NorSt.shipped : NorSt where
  slotA := { valid := true, trial := false, version := 1, image := Image.shipped }
  slotB := { valid := false, trial := false, version := 0, image := { Image.shipped with formOk := false } }
  cfg0 := none
  cfg1 := none
  hw := HwFacts.shipped
  ring := []

/-- The management controller before the first boot step: WMC_BOOT reads 0 (R393). -/
def WmcSt.reset : WmcSt where
  step := 0
  resetType := 0
  trigger := 0
  resetAt := 0
  factoryCfg := false
  cfgFallback := false
  imgFallback := false
  slot := 0
  failedSlot := none
  running := none
  stage1On := false
  railsOn := false
  present := true
  modRstLow := false
  perstLow := true
  rrs := true
  nor := NorSt.shipped
  hwDirty := false
  active := ConfigSet.none
  held := []
  reason := 0
  shadow := none
  reception := none
  armed := none
  commitDue := none
  sensorSel := 1
  sensors := []
  update := none
  receiver := none
  pldmLast := none
  answer := none

/-- Event state at reset (R451, R453). -/
def EventSt.reset : EventSt where
  seq := 0
  log := []
  pfBase := 0
  pfSize := 0
  pfMinSev := 1
  pfDropped := 0
  pfWp := 0
  pfRp := 0
  suppressed := 0
  lastFatal := 0
  fatal := false
  halted := 0
  haltSeq := []
  haltDue := []
  fatalDue := false
  fatalHeld := false
  roundDue := false
  norStamp := []
  pldmStamp := []
  hostStamp := []

/-- The PCI block at reset (R363, R367–R373). -/
def PciSt.reset : PciSt where
  speed := 0
  width := 0
  flit := false
  changes := 0
  numVfs := 0
  abi := []
  win := []
  msix := []
  cfg := []
  hostRo := false
  badVec := []
  dma := []
  hostOut := []
  bar2Data := []

/-- The TCS block at reset (R165, R176, R194). -/
def TcsSt.reset : TcsSt where
  queues := []
  keepers := []
  inflight := []
  resp := []
  admCnt := []
  envs := []
  admQueue := []
  nextUid := 0
  nextOrd := 0
  admSeq := 0

/-- Arrays at reset (R443): zero, clear, at idle (R414). -/
def MxaSt.reset : MxaSt where
  arrays := []
  hw := HwFacts.shipped
  katBin := []
  katAt := []
  windowUsed := 0
  windowAt := 0
  retireDue := []
  colDue := []

/-- Memory at reset: nothing mapped (R252), T1 at its full capacity (R196, R185). -/
def MemSt.reset : MemSt where
  regions := []
  bolts := []
  vers := []
  bytes := []
  migrations := []
  mbox := []
  mboxStatus := []
  mboxBusy := []
  raDiscarded := []
  raFetched := []
  res := []
  t1Pages := 757760
  t1Rate := 3200000
  t1Errors := []
  t1Rehash := []
  t1Deferred := []
  mapStoreErr := false

/-- The GAB at reset: nothing bound, no quota granted (R122). -/
def GabSt.reset : GabSt where
  maps := []
  quota := []
  contribs := []
  flushes := []

/-- Flash at reset: empty media (notes/assumptions/4.md). -/
def NvtSt.reset : NvtSt where
  blocks := []
  open_ := []
  ckpts := []
  gens := []
  commits := []
  journal := []
  work := []
  wrote := []
  userPages := []
  throttleUs := 0
  episodes := 0
  throttled := []
  salts := []
  halfTold := false

/-- Collectives at reset (R296, R323). -/
def ColSt.reset : ColSt where
  coord := {}
  groups := []
  colls := []
  early := []
  decided := []
  streams := []
  cnt := []
  mismatches := 0
  laneErrors := []
  withdrawn := []
  fed := []
  lasts := []
  requests := []

/-- Fault agreement at reset (R347). -/
def FapSt.reset : FapSt where
  hist := 0
  suspect := false
  drainState := 0
  drainSlot := 0xFF
  drainAt := none
  draining := none
  rounds := []
  sentMsgs := []
  failed := 0
  later := 0
  first := 0
  called := 0
  katFail := 0
  mismatches := 0
  skipped := 0
  samples := 0
  failedModules := []
  usedSlots := []

/-- Security at reset (R395; notes/assumptions/4.md for the fuses as shipped). -/
def SecSt.reset : SecSt where
  rollback := 0
  slot0Revoked := false
  trngFail := false
  draws := 0
  report := none
  m6 := 0
  m7 := 0

/-- Power at reset (R425). -/
def PwrSt.reset : PwrSt where
  vin := 0
  iin := 0
  pin := 0
  vinLow := false
  vinHigh := false
  rows := []
  sPower := 0
  sPowerAt := 0
  coolant := false
  coolantOkAt := none
  throttle := false
  cap := false
  warned := []
  hotSince := none
  stretches := 0
  excessUs := 0
  capEpisodes := 0

/-- Clocks at reset (R426, R428). -/
def ClkSt.reset : ClkSt where
  time := 0
  refOk := false
  rootLock := false
  oeLock := 0
  sgmiiLock := false
  pcieLock := false
  unlocks := 0

/-- Counters at reset (R34, R102, R129, R434, R437, R438). -/
def CntSt.reset : CntSt where
  clampDev := {}
  clamp := []
  acc := []
  late := []
  selv := []
  phase := []
  norm := []
  stall := []
  snap := []
  snapTime := 0
  fillPeriods := 0
  fillUs := 0

/-- The machine right after reset: every register at its Reset column, no boot step begun, no command waiting
(notes/assumptions/3.md). -/
def State.reset : State where
  pending := []
  free := 0
  wmc := WmcSt.reset
  evt := EventSt.reset
  pci := PciSt.reset
  tcs := TcsSt.reset
  mxa := MxaSt.reset
  mem := MemSt.reset
  gab := GabSt.reset
  nvt := NvtSt.reset
  exo := { ports := [] }
  col := ColSt.reset
  fap := FapSt.reset
  sec := SecSt.reset
  pwr := PwrSt.reset
  clk := ClkSt.reset
  cnt := CntSt.reset

end Sys2Proof.Machine
end

