-- ==== Sys2Proof/Decode.lean ====
section
/-! DEFINITION. The table of commands gives its rows no bits (no row has a word), so no word spells a command. The
encodings that the hardware reads itself (Turter commands, tensor and DMA descriptors, configuration sets, image bundles)
are decoded by the meanings that use them. -/

namespace Sys2Proof

/-- The command that a word of the table spells: none, as the table gives no bits. -/
def decodeTableWord (_nbits _w : Nat) : Option Instr := none

end Sys2Proof
end

