-- ==== Sys2Proof/Config.lean ====
section
/-! DEFINITION. What an implementation fixes and the spec does not give (uninterpreted constants, no body), and the
free values: nothing can evaluate them, so a claim that mentions one holds for every value of it. -/

namespace Sys2Proof.Config

/-- Free bytes: the k-th byte that the spec leaves open, applied to a counter of State and an index
(R59: content of a tile register that is not defined; notes/assumptions/1.md). -/
opaque freeByte : Nat → Nat → Byte

/-- Free accumulator words (R59; notes/assumptions/1.md). -/
opaque freeWord : Nat → Nat → BitVec 32

/-- Words of the entropy source (R395, R403, R407), applied to a counter of State (notes/assumptions/2.md). -/
opaque entropy : Nat → BitVec 256

/-- The device secret fuse (R395), known to no agent outside the security subsystem. -/
opaque deviceSecret : BitVec 256

/-- The fused serial number (R395). -/
opaque serial : BitVec 64

/-- Silicon stepping, the Revision ID of R353: 0x00 for A0, 0x10 for B0 (a fuse). -/
opaque stepping : Byte

/-- Maellar's PCI vendor identifier (R353 names it, no value given). -/
opaque vendorId : BitVec 16

/-- SHAKE256-512 hash of Maellar image-signing key of slot 0 and 1 (fuses of R395). -/
opaque vendorKeyHash : Nat → BitVec 512

/-- Falcon-1024 verification of a digest under a public key (R397); the standard's function, uninterpreted. -/
opaque falconVerify : List Byte → BitVec 512 → List Byte → Bool

/-- Falcon-1024 identity public key generated from a seed (R399): 1,793 bytes as one number, uninterpreted. -/
opaque falconPublic : BitVec 512 → BitVec 14344

/-- Falcon-1024 signature, padded format (R403): 1,280 bytes as one number, by seed, digest and a fresh counter. -/
opaque falconSign : BitVec 512 → BitVec 512 → Nat → BitVec 10240

/-- MCTP and PLDM version numbers that the WMC offers (R389 names none), by message type and PLDM type. -/
opaque mgmtVersion : Nat → Nat → BitVec 32

/-- The boot ROM's digest M0 (R404), fixed per stepping. -/
opaque bootRomDigest : BitVec 512

/-- Bytes of the manufactured certificate chain held in the one-time-programmable array (R400). -/
opaque certByte : Nat → Byte

/-- Digests M1–M5 of the image bundle shipped in slot A (R375 gives the area, not its contents). -/
opaque imageDigest : Nat → BitVec 512

/-- Length and bytes of the factory configuration set as its image holds it (R382 gives its values, not its encoding). -/
opaque factorySetLength : Nat

/-- Byte of the factory configuration set. -/
opaque factorySetByte : Nat → Byte

/-- Digest M7 of the hardware records, whose layout the spec does not give (R404), by a counter of State. -/
opaque recordDigest : Nat → BitVec 512

end Sys2Proof.Config
end

