-- ==== Sys2Proof/Machine/Tab.lean ====
section
/-! DEFINITION. Sparse tables and byte packing: the accessors every family shares. -/

namespace Sys2Proof.Machine

/-- Reads a key; an unlisted key holds the default. -/
def tabGet {α : Type} (d : α) : Tab α → Nat → α
  | [], _ => d
  | (i, v) :: r, k => if i = k then v else tabGet d r k

/-- Puts a pair before the first larger key. -/
def tabInsert {α : Type} (k : Nat) (v : α) : Tab α → Tab α
  | [] => [(k, v)]
  | (i, w) :: r => if k < i then (k, v) :: (i, w) :: r else (i, w) :: tabInsert k v r

/-- Removes a key. -/
def tabDel {α : Type} (t : Tab α) (k : Nat) : Tab α := t.filter (fun x => x.1 ≠ k)

/-- Writes a key; writing the default removes the entry, so equal tables are equal data. -/
def tabPut {α : Type} [DecidableEq α] (d : α) (t : Tab α) (k : Nat) (v : α) : Tab α :=
  if v = d then tabDel t k else tabInsert k v (tabDel t k)

/-- Applies a function to the value at a key. -/
def tabMod {α : Type} [DecidableEq α] (d : α) (t : Tab α) (k : Nat) (f : α → α) : Tab α :=
  tabPut d t k (f (tabGet d t k))

/-- Removes every key of a half-open range. -/
def tabClear {α : Type} (t : Tab α) (lo hi : Nat) : Tab α := t.filter (fun x => x.1 < lo || hi ≤ x.1)

/-- The entries of a half-open range of keys. -/
def tabSlice {α : Type} (t : Tab α) (lo hi : Nat) : Tab α := t.filter (fun x => lo ≤ x.1 && x.1 < hi)

/-- Inserts an element before the first that does not come before it. -/
def insertBy {α : Type} (before : α → α → Bool) (x : α) : List α → List α
  | [] => [x]
  | y :: r => if before x y then x :: y :: r else y :: insertBy before x r

/-- Sorts by insertion; elements that tie keep their order. -/
def sortBy {α : Type} (before : α → α → Bool) : List α → List α
  | [] => []
  | x :: r => insertBy before x (sortBy before r)

/-- k bytes of a number, lowest first (R5). -/
def le : Nat → Nat → List Byte
  | 0, _ => []
  | k + 1, n => BitVec.ofNat 8 n :: le k (n / 256)

/-- The number a little-endian byte list spells (R5). -/
def unle : List Byte → Nat
  | [] => 0
  | b :: r => b.toNat + 256 * unle r

/-- A saturating increment (counters of chapters 1 to 18). -/
def satAdd (bits a b : Nat) : Nat := min (a + b) (2 ^ bits - 1)

/-- Rounds a quotient up. -/
def ceilDiv (a b : Nat) : Nat := (a + b - 1) / b

/-- Consecutive pieces of at most n elements of a range [a, a + len), as (start, length) cut at multiples of n. -/
def cutRange (n : Nat) : Nat → Nat → Nat → List (Nat × Nat)
  | 0, _, _ => []
  | fuel + 1, a, len =>
    if len = 0 then []
    else
      let k := min len (n - a % n)
      (a, k) :: cutRange n fuel (a + k) (len - k)

/-- The per-bolt pieces of a DVA range. -/
def boltPieces (dva len : Nat) : List (Nat × Nat) := cutRange 65536 (len / 65536 + 2) dva len

/-- The bolts a DVA range touches, ascending. -/
def boltsOf (dva len : Nat) : List Nat := (boltPieces dva len).map (fun x => x.1 / 65536)

end Sys2Proof.Machine
end

