-- ==== Sys2Proof/Machine/Ops.lean ====
section
/-! DEFINITION. Named operations over the state that every family shares: block updates, the active configuration,
queues, keepers and the clock. -/

namespace Sys2Proof.Machine

/-! ### Block updates -/

/-- Updates the management controller. -/
def modWmc (f : WmcSt → WmcSt) (s : State) : State := { s with wmc := f s.wmc }
/-- Updates the event state. -/
def modEvt (f : EventSt → EventSt) (s : State) : State := { s with evt := f s.evt }
/-- Updates the PCI block. -/
def modPci (f : PciSt → PciSt) (s : State) : State := { s with pci := f s.pci }
/-- Updates the TCS block. -/
def modTcs (f : TcsSt → TcsSt) (s : State) : State := { s with tcs := f s.tcs }
/-- Updates the arrays. -/
def modMxa (f : MxaSt → MxaSt) (s : State) : State := { s with mxa := f s.mxa }
/-- Updates the memory tiers. -/
def modMem (f : MemSt → MemSt) (s : State) : State := { s with mem := f s.mem }
/-- Updates the GAB. -/
def modGab (f : GabSt → GabSt) (s : State) : State := { s with gab := f s.gab }
/-- Updates the flash tier. -/
def modNvt (f : NvtSt → NvtSt) (s : State) : State := { s with nvt := f s.nvt }
/-- Updates the collectives. -/
def modCol (f : ColSt → ColSt) (s : State) : State := { s with col := f s.col }
/-- Updates the agreement engine. -/
def modFap (f : FapSt → FapSt) (s : State) : State := { s with fap := f s.fap }
/-- Updates the security subsystem. -/
def modSec (f : SecSt → SecSt) (s : State) : State := { s with sec := f s.sec }
/-- Updates the power block. -/
def modPwr (f : PwrSt → PwrSt) (s : State) : State := { s with pwr := f s.pwr }
/-- Updates the clocks. -/
def modClk (f : ClkSt → ClkSt) (s : State) : State := { s with clk := f s.clk }
/-- Updates the counters. -/
def modCnt (f : CntSt → CntSt) (s : State) : State := { s with cnt := f s.cnt }

/-! ### Time (R428) -/

/-- Local timestamp in ns. -/
def State.now (s : State) : Nat := s.clk.time
/-- Local timestamp in µs. -/
def State.nowUs (s : State) : Nat := s.clk.time / 1000

/-! ### The active configuration (R380–R382) -/

/-- The record of a partition that the active set does not list: disabled, with nothing (R382). -/
def PartRec.absent : PartRec where
  enabled := false
  raDepth := 0
  normGroups := 1
  gabQuota := 0
  arraySet := 0
  resT1 := 0
  resT2r := 0
  resT2w := 0
  resLink := 0
  dmaMask := 0
  roles := 0
  kpCount := 0
  keyId := 0
  quotaT0 := 0
  quotaT1 := 0
  quotaT2 := 0

/-- The partition record of a set. -/
def ConfigSet.part (c : ConfigSet) (p : Nat) : PartRec := tabGet PartRec.absent c.parts p
/-- The partition record of the active set. -/
def State.part (s : State) (p : Nat) : PartRec := s.wmc.active.part p
/-- The device record of the active set. -/
def State.dev (s : State) : DeviceRec := s.wmc.active.device
/-- The port record of the active set. -/
def State.portRec (s : State) (e : Nat) : PortRec := tabGet {} s.wmc.active.ports e
/-- Whether a partition is enabled in the active set. -/
def State.enabled (s : State) (p : Nat) : Bool := (s.part p).enabled
/-- The partitions. -/
def allParts : List Nat := List.range 8
/-- The enabled partitions, ascending. -/
def State.enabledParts (s : State) : List Nat := allParts.filter s.enabled
/-- The partition that a logical array belongs to (R382). -/
def State.arrayOwner (s : State) (l : Nat) : Option Nat :=
  s.enabledParts.find? (fun p => (s.part p).arraySet.getLsbD l)
/-- The logical arrays of a partition, ascending. -/
def State.arraysOf (s : State) (p : Nat) : List Nat :=
  (List.range 120).filter (fun l => (s.part p).arraySet.getLsbD l)
/-- The partition that owns a DMA engine (R367). -/
def State.dmaOwner (s : State) (d : Nat) : Option Nat := s.enabledParts.find? (fun p => (s.part p).dmaMask.getLsbD d)
/-- The function that owns a partition (R352): its VF while enabled, else the PF. -/
def State.ownerFn (s : State) (p : Nat) : Nat := if p + 1 ≤ s.pci.numVfs then p + 1 else 0
/-- Priority class of a partition (R192). -/
def prioClass (r : PartRec) : Nat := if r.prioClass = 1 then 1 else if r.prioClass = 2 then 2 else 3
/-- Ready state of the boot sequence (R376). -/
def State.isReady (s : State) : Bool := s.wmc.step == 8
/-- Present reservations; a partition without a cut holds those of the active set (R185, R192). -/
def State.res (s : State) (p : Nat) : Res :=
  let r := s.part p
  tabGet { t1 := r.resT1, t2r := r.resT2r, t2w := r.resT2w, link := List.replicate 8 r.resLink } s.mem.res p

/-! ### Queues (R162–R165) -/

/-- Queue n. -/
def State.queue (s : State) (q : Nat) : Queue := tabGet {} s.tcs.queues q
/-- Replaces queue n. -/
def setQueue (q : Nat) (v : Queue) (s : State) : State :=
  modTcs (fun t => { t with queues := tabPut {} t.queues q v }) s
/-- Updates queue n. -/
def modQueue (q : Nat) (f : Queue → Queue) (s : State) : State := setQueue q (f (s.queue q)) s
/-- The partition of a queue (R162). -/
def partOfQ (q : Nat) : Nat := q / 32
/-- Slots of a ring (R162, R194, R368, R451). -/
def ringSize (code : Nat) : Nat := 2 ^ (code + 6)

/-! ### Keepers (R172–R175) -/

/-- Keeper k of the device. -/
def State.keeper (s : State) (k : Nat) : BitVec 32 := tabGet 0 s.tcs.keepers k
/-- Writes keeper k. -/
def setKeeper (k : Nat) (v : BitVec 32) (s : State) : State :=
  modTcs (fun t => { t with keepers := tabPut 0 t.keepers k v }) s
/-- The device keeper that a partition names by a relative index, none at or beyond kp_count (R172). -/
def State.keeperOf (s : State) (p k : Nat) : Option Nat :=
  if k < (s.part p).kpCount then some ((s.part p).kpBase + k) else none

/-! ### In-flight commands (R167, R169) -/

/-- The in-flight record of a queue's command at a ring index. -/
def State.inflight (s : State) (q : Nat) (pos : BitVec 32) : Option Inflight :=
  s.tcs.inflight.find? (fun f => f.q == q && f.pos == pos)
/-- Updates the in-flight record of a command. -/
def modInflight (q : Nat) (pos : BitVec 32) (g : Inflight → Inflight) (s : State) : State :=
  modTcs (fun t => { t with inflight := t.inflight.map (fun f => if f.q = q ∧ f.pos = pos then g f else f) }) s
/-- A command reaches its completion point (R167). -/
def markDone (q : Nat) (pos : BitVec 32) (s : State) : State :=
  modInflight q pos (fun f => { f with started := true, done := true }) s
/-- A command starts at its engine; `since` keeps the time of its start. -/
def markStarted (q : Nat) (pos : BitVec 32) (s : State) : State :=
  modInflight q pos (fun f => if f.started then f else { f with started := true, since := s.now }) s

/-- A field of a command: bits [lo, lo + w) as a number. -/
def fld (c : CmdWord) (lo w : Nat) : Nat := (c.extractLsb' lo w).toNat
/-- The opcode of a command (R166). -/
def opcodeOf (c : CmdWord) : Nat := fld c 0 8

/-! ### Arrays -/

/-- Logical array l. -/
def State.arr (s : State) (l : Nat) : ArrayL := tabGet {} s.mxa.arrays l
/-- Updates logical array l. -/
def modArr (l : Nat) (f : ArrayL → ArrayL) (s : State) : State :=
  modMxa (fun m => { m with arrays := tabPut {} m.arrays l (f (tabGet {} m.arrays l)) }) s
/-- The physical array behind a logical one (R70). -/
def State.physOf (s : State) (l : Nat) : Nat := s.mxa.hw.phys.getD l 0xFF
/-- Whether a logical array is offline (R72). -/
def State.offline (s : State) (l : Nat) : Bool := s.mxa.hw.offline.contains l
/-- The logical array that a physical one carries (R70, R72). -/
def logicalOf (s : State) (a : Nat) : Option Nat := (List.range 120).find? (fun l => s.physOf l == a && ! s.offline l)

/-! ### Envelopes -/

/-- The envelope with a number. -/
def State.env (s : State) (uid : Nat) : Option Envelope := s.tcs.envs.find? (fun e => e.uid == uid)
/-- Updates the envelope with a number. -/
def modEnv (uid : Nat) (g : Envelope → Envelope) (s : State) : State :=
  modTcs (fun t => { t with envs := t.envs.map (fun e => if e.uid = uid then g e else e) }) s

/-- Takes a fresh index for a free value (notes/assumptions/1.md). -/
def bumpFree (n : Nat) (s : State) : State := { s with free := s.free + n }

/-- A register after an access: the half not written keeps its bits; a 32-bit access carries its data in bits 31:0. -/
def mergeHalf (old : BitVec 64) (half : RegHalf) (v : BitVec 64) : BitVec 64 :=
  match half with
  | .full => v
  | .low => old.extractLsb' 32 32 ++ v.extractLsb' 0 32
  | .high => v.extractLsb' 0 32 ++ old.extractLsb' 0 32

end Sys2Proof.Machine
end

