-- ==== Sys2Proof/Machine/Ftl.lean ====
section
/-! DEFINITION. Placement of bolt copies on flash (R234–R236, R238, R240): blocks, streams and the spare pool. Block b
lies on channel b mod 16 (notes/assumptions/5.md). -/

namespace Sys2Proof.Machine

/-- Pages of an erase block (R234). -/
def pagesPerBlock : Nat := 1024
/-- Erase blocks of one channel: 32 TB raw in 16 MiB blocks (R234). -/
def blocksPerChannel : Nat := 32000000000000 / 16777216 / 16
/-- Blocks of the spare pool (R240): raw capacity less user capacity, journal area and checkpoint directories of 16
bytes for each bolt of the user capacity (notes/assumptions/5.md). -/
def sparePoolBlocks : Nat :=
  (32000000000000 - 13351440 * 2097152 - 4 * 2 ^ 30 - 16 * 13351440 * 32) / 16777216

/-- A flash block. -/
def State.fblock (s : State) (b : Nat) : FBlock := tabGet {} s.nvt.blocks b
/-- Updates a flash block. -/
def modBlock (b : Nat) (f : FBlock → FBlock) (s : State) : State :=
  modNvt (fun n => { n with blocks := tabMod {} n.blocks b f }) s

/-- A block that holds nothing and may be allocated. -/
def FBlock.isFree (b : FBlock) : Bool := b.used == 0 && ! b.bad

/-- Listed blocks of a channel. -/
def listedOn (s : State) (ch : Nat) : List (Nat × FBlock) := s.nvt.blocks.filter (fun x => x.1 % 16 == ch)

/-- Free blocks of a channel (R242). -/
def freeBlocks (s : State) (ch : Nat) : Nat :=
  blocksPerChannel - ((listedOn s ch).filter (fun x => ! x.2.isFree)).length

/-- The free block of a channel with the fewest erases, ties to the lower index (R238); none when the channel has no free
block (R234). -/
def pickFree (s : State) (ch : Nat) : Option Nat :=
  let fresh := (((List.range (min (s.nvt.blocks.length + 1) blocksPerChannel)).map (fun i => ch + 16 * i)).find?
    (fun b => ! s.nvt.blocks.any (fun x => x.1 == b)))
  let best := ((listedOn s ch).filter (fun x => x.2.isFree)).foldl
    (fun (acc : Option (Nat × Nat)) x =>
      match acc with
      | none => some (x.2.erases, x.1)
      | some (e, b) => if x.2.erases < e then some (x.2.erases, x.1) else some (e, b)) none
  match fresh, best with
  | some f, some (e, b) => some (if e = 0 && b < f then b else f)
  | some f, none => some f
  | none, some (_, b) => some b
  | none, none => none

/-- The open block of a stream on a channel, allocating one when it is full or absent (R236, R238). -/
def openBlock (s : State) (stream ch : Nat) : Option Nat :=
  match tabGet 0 s.nvt.open_ (stream * 16 + ch) with
  | 0 => pickFree s ch
  | b + 1 => if (s.fblock b).used < pagesPerBlock && ! (s.fblock b).bad then some b else pickFree s ch

/-- Notes the programming of a page: in the last 10 s by stream (R256), and as a user write of its channel (R242). -/
def noteProgram (stream ch : Nat) (s : State) : State :=
  modNvt (fun n =>
    { n with
      wrote := if 2 ≤ stream then n.wrote
        else (n.wrote.filter (fun x => decide (s.clk.time < x.1 + 10000000000))) ++
          [(s.clk.time, if stream = 0 then 1 else 0, if stream = 1 then 1 else 0)]
      userPages := if stream = 1 then n.userPages else tabMod 0 n.userPages ch (fun k => k + 1) }) s

/-- Pages that the spill and the relocation stream programmed in the last 10 s. -/
def State.wroteLately (s : State) : Nat × Nat :=
  let l := s.nvt.wrote.filter (fun x => decide (s.clk.time < x.1 + 10000000000))
  ((l.map (fun x => x.2.1)).sum, (l.map (fun x => x.2.2)).sum)

/-- wa_milli: the write amplification of the spill stream over the last 10 s, in thousandths (R256); 1000 when it has
written nothing. -/
def State.waMilli (s : State) : Nat :=
  let w := s.wroteLately
  if w.1 = 0 then 1000 else min 65535 ((w.1 + w.2) * 1000 / w.1)

/-- User writes to a channel wait for garbage collection: fewer than 64 free blocks, at a write amplification above
14 / 12 (R242). -/
def State.throttles (s : State) (ch : Nat) : Bool :=
  let w := s.wroteLately
  decide (freeBlocks s ch < 64) && decide (14 * w.1 < 12 * (w.1 + w.2))

/-- Programs one flash page in a stream (R236). -/
def programPage (stream ch : Nat) (pg : FlashPage) (s : State) : State :=
  match openBlock s stream ch with
  | none => s
  | some b =>
  let s := noteProgram stream ch s
  let s := modNvt (fun n => { n with open_ := tabPut 0 n.open_ (stream * 16 + ch) (b + 1) }) s
  modBlock b (fun k =>
    { k with stream := stream, used := k.used + 1, at_ := if k.used = 0 then s.now else k.at_, pages := k.pages ++ [pg] }) s

/-- Writes one bolt copy: four pages on four channels from 4 × bolt mod 16 (R235). -/
def ftlPlace (p origin slot bolt stream : Nat) (s : State) : State :=
  (List.range 4).foldl
    (fun s i => programPage stream ((4 * bolt + i) % 16)
      { part := p, origin := origin, slot := slot, bolt := bolt, quarter := i } s) s

/-- Erases a block. -/
def FBlock.erase (k : FBlock) : FBlock :=
  { k with erases := k.erases + 1, reads := 0, used := 0, soft := [], correctedPct := 0, pages := [] }

/-- Frees the pages that a predicate names; a checkpoint stream's block that is left empty is released (R236). -/
def ftlFree (f : FlashPage → Bool) (s : State) : State :=
  modNvt (fun n =>
    { n with blocks := n.blocks.map (fun x =>
        if x.2.pages.any f then
          let k := { x.2 with pages := x.2.pages.filter (fun g => ! f g) }
          (x.1, if k.stream ≥ 2 && k.pages.isEmpty then k.erase else k)
        else x) }) s

/-- Frees the live copy of a bolt. -/
def ftlFreeBolt (p slot bolt : Nat) (s : State) : State :=
  ftlFree (fun g => g.part == p && g.origin == 0 && g.slot == slot && g.bolt == bolt) s

/-- Counts a read of the pages that a predicate names (R238). -/
def ftlReadPages (f : FlashPage → Bool) (s : State) : State :=
  modNvt (fun n =>
    { n with blocks := n.blocks.map (fun x =>
        let k := (x.2.pages.filter f).length
        if k = 0 then x else (x.1, { x.2 with reads := x.2.reads + k })) }) s

/-- Counts a read of the pages of a live bolt copy. -/
def ftlRead (p slot bolt : Nat) (s : State) : State :=
  ftlReadPages (fun g => g.part == p && g.origin == 0 && g.slot == slot && g.bolt == bolt) s

/-- T2 is write-protected (R240). -/
def State.writeProtected (s : State) : Bool := s.mxa.hw.nvtMode != 0

/-- Percentage of the spare pool consumed (R255). -/
def spareUsed (grown : Nat) : Nat := min 100 (grown * 100 / sparePoolBlocks)

end Sys2Proof.Machine
end

