-- ==== Sys2Proof/Machine/Mem.lean ====
section
/-! DEFINITION. The memory tiers (R196–R220, R224, R225) and the two slots of parameter regions (R125, R126): where
bolts lie, how an access places, claims and evicts, and the bytes themselves. All valid copies of a bolt hold the same
bytes (R211, R212), so a byte is stored once, by partition, slot and DVA. -/

namespace Sys2Proof.Machine

/-- Key of a byte: partition, slot of a two-version bolt, DVA. -/
def byteKey (p slot dva : Nat) : Nat := (2 * p + slot) * 2 ^ 52 + dva
/-- Key of a bolt. -/
def boltKey (p slot b : Nat) : Nat := (2 * p + slot) * 2 ^ 36 + b

/-- Memory in canonical form: keys strictly rising, no entry equal to the zero that an unlisted byte reads as (R198). -/
def Memory.wf (m : List Host.Cell) : Bool := decide (m.Pairwise (fun a b => a.1 < b.1)) && m.all (fun c => c.2 != 0#8)

/-- A byte of memory; one that nothing has written reads as zero (R198). -/
def rawByte (m : List Host.Cell) (k : Nat) : Byte := tabGet 0#8 m k
/-- Writes a byte. -/
def rawPut (m : List Host.Cell) (k : Nat) (v : Byte) : List Host.Cell := tabPut 0#8 m k v

/-! ### Regions (R197–R200) -/

/-- Regions of a partition. -/
def State.regions (s : State) (p : Nat) : List Region := tabGet [] s.mem.regions p
/-- The region that holds a DVA. -/
def State.regionAt (s : State) (p dva : Nat) : Option Region :=
  (s.regions p).find? (fun r => decide (r.base ≤ dva) && decide (dva < r.base + r.len))
/-- Rank of a tier from the top (R200). -/
def tierRank : Tier → Nat
  | .t0 => 0
  | .t1 => 1
  | .t2 => 2
/-- Pin tier of a bolt's page (R213). -/
def Region.pinOf (r : Region) (b : Nat) : Option Tier :=
  (r.pins.find? (fun x => x.1 == (b * 65536 - r.base) / 2097152)).map (fun x => x.2)
/-- Bolts of a region. -/
def Region.bolts (r : Region) : Nat := r.len / 65536

/-! ### Bolts -/

/-- A bolt's copies. -/
def State.bolt (s : State) (p slot b : Nat) : Bolt := tabGet {} s.mem.bolts (boltKey p slot b)
/-- The last-access stamp of a bolt's copy in a tier. -/
def Bolt.copy (k : Bolt) : Tier → Option Nat
  | .t0 => k.t0
  | .t1 => k.t1
  | .t2 => k.t2
/-- A valid copy in a tier. -/
def Bolt.has (k : Bolt) (x : Tier) : Bool := (k.copy x).isSome
/-- A zero bolt (R198). -/
def Bolt.isZero (k : Bolt) : Bool := ! k.has .t0 && ! k.has .t1 && ! k.has .t2
/-- The tier of the top copy (R211). -/
def Bolt.top (k : Bolt) : Option Tier :=
  if k.has .t0 then some .t0 else if k.has .t1 then some .t1 else if k.has .t2 then some .t2 else none
/-- Adds or stamps a copy. -/
def Bolt.withCopy (k : Bolt) (x : Tier) (stamp : Nat) : Bolt :=
  match x with
  | .t0 => { k with t0 := some stamp }
  | .t1 => { k with t1 := some stamp }
  | .t2 => { k with t2 := some stamp }
/-- Drops a copy, with its protection. -/
def Bolt.drop (k : Bolt) (x : Tier) : Bolt :=
  match x with
  | .t0 => { k with t0 := none, prot0 := none, ahead := false }
  | .t1 => { k with t1 := none, prot1 := none }
  | .t2 => { k with t2 := none }

/-- Replaces a bolt's copies, programming or freeing its flash pages and recording the key of a new T2 copy (R235,
R236, R406). -/
def setBolt (p slot b : Nat) (v : Bolt) (s : State) : State :=
  let old := s.bolt p slot b
  let v := if v.has .t2 && ! old.has .t2 then { v with key := (s.part p).keyId % 256 } else v
  let s := modMem (fun m => { m with bolts := tabPut {} m.bolts (boltKey p slot b) v }) s
  if v.has .t2 && ! old.has .t2 then ftlPlace p 0 slot b 0 s
  else if old.has .t2 && ! v.has .t2 then ftlFreeBolt p slot b s
  else s

/-- The migration of a bolt in progress (R207). -/
def State.migrating (s : State) (p slot b : Nat) : Bool :=
  s.mem.migrations.any (fun m => m.part == p && m.slot == slot && m.bolt == b)

/-! ### Quotas (R216) -/

/-- Capacity of a tier in bolts (R196, R231). -/
def State.capacity (s : State) : Tier → Nat
  | .t0 => 664 * 32
  | .t1 => s.mem.t1Pages * 32
  | .t2 => 13351440 * 32
/-- Quota of a partition in bolts. -/
def State.quota (s : State) (p : Nat) : Tier → Nat
  | .t0 => (s.part p).quotaT0 * 32
  | .t1 => (s.part p).quotaT1 * 32
  | .t2 => (s.part p).quotaT2 * 32
/-- Non-zero bolts of a partition's checkpoints (R246). -/
def State.ckptBolts (s : State) (p : Nat) : Nat :=
  ((s.nvt.ckpts.filter (fun x => x.1 / 16 == p)).map (fun x => (x.2.bolts.filter (fun b => b.nonzero)).length)).sum +
  ((s.nvt.commits.filter (fun c => c.part == p && c.phase < 3)).map
    (fun c => (c.image.bolts.filter (fun b => b.nonzero)).length)).sum
/-- committed (R216). -/
def State.committed (s : State) (p : Nat) (x : Tier) : Nat :=
  (((s.regions p).filter (fun r => r.floor == x)).map (fun r => r.bolts * (if r.twoVer then 2 else 1))).sum +
  (if x = .t2 then s.ckptBolts p else 0)
/-- The listed bolts of a partition with a copy in a tier above their region's floor, as (slot, bolt, copies, region). -/
def State.cachedList (s : State) (p : Nat) (x : Tier) : List (Nat × Nat × Bolt × Region) :=
  s.mem.bolts.filterMap (fun e =>
    if e.1 / 2 ^ 37 = p ∧ e.2.has x then
      let b := e.1 % 2 ^ 36
      match s.regionAt p (b * 65536) with
      | some r => if tierRank x < tierRank r.floor then some (e.1 / 2 ^ 36 % 2, b, e.2, r) else none
      | none => none
    else none)
/-- cached (R216). -/
def State.cached (s : State) (p : Nat) (x : Tier) : Nat := (s.cachedList p x).length
/-- Bolts of a tier above their region's floor that migrations in progress have claimed and not yet switched (R207,
R217). -/
def State.inbound (s : State) (p : Nat) (x : Tier) : Nat :=
  (s.mem.migrations.filter (fun m => m.part == p && m.dst == x && ! (s.bolt p m.slot m.bolt).has x &&
    (match s.regionAt p (m.bolt * 65536) with
      | some r => decide (tierRank x < tierRank r.floor)
      | none => false))).length
/-- held (R216). -/
def State.held (s : State) (p : Nat) (x : Tier) : Nat := s.committed p x + s.cached p x + s.inbound p x
/-- pinned (R216). -/
def State.pinned (s : State) (p : Nat) (x : Tier) : Nat :=
  ((s.cachedList p x).filter (fun e => e.2.2.2.pinOf e.2.1 == some x)).length
/-- A copy protected by an envelope (R220). -/
def Bolt.protectedIn (k : Bolt) : Tier → Bool
  | .t0 => k.prot0.isSome
  | .t1 => k.prot1.isSome
  | .t2 => false
/-- protected (R216). -/
def State.protectedBolts (s : State) (p : Nat) (x : Tier) : Nat :=
  ((s.cachedList p x).filter (fun e => e.2.2.1.protectedIn x)).length
/-- Sum of held over all partitions. -/
def State.totalHeld (s : State) (x : Tier) : Nat := (allParts.map (fun p => s.held p x)).sum
/-- The reserve of R216: one page for each array and one more. -/
def State.reserve (s : State) (p : Nat) : Nat := 32 * (1 + (s.arraysOf p).length)
/-- Pages pinned in a tier, whatever their floor (R221). -/
def State.pinnedPages (s : State) (p : Nat) (x : Tier) : Nat :=
  ((s.regions p).map (fun r => (r.pins.filter (fun q => q.2 == x)).length)).sum
/-- The limits of R216 hold for a partition when `dc` more bolts are committed, `dp` pinned and `dt` protected. -/
def State.limitsOk (s : State) (p : Nat) (x : Tier) (dc dp dt : Nat) : Bool :=
  let c := s.committed p x + dc + s.pinned p x + dp
  let t := c + s.protectedBolts p x + dt
  match x with
  | .t0 => decide (t + s.reserve p ≤ s.quota p .t0)
  | .t1 => decide (t ≤ s.quota p .t1)
  | .t2 => decide (c ≤ s.quota p .t2)

/-! ### Claim and eviction (R217–R219) -/

/-- A candidate for eviction. -/
structure Victim where
  part : Nat
  slot : Nat
  bolt : Nat
  stamp : Nat
  deriving DecidableEq, Repr

/-- Which of two candidates goes first: the older stamp, then the higher partition, then the higher DVA (R219). -/
def Victim.before (a b : Victim) : Bool :=
  decide (a.stamp < b.stamp) || (a.stamp == b.stamp &&
    (decide (b.part < a.part) || (a.part == b.part && decide (b.bolt < a.bolt))))

/-- Evictable copies of a partition in a tier: cached, unpinned, not protected, not in flight. -/
def State.evictable (s : State) (p : Nat) (x : Tier) : List Victim :=
  (s.cachedList p x).filterMap (fun e =>
    if e.2.2.2.pinOf e.2.1 == some x || e.2.2.1.protectedIn x || s.migrating p e.1 e.2.1 then none
    else some { part := p, slot := e.1, bolt := e.2.1, stamp := (e.2.2.1.copy x).getD 0 })

/-- The first candidate of a list under R219. -/
def pickVictim (l : List Victim) : Option Victim :=
  l.foldl (fun acc v =>
    match acc with
    | none => some v
    | some w => if v.before w then some v else some w) none

/-- Victims that the second branch of R217 may take: of partitions over their quota. -/
def State.overQuota (s : State) (x : Tier) : List Victim :=
  ((allParts.filter (fun q => decide (s.quota q x < s.held q x))).map (fun q => s.evictable q x)).flatten

/-- Issues the HOME record of a single-home bolt whose map entry switches into or out of T2 (R249). -/
def homeRecord (p slot b : Nat) (s : State) : State := modNvt (fun n => { n with journal := n.journal ++ [.home p slot b] }) s

/-- Writes an evicted bolt down to T2 (R218, R249). -/
def writeDown (v : Victim) (x : Tier) (s : State) : State :=
  let single := ((s.regionAt v.part (v.bolt * 65536)).map (fun r => r.single)).getD false
  setBolt v.part v.slot v.bolt (((s.bolt v.part v.slot v.bolt).drop x).withCopy .t2 s.nowUs)
    (if single then homeRecord v.part v.slot v.bolt s else s)

/-- Eviction from T1 (R218): dropped when a valid T2 copy remains, written to T2 otherwise. -/
def evictT1 (v : Victim) (s : State) : State :=
  let k := s.bolt v.part v.slot v.bolt
  let single := ((s.regionAt v.part (v.bolt * 65536)).map (fun r => r.single)).getD false
  if ! single && k.has .t2 then setBolt v.part v.slot v.bolt (k.drop .t1) s else writeDown v .t1 s

/-- claim in T1 (R217); `third` allows its third branch. -/
def claimT1 (p : Nat) (third : Bool) (s : State) : Option State :=
  if s.totalHeld .t1 < s.capacity .t1 then some s
  else if s.held p .t1 < s.quota p .t1 then (pickVictim (s.overQuota .t1)).map (fun v => evictT1 v s)
  else if third then (pickVictim (s.evictable p .t1)).map (fun v => evictT1 v s)
  else none

/-- Eviction from T0 (R218). -/
def evictT0 (v : Victim) (s : State) : State :=
  let k := s.bolt v.part v.slot v.bolt
  match s.regionAt v.part (v.bolt * 65536) with
  | none => setBolt v.part v.slot v.bolt (k.drop .t0) s
  | some r =>
    if ! r.single && (k.has .t1 || k.has .t2) then setBolt v.part v.slot v.bolt (k.drop .t0) s
    else if r.floor = .t1 then setBolt v.part v.slot v.bolt ((k.drop .t0).withCopy .t1 s.nowUs) s
    else
      match (if r.park then none else claimT1 v.part false s) with
      | some s1 => setBolt v.part v.slot v.bolt ((k.drop .t0).withCopy .t1 s.nowUs) s1
      | none => writeDown v .t0 s

/-- claim in T0 (R217). -/
def claimT0 (p : Nat) (third : Bool) (s : State) : Option State :=
  if s.totalHeld .t0 < s.capacity .t0 then some s
  else if s.held p .t0 < s.quota p .t0 then (pickVictim (s.overQuota .t0)).map (fun v => evictT0 v s)
  else if third then (pickVictim (s.evictable p .t0)).map (fun v => evictT0 v s)
  else none

/-- claim(p, X); a copy in T2 is always committed, its floor being T2. -/
def claim (p : Nat) (x : Tier) (third : Bool) (s : State) : Option State :=
  match x with
  | .t0 => claimT0 p third s
  | .t1 => claimT1 p third s
  | .t2 => some s

/-- Evicts as in the second branch while a tier holds more than its capacity (R217, R231). -/
def shrinkTier (x : Tier) : Nat → State → State
  | 0, s => s
  | fuel + 1, s =>
    if s.totalHeld x ≤ s.capacity x then s
    else
      match pickVictim (s.overQuota x) with
      | none => s
      | some v => shrinkTier x fuel (if x = .t0 then evictT0 v s else evictT1 v s)

/-- Makes room for a copy in a tier: a claim above the floor, nothing in the floor tier. -/
def allocate (p : Nat) (r : Region) (x : Tier) (third : Bool) (s : State) : Option State :=
  if tierRank x < tierRank r.floor then claim p x third s else if tierRank x = tierRank r.floor then some s else none

/-- Makes room for a copy of a bolt that is itself in flight meanwhile, and so no victim (R209). -/
def allocateFor (p slot b : Nat) (r : Region) (x : Tier) (s : State) : Option State :=
  let l := s.mem.migrations
  (allocate p r x true (modMem (fun m => { m with migrations :=
    l ++ [{ part := p, slot := slot, bolt := b, dst := .t2, held := [] }] }) s)).map (modMem (fun m => { m with migrations := l }))

/-! ### Slots of two-version regions (R125, R126, R214) -/

/-- Version state of a bolt. -/
def State.ver (s : State) (p b : Nat) : BoltVer := tabGet {} s.mem.vers (p * 2 ^ 36 + b)
/-- Replaces the version state of a bolt. -/
def setVer (p b : Nat) (v : BoltVer) (s : State) : State :=
  modMem (fun m => { m with vers := tabPut {} m.vers (p * 2 ^ 36 + b) v }) s
/-- The current slot of a bolt. -/
def State.curSlot (s : State) (p b : Nat) : Nat := if (s.ver p b).flip then 1 else 0
/-- The bound entry whose parameter region holds a DVA. -/
def State.paramAt (s : State) (p dva : Nat) : Option GabEntry :=
  (tabGet [] s.gab.maps p).find? (fun e => decide (e.wBase ≤ dva) && decide (dva < e.wBase + e.wLen))

/-- Who makes an access: its partition, agent code (R474), whether it reaches T0 only (R206), the command's step and
update mark when a command makes it, and the position recorded in event 0x0401. -/
structure Acc where
  part : Nat
  agent : Nat
  t0only : Bool
  cmd : Option (Nat × Bool)
  q : Nat
  pos : Nat
  deriving DecidableEq, Repr

/-- The slot a read of a byte takes (R125, R214). -/
def State.readSlot (s : State) (a : Acc) (dva : Nat) : Nat :=
  match s.regionAt a.part dva with
  | none => 0
  | some r =>
    if ! r.twoVer then 0
    else
      let b := dva / 65536
      let cur := s.curSlot a.part b
      match a.cmd, s.paramAt a.part dva with
      | some c, some e => if (s.ver a.part b).two && decide (e.version < c.1) then 1 - cur else cur
      | _, _ => cur

/-- The slot a write of a byte takes: the pending slot for a command's write to a parameter region (R125). -/
def State.writeSlot (s : State) (a : Acc) (dva : Nat) : Nat :=
  match s.regionAt a.part dva with
  | none => 0
  | some r =>
    if ! r.twoVer then 0
    else
      let cur := s.curSlot a.part (dva / 65536)
      match a.cmd, s.paramAt a.part dva with
      | some _, some _ => 1 - cur
      | _, _ => cur

/-- A command of step `st` that reads a range is late (R125, R126). -/
def State.lateRange (s : State) (p st : Nat) (upd : Bool) (dva len : Nat) : Bool :=
  (tabGet [] s.gab.maps p).any (fun e =>
    let lo := max dva e.wBase
    let hi := min (dva + len) (e.wBase + e.wLen)
    decide (lo < hi) && (boltsOf lo (hi - lo)).any (fun b =>
      match s.regionAt p (b * 65536) with
      | some r =>
        if r.twoVer && ! (s.ver p b).two then decide (st < e.version) else decide (st < e.version) && ! upd
      | none => decide (st < e.version) && ! upd))

/-- A range touches a parameter region of the partition (R124). -/
def State.touchesParam (s : State) (p dva len : Nat) : Bool :=
  (tabGet [] s.gab.maps p).any (fun e => decide (max dva e.wBase < min (dva + len) (e.wBase + e.wLen)))

/-! ### Accesses (R206, R210–R212) -/

/-- One byte as an agent reads it: zero outside every region (R210). -/
def State.readByte (s : State) (a : Acc) (dva : Nat) : Byte :=
  match s.regionAt a.part dva with
  | none => 0#8
  | some _ => rawByte s.mem.bytes (byteKey a.part (s.readSlot a dva) dva)

/-- Bytes as an agent reads them. -/
def State.readBytes (s : State) (a : Acc) (dva len : Nat) : List Byte :=
  (List.range len).map (fun i => s.readByte a (dva + i))

/-- The first DVA of a range that lies in no region (R210). -/
def State.unmappedIn (s : State) (p dva len : Nat) : Option Nat :=
  ((boltPieces dva len).find? (fun x => (s.regionAt p x.1).isNone)).map (fun x => x.1)

/-- Switches a bolt's map entry to a copy in a tier, as a migration or a bolt of zeros: the home moves in a single-home
region, a new copy is made otherwise (R211, R212), and the copy that was read is stamped too (R219). -/
def switchCopy (p slot b : Nat) (r : Region) (x : Tier) (s : State) : State :=
  let k := s.bolt p slot b
  let s := if k.top = some .t2 then ftlRead p slot b s else s
  let k1 := match k.top with
    | some y => k.withCopy y s.nowUs
    | none => k
  setBolt p slot b ((if r.single then ((k.drop .t0).drop .t1).drop .t2 else k1).withCopy x s.nowUs) s

/-- A switch whose HOME record, if it needs one, is written in the same step (R249; notes/assumptions/80.md). -/
def placeCopy (p slot b : Nat) (r : Region) (x : Tier) (s : State) : State :=
  switchCopy p slot b r x (if r.single && (s.bolt p slot b).has .t2 then homeRecord p slot b s else s)

/-- A bolt lies where an agent reaches it (R206): a read of a zero bolt needs no copy. -/
def State.reaches (s : State) (a : Acc) (slot b : Nat) (write : Bool) : Bool :=
  let k := s.bolt a.part slot b
  (k.isZero && ! write) || k.has .t0 || (! a.t0only && k.has .t1)

/-- Demand migration or first placement (R206): the bolt gets a copy where the agent reaches it; one that is migrating
already is left to its migration (R207). -/
def demand (a : Acc) (slot b : Nat) (r : Region) (write : Bool) (s : State) : State :=
  if s.reaches a slot b write || s.migrating a.part slot b then s
  else if a.t0only || r.floor = .t0 then
    match allocateFor a.part slot b r .t0 s with
    | some s1 => placeCopy a.part slot b r .t0 s1
    | none => s
  else
    match allocateFor a.part slot b r .t1 s with
    | some s1 => placeCopy a.part slot b r .t1 s1
    | none =>
      match allocateFor a.part slot b r .t0 s with
      | some s1 => placeCopy a.part slot b r .t0 s1
      | none => s

/-- Stamps the top copy (R219); the first touch by an agent that triggers run-ahead, `ra`, ends a run-ahead placement
(R224). -/
def touchBolt (ra : Bool) (p slot b : Nat) (s : State) : State :=
  let k := s.bolt p slot b
  match k.top with
  | none => s
  | some x => setBolt p slot b { k.withCopy x s.nowUs with ahead := k.ahead && ! ra } s

/-- A touch of a bolt by an agent that triggers run-ahead does so: the bolt is absent from T0, or run-ahead placed it and
nobody of them has touched it yet (R224). -/
def raTrigger (ra : Bool) (r : Region) (k : Bolt) : Bool := ra && r.runahead && ((! k.has .t0 && ! k.isZero) || k.ahead)

/-- The copies that stay valid after a write to the top copy: it and a copy in the page's pin tier (R211). -/
def writtenBolt (k : Bolt) (pin : Option Tier) : Bolt :=
  match k.top with
  | none => k
  | some x =>
    let drop1 (k : Bolt) (y : Tier) : Bolt := if y = x || pin == some y then k else k.drop y
    drop1 (drop1 (drop1 k .t0) .t1) .t2

/-- Run-ahead fetches of one candidate (R224, R225). -/
def runAheadOne (p : Nat) (r : Region) (b : Nat) (s : State) : State :=
  let slot := s.curSlot p b
  let k := s.bolt p slot b
  let discard (s : State) : State :=
    modMem (fun m => { m with raDiscarded := tabMod 0 m.raDiscarded p (fun n => satAdd 30 n 1) }) s
  if r.base + r.len ≤ b * 65536 then discard s
  else if k.has .t0 || k.isZero || s.migrating p slot b then s
  else if ! k.has .t1 then discard s
  else if tierRank r.floor = 0 || decide (s.totalHeld .t0 < s.capacity .t0) then
    let s := placeCopy p slot b r .t0 s
    let s := setBolt p slot b { s.bolt p slot b with ahead := true } s
    modMem (fun m => { m with raFetched := tabMod 0 m.raFetched p (fun n => satAdd 30 n 1) }) s
  else discard s

/-- Run-ahead after a demand miss or a first touch of bolt b (R224). -/
def runAhead (p b : Nat) (r : Region) (s : State) : State :=
  ((List.range (s.part p).raDepth).map (fun i => b + 1 + i)).foldl (fun s c => runAheadOne p r c s) s

/-- One bolt touched by a read. -/
def readPiece (a : Acc) (ra : Bool) (x : Nat × Nat) (s : State) : State :=
  match s.regionAt a.part x.1 with
  | none => s
  | some r =>
    let b := x.1 / 65536
    let slots := [0, 1].filter (fun sl =>
      if r.twoVer then (List.range x.2).any (fun i => s.readSlot a (x.1 + i) == sl) else sl == 0)
    slots.foldl (fun s sl =>
      let k := s.bolt a.part sl b
      let s1 := touchBolt ra a.part sl b (demand a sl b r false s)
      if raTrigger ra r k then runAhead a.part b r s1 else s1) s

/-- The placements a read of a range causes, bolt by bolt; `ra` for the agents that trigger run-ahead (R224). -/
def touchRead (a : Acc) (ra : Bool) (dva len : Nat) (s : State) : State :=
  (boltPieces dva len).foldl (fun s x => readPiece a ra x s) s

/-- The bytes of a bolt slot copied over another, which then holds exactly them. -/
def copyBytes (m : List Host.Cell) (src dst len : Nat) : List Host.Cell :=
  (tabSlice m src (src + len)).foldl (fun acc c => rawPut acc (dst + (c.1 - src)) c.2) (tabClear m dst (dst + len))

/-- A command's first write to a bolt in state ONE: the current slot is copied whole into the pending slot, and the
state becomes TWO (R125). -/
def openPending (p b : Nat) (s : State) : State :=
  let v := s.ver p b
  if v.two then s
  else
    let cur := s.curSlot p b
    let s := modMem (fun m =>
      { m with bytes := copyBytes m.bytes (byteKey p cur (b * 65536)) (byteKey p (1 - cur) (b * 65536)) 65536 }) s
    let s := setBolt p (1 - cur) b {} s
    setVer p b { v with two := true } s

/-- Prepares one slot of a bolt for a write: placement, stamps and invalidation (R206, R211, R212, R219). A store of an
array's load/store engine triggers run-ahead as its reads do (R224). -/
def prepareSlot (a : Acc) (r : Region) (b sl : Nat) (s : State) : State :=
  let ra := a.agent == 1
  let k0 := s.bolt a.part sl b
  let s := touchBolt ra a.part sl b (demand a sl b r true s)
  let k := s.bolt a.part sl b
  let k1 := writtenBolt k (r.pinOf b)
  let k' := match r.pinOf b with
    | some t => if k1.has t then k1.withCopy t s.nowUs else k1
    | none => k1
  let s := setBolt a.part sl b k' s
  let s := if k.has .t2 && k'.has .t2 then ftlPlace a.part 0 sl b 0 (ftlFreeBolt a.part sl b s) else s
  if raTrigger ra r k0 then runAhead a.part b r s else s

/-- Prepares one bolt for a write. -/
def writePiece (a : Acc) (x : Nat × Nat) (s : State) : State :=
  match s.regionAt a.part x.1 with
  | none => s
  | some r =>
    let b := x.1 / 65536
    let cur := s.curSlot a.part b
    let s := if r.twoVer && a.cmd.isSome && s.touchesParam a.part x.1 x.2 then openPending a.part b s else s
    let slots := [0, 1].filter (fun sl =>
      if r.twoVer then (List.range x.2).any (fun i => s.writeSlot a (x.1 + i) == sl) else sl == 0)
    let order := if cur = 0 then slots else slots.reverse
    order.foldl (fun s sl => prepareSlot a r b sl s) s

/-- Stores one byte: discarded outside every region (R210), held while the bolt migrates (R207). -/
def storeByte (a : Acc) (dva : Nat) (v : Byte) (s : State) : State :=
  match s.regionAt a.part dva with
  | none => s
  | some _ =>
    let sl := s.writeSlot a dva
    if s.migrating a.part sl (dva / 65536) then
      modMem (fun m => { m with migrations := m.migrations.map (fun g =>
        if g.part = a.part ∧ g.slot = sl ∧ g.bolt = dva / 65536 then { g with held := g.held ++ [(dva, v)] } else g) }) s
    else modMem (fun m => { m with bytes := rawPut m.bytes (byteKey a.part sl dva) v }) s

/-- Stores bytes in ascending address. -/
def storeBytes (a : Acc) : Nat → List Byte → State → State
  | _, [], s => s
  | dva, v :: r, s => storeBytes a (dva + 1) r (storeByte a dva v s)

/-- The placements a write causes, then its bytes. -/
def memWrite (a : Acc) (dva : Nat) (data : List Byte) (s : State) : State :=
  storeBytes a dva data ((boltPieces dva data.length).foldl (fun s x => writePiece a x s) s)

/-! ### Accesses that wait (R206, R207, R242, R249) -/

/-- An access that a step makes: who, a write or a read, and the range. -/
structure Access where
  acc : Acc
  write : Bool
  dva : Nat
  len : Nat
  deriving DecidableEq, Repr

/-- An agent that triggers run-ahead by its reads: an array's load/store engine, or the vector unit, which reads memory
for vx.ld alone (R224). -/
def Acc.runsAhead (a : Acc) : Bool := a.agent == 1 || a.agent == 2

/-- Slots of the bolt of a piece that an access takes. -/
def Access.slots (s : State) (x : Access) (r : Region) (y : Nat × Nat) : List Nat :=
  [0, 1].filter (fun sl =>
    if r.twoVer then (List.range y.2).any (fun i =>
      (if x.write then s.writeSlot x.acc (y.1 + i) else s.readSlot x.acc (y.1 + i)) == sl)
    else sl == 0)

/-- A property of the bolt of a piece in every slot that an access takes. -/
def Access.all (s : State) (x : Access) (y : Nat × Nat) (f : Nat → Nat → Bool) : Bool :=
  match s.regionAt x.acc.part y.1 with
  | none => true
  | some r => (x.slots s r y).all (fun sl => f sl (y.1 / 65536))

/-- One piece of an access: its placements, and whether it could be made: the bolt within reach after them, and no write to
a bolt that migrates. -/
def touchPiece (x : Access) (acc : State × Bool) (y : Nat × Nat) : State × Bool :=
  let s := acc.1
  let t := if x.write then writePiece x.acc y s else readPiece x.acc x.acc.runsAhead y s
  (t, acc.2 && x.all s y (fun sl b => t.reaches x.acc sl b x.write && ! (x.write && s.migrating x.acc.part sl b)))

/-- The placements that accesses cause, and whether all could be made. -/
def touchAll (l : List Access) (s : State) : State × Bool :=
  l.foldl (fun acc x => (boltPieces x.dva x.len).foldl (touchPiece x) acc) (s, true)

/-- HOME records that a step has issued for switches made in it: those beyond the records there were, without a migration
in progress. -/
def homesIn (s t : State) : List (Nat × Nat × Nat) :=
  (t.nvt.journal.drop s.nvt.journal.length).filterMap (fun j =>
    match j with
    | .home p sl b => if t.migrating p sl b then none else some (p, sl, b)
    | _ => none)

/-- A step has programmed user pages on a channel whose writes wait (R242). -/
def wroteThrottled (s t : State) : Bool :=
  (List.range 16).any (fun ch => s.throttles ch && tabGet 0 t.nvt.userPages ch != tabGet 0 s.nvt.userPages ch)

/-- Some accesses cannot be made at this moment: a bolt is out of reach and its migration takes a HOME record or a wait for
a bolt in flight, a written bolt migrates, or flash takes no user write (R206, R207, R217, R242, R249). -/
def State.blocked (s : State) (l : List Access) : Bool :=
  let t := touchAll l s
  ! t.2 || ! (homesIn s t.1).isEmpty || wroteThrottled s t.1

/-- A migration begins (R207). A single-home bolt that leaves T2 waits for its HOME record, one that enters T2 for the
program of its new copy first (R249, R250). -/
def beginMigration (p sl b : Nat) (dst : Tier) (cmd : Option (Nat × BitVec 32)) (prot : Option Nat) (s : State) : State :=
  let s1 := modMem (fun m => { m with migrations := m.migrations ++
    [{ part := p, slot := sl, bolt := b, dst := dst, held := [], cmd := cmd, prot := prot }] }) s
  let single := ((s.regionAt p (b * 65536)).map (fun r => r.single)).getD false
  if ! single then s1
  else if dst = .t2 then modNvt (fun n => { n with work := n.work ++ [.homeCopy p sl b] }) s1
  else if (s.bolt p sl b).has .t2 then homeRecord p sl b s1
  else s1

/-- A migration that a step needs begins when its claim needs no HOME record of a victim. -/
def beginHome (t : State) (u : State) (x : Nat × Nat × Nat) : State :=
  match u.regionAt x.1 (x.2.2 * 65536), (t.bolt x.1 x.2.1 x.2.2).top with
  | some _, some .t2 => if u.migrating x.1 x.2.1 x.2.2 then u else beginMigration x.1 x.2.1 x.2.2 .t2 none none u
  | some r, some d =>
    if u.migrating x.1 x.2.1 x.2.2 then u
    else
      match allocateFor x.1 x.2.1 x.2.2 r d u with
      | some v => if (homesIn u v).isEmpty then beginMigration x.1 x.2.1 x.2.2 d none none v else u
      | none => u
  | _, _ => u

/-- The switches that need a HOME record begin as migrations, each to the tier that the placements tried in `t` gave its
bolt; victims leave first. -/
def beginHomes (s t : State) : State :=
  let l := homesIn s t
  let out := l.filter (fun x => (t.bolt x.1 x.2.1 x.2.2).top == some .t2)
  (if out.isEmpty then l else out).foldl (beginHome t) s

/-- A step that makes some accesses: it takes place when they can be made; else what it waits for begins. -/
def whenReached (l : List Access) (body : State → State) (s : State) : State :=
  if s.blocked l then beginHomes s (touchAll l s).1 else body s

/-- A step whose claims may evict: it takes place when no victim needs a HOME record and flash takes its writes; else what
it waits for begins (R217, R218, R242, R249). -/
def whenFree (body : State → State) (s : State) : State :=
  if (homesIn s (body s)).isEmpty && ! wroteThrottled s (body s) then body s else beginHomes s (body s)

/-- Makes a bolt a zero bolt: no copy, all-zero bytes (R198). -/
def zeroBolt (p slot b : Nat) (s : State) : State :=
  modMem (fun m => { m with bytes := tabClear m.bytes (byteKey p slot (b * 65536)) (byteKey p slot (b * 65536) + 65536) })
    (setBolt p slot b {} s)

/-- Bytes that an uncorrectable read returns in place of the stored ones (R228, R229, R239). -/
def overlay (p : Nat) (errs : List ReadError) (dva : Nat) (data : List Byte) : List Byte :=
  let pieces : List (Nat × List Byte) := errs.filterMap (fun e =>
    match e with
    | .t0Uncorrectable _ addr q stored => if q.val = p then some (addr.toNat, stored) else none
    | .t1Uncorrectable _ _ _ addr q stored => if q.val = p then some (addr.toNat, stored) else none
    | .flashUncorrectable _ _ _ addr q stored => if q.val = p then some (addr.toNat, stored) else none
    | _ => none)
  pieces.foldl (fun d x =>
    (d.zipIdx).map (fun y =>
      let at_ := dva + y.2
      if x.1 ≤ at_ ∧ at_ < x.1 + x.2.length then x.2.getD (at_ - x.1) y.1 else y.1)) data

end Sys2Proof.Machine
end

