-- ==== Sys2Proof/Machine/Event.lean ====
section
/-! DEFINITION. MSI-X messages (R364–R366) and event records with their delivery (R445–R451, R474). -/

namespace Sys2Proof.Machine

/-! ### Bytes the device writes to host memory -/

/-- Writes bytes to host memory, ascending. -/
def hostBytes : Nat → List Byte → Tab Byte → Tab Byte
  | _, [], t => t
  | a, b :: r, t => hostBytes (a + 1) r (tabPut 0#8 t a b)
/-- A posted write of the device to host memory, with its Relaxed Ordering attribute (R369). -/
def hostWriteRo (ro : Bool) (a : Nat) (data : List Byte) (s : State) : State :=
  modPci (fun p => { p with hostOut := hostBytes a data p.hostOut, hostRo := ro }) s
/-- A posted write without Relaxed Ordering. -/
def hostWrite (a : Nat) (data : List Byte) (s : State) : State := hostWriteRo false a data s
/-- The configuration space of a function. -/
def State.pciCfg (s : State) (fn : Nat) : PciCfg := tabGet {} s.pci.cfg fn

/-! ### MSI-X (R364–R366) -/

/-- Vectors of a function's table (R364). -/
def vectorCount (fn : Nat) : Nat := if fn = 0 then 2048 else 64
/-- Key of a vector. -/
def msixKey (fn vec : Nat) : Nat := fn * 2048 + vec
/-- An MSI-X table entry. -/
def State.msixEntry (s : State) (fn vec : Nat) : Msix := tabGet {} s.pci.msix (msixKey fn vec)
/-- Replaces a table entry. -/
def setMsix (fn vec : Nat) (m : Msix) (s : State) : State :=
  modPci (fun p => { p with msix := tabPut {} p.msix (msixKey fn vec) m }) s
/-- Sends the message of a vector: its data at its address (R365). -/
def sendMsix (fn vec : Nat) (s : State) : State :=
  let m := s.msixEntry fn vec
  setMsix fn vec { m with sentAt := some s.now, merged := false, pendingBit := false }
    (hostWrite m.addr.toNat (le 4 m.data.toNat) s)
/-- A vector sends no message: masked by its own bit, or by its function's configuration (R355, R365). -/
def vectorMasked (s : State) (fn vec : Nat) : Bool :=
  (s.msixEntry fn vec).masked || (s.pciCfg fn).functionMask || ! (s.pciCfg fn).msixEnable
/-- A request on a vector of the table: pending while masked (R365), merged within 1 µs of a message (R366). -/
def requestMsix (fn vec : Nat) (s : State) : State :=
  let m := s.msixEntry fn vec
  if vectorMasked s fn vec then setMsix fn vec { m with pendingBit := true } s
  else
    match m.sentAt with
    | some t => if s.now < t + 1000 then setMsix fn vec { m with merged := true } s else sendMsix fn vec s
    | none => sendMsix fn vec s

/-! ### Events -/

/-- An event to record: code, severity, the one partition it names, the partitions it is delivered to, its data. -/
structure EvReq where
  code : Nat
  sev : Nat
  part : Option Nat
  parts : List Nat
  data : List Byte
  deriving DecidableEq, Repr

/-- The first 32 bytes of a record, as a ring holds it (R449). -/
def eventRing (e : EventRec) : List Byte :=
  le 4 e.seq.toNat ++
  le 2 (((e.part.getD 0) % 8) * 32 + (if e.part.isSome then 256 else 0) + 6 * 512 + e.sev * 16384) ++
  le 2 e.code.toNat ++ (e.data ++ List.replicate 16 0#8).take 16 ++ le 8 e.time

/-- The 64 bytes of a record (R449). -/
def eventBytes (e : EventRec) : List Byte :=
  eventRing e ++ ((e.data.drop 16) ++ List.replicate 32 0#8).take 32

/-- A response ring. -/
def State.respRing (s : State) (p : Nat) : RespRing := tabGet {} s.tcs.resp p
/-- Replaces a response ring. -/
def setResp (p : Nat) (r : RespRing) (s : State) : State :=
  modTcs (fun t => { t with resp := tabPut {} t.resp p r }) s

/-- The ring writer's access (R206, R474). -/
def ringAcc (p : Nat) : Acc := { part := p, agent := 5, t0only := false, cmd := none, q := 0xFFFD, pos := 0 }

/-- Writes a 32-byte record into a partition's response ring (R193, R450): a full ring counts it in dropped. Answers
whether it was written, and the DVA that lay in no region. -/
def putResp (p : Nat) (rec : List Byte) (s : State) : State × Bool × Option Nat :=
  let r := s.respRing p
  let size := ringSize r.sizeCode
  if (r.wp + 1) % size = r.rp then (setResp p { r with dropped := satAdd 16 r.dropped 1 } s, false, none)
  else
    let a := r.base.toNat + 32 * r.wp
    (memWrite (ringAcc p) a rec (setResp p { r with wp := (r.wp + 1) % size } s), true, s.unmappedIn p a 32)

/-- Writes a record into the PF device ring (R451). -/
def putPfRing (rec : List Byte) (s : State) : State :=
  let size := ringSize s.evt.pfSize
  if s.evt.pfBase = 0 || (s.evt.pfWp + 1) % size = s.evt.pfRp then
    modEvt (fun e => { e with pfDropped := satAdd 16 e.pfDropped 1 }) s
  else
    requestMsix 0 0 (modEvt (fun e => { e with pfWp := (e.pfWp + 1) % size })
      (hostWrite (s.evt.pfBase.toNat + 32 * s.evt.pfWp) rec s))

/-- Codes of the halting events (R447). -/
def isHalting (code sev : Nat) : Bool :=
  code == 0x0106 || code == 0x0406 || (code == 0x0408 && sev == 2) || code == 0x0502
/-- Device-fatal events with stop (R448). -/
def isStop (code sev : Nat) : Bool :=
  sev == 3 && (code == 0x0408 || code == 0x080B || code == 0x0A04 || code == 0x0C04 || code == 0x0C05 ||
    code == 0x0C06 || code == 0x0D01)

/-- A corrected record may go to a log limited to one per code per second (R450). -/
def perSecond (t : Tab Nat) (code now : Nat) : Bool :=
  match tabGet 0 t code with
  | 0 => true
  | k + 1 => decide (k + 1000000000 ≤ now)

/-- Halt and fatal consequences of a record, acted on by PARTITION_HALT and DEVICE_FATAL_STOP within 10 µs. -/
def noteHalt (r : EvReq) (seq : BitVec 32) (s : State) : State :=
  let s :=
    match r.part with
    | some p =>
      if isHalting r.code r.sev then
        modEvt (fun e =>
          { e with
            haltDue := if e.haltDue.contains p then e.haltDue else e.haltDue ++ [p]
            haltSeq := if e.haltDue.contains p || e.halted.getLsbD p then e.haltSeq else tabPut 0 e.haltSeq p seq }) s
      else s
    | none => s
  let s := if r.sev = 3 then modEvt (fun e => { e with lastFatal := BitVec.ofNat 16 r.code, fatalHeld := true, roundDue := true }) s else s
  if isStop r.code r.sev then modEvt (fun e => { e with fatalDue := true }) s else s

/-- Appends a record to the NOR persistent ring of 16,384 records; a full ring first loses its oldest sector of 1,024
(R375, R392). -/
def toNor (rec_ : EventRec) (s : State) : State :=
  let keep := if s.wmc.nor.ring.length ≥ 16384 then s.wmc.nor.ring.take (16384 - 1024) else s.wmc.nor.ring
  let s := modWmc (fun w => { w with nor := { w.nor with ring := rec_ :: keep } }) s
  if rec_.sev = 1 then modEvt (fun e => { e with norStamp := tabPut 0 e.norStamp rec_.code.toNat (s.now + 1) }) s else s

/-- Sends a record to the PLDM event receiver (R390, R450). -/
def toPldm (rec_ : EventRec) (s : State) : State :=
  let s := modWmc (fun w => { w with pldmLast := some rec_ }) s
  if rec_.sev = 1 then modEvt (fun e => { e with pldmStamp := tabPut 0 e.pldmStamp rec_.code.toNat (s.now + 1) }) s else s

/-- Event 0x0401: an access met an address in no region (R210, R474). -/
def unmappedReq (a : Acc) (d : Nat) : EvReq where
  code := 0x0401
  sev := 2
  part := some a.part
  parts := [a.part]
  data := le 1 a.part ++ le 1 a.agent ++ le 7 (d % 2 ^ 52) ++ le 2 a.q ++ le 4 a.pos

/-- Records one event and delivers it (R449, R450): the new state and the events that the delivery caused. -/
def deliver (r : EvReq) (s : State) : State × List EvReq :=
  let seq := s.evt.seq
  let rec_ : EventRec :=
    { code := BitVec.ofNat 16 r.code, sev := r.sev, part := r.part, seq := seq, time := s.now, data := r.data }
  let s := modEvt (fun e => { e with seq := e.seq + 1, log := (rec_ :: e.log).take 4096 }) s
  let s := noteHalt r seq s
  let s := if r.sev ≥ 2 || perSecond s.evt.norStamp r.code s.now then toNor rec_ s else s
  let s :=
    if s.wmc.receiver.isSome && (r.sev ≥ 2 || perSecond s.evt.pldmStamp r.code s.now) then toPldm rec_ s else s
  let toPf := decide (s.evt.pfMinSev ≤ r.sev)
  let key := r.code * 16 + r.part.getD 8
  let limited :=
    r.sev = 1 &&
    (match tabGet 0 s.evt.hostStamp key with
      | 0 => false
      | k + 1 => decide (s.now < k + 1000000))
  if limited then
    ((if toPf || ! r.parts.isEmpty then modEvt (fun e => { e with suppressed := satAdd 20 e.suppressed 1 }) s else s), [])
  else
    let s := if r.sev = 1 then modEvt (fun e => { e with hostStamp := tabPut 0 e.hostStamp key (s.now + 1) }) s else s
    let res := r.parts.foldl
      (fun (acc : State × List EvReq) p =>
        let o := putResp p (eventRing rec_) acc.1
        let s1 := if o.2.1 then requestMsix (o.1.ownerFn p) 0 o.1 else o.1
        match o.2.2 with
        | none => (s1, acc.2)
        | some a =>
          (s1, acc.2 ++ [unmappedReq (ringAcc p) a])) (s, [])
    ((if toPf then putPfRing (eventRing rec_) res.1 else res.1), res.2)

/-- Records a batch and, after it, the events that its delivery caused (R450). The fuel bounds the records that all
response rings can take before they are full. -/
def deliverAll : Nat → List EvReq → State → State
  | 0, _, s => s
  | _, [], s => s
  | fuel + 1, r :: rest, s =>
    let o := deliver r s
    deliverAll fuel (rest ++ o.2) o.1

/-- Records an event that names one partition. -/
def eventP (code sev p : Nat) (data : List Byte) (s : State) : State :=
  deliverAll (2 ^ 20) [{ code := code, sev := sev, part := some p, parts := [p], data := data }] s
/-- Records an event of the device, naming no partition. -/
def eventD (code sev : Nat) (data : List Byte) (s : State) : State :=
  deliverAll (2 ^ 20) [{ code := code, sev := sev, part := none, parts := [], data := data }] s
/-- Records an event of a resource, naming the partition that owns it (R445, R450): none where nobody does. -/
def eventOn (code sev : Nat) (p : Option Nat) (data : List Byte) (s : State) : State :=
  match p with
  | some p => eventP code sev p data s
  | none => eventD code sev data s
/-- The partition that owns the logical array of a physical one. -/
def physOwner (s : State) (a : Nat) : Option Nat := (logicalOf s a).bind s.arrayOwner
/-- Records an event delivered to several partitions (R446). -/
def eventPs (code sev : Nat) (ps : List Nat) (data : List Byte) (s : State) : State :=
  deliverAll (2 ^ 20) [{ code := code, sev := sev, part := none, parts := ps, data := data }] s

/-- Records the events that one step records together: ascending code, then ascending partition, the device's first;
what their delivery causes follows them all (R450). -/
def eventBatch (l : List EvReq) (s : State) : State :=
  let key (r : EvReq) : Nat := r.code * 16 + (match r.part with | some p => p + 1 | none => 0)
  deliverAll (2 ^ 20) (sortBy (fun a b => decide (key a ≤ key b)) l) s

/-- Raises a source's vector; one not below the table size raises nothing and is recorded once as 0x0904 until the
source's vector field is written again (R365). -/
def raiseVector (fn vec source : Nat) (s : State) : State :=
  if vec < vectorCount fn then requestMsix fn vec s
  else if s.pci.badVec.contains source then s
  else eventD 0x0904 1 (le 1 fn ++ le 2 source ++ le 2 vec)
    (modPci (fun p => { p with badVec := p.badVec ++ [source] }) s)

/-- Raises the vector of a queue on its owning function. -/
def raiseQueue (q : Nat) (s : State) : State := raiseVector (s.ownerFn (partOfQ q)) (s.queue q).vector q s

/-- The record of an access that met unmapped addresses, if it did (R210). -/
def unmappedReqs (a : Acc) (um : Option Nat) : List EvReq :=
  match um with
  | none => []
  | some d => [unmappedReq a d]
/-- Event 0x0401 of an access that met unmapped addresses (R210). -/
def eventUnmapped (a : Acc) (um : Option Nat) (s : State) : State :=
  match um with
  | none => s
  | some d => deliverAll (2 ^ 20) [unmappedReq a d] s

/-- Events of the ECC errors that the reads of a step met (R41, R228, R229, R239), for the agent that read. An
uncorrectable error of a line that no bolt lies in names no partition (R230; notes/assumptions/79.md). -/
def eventError (agent : Nat) (e : ReadError) (s : State) : State :=
  match e with
  | .arrayCorrected a res row => eventOn 0x0105 1 (physOwner s a.val) (le 1 a.val ++ [res] ++ le 2 row.toNat) s
  | .arrayUncorrectable a res row =>
    eventOn 0x0106 2 (physOwner s a.val) (le 1 a.val ++ [res] ++ le 2 row.toNat ++ le 1 ((physOwner s a.val).getD 0)) s
  | .t0Corrected area addr p => eventP 0x0405 1 p.val ([area] ++ le 7 addr.toNat ++ le 1 p.val) s
  | .t0Uncorrectable area addr p _ => eventP 0x0406 2 p.val ([area] ++ le 7 addr.toNat ++ le 1 p.val) s
  | .t1Corrected ch bank row inl =>
    eventD 0x0407 1 (le 2 ch.val ++ le 2 bank.val ++ le 2 row.toNat ++ le 1 (if inl then 2 else 1)) s
  | .t1Uncorrectable ch bank row addr p _ =>
    eventP 0x0408 2 p.val
      (le 2 ch.val ++ le 2 bank.val ++ le 2 row.toNat ++ le 7 addr.toNat ++ le 1 p.val ++ le 1 agent) s
  | .gabUncorrectable param p _ => eventP 0x0406 2 p.val ([2#8] ++ le 7 param.toNat ++ le 1 p.val) s
  | .t1Unmapped ch bank row =>
    eventD 0x0408 2 (le 2 ch.val ++ le 2 bank.val ++ le 2 row.toNat ++ le 7 0 ++ le 1 0 ++ le 1 agent) s
  | .t1MapStore ch bank row =>
    modMem (fun m => { m with mapStoreErr := true })
      (eventD 0x0408 3 (le 2 ch.val ++ le 2 bank.val ++ le 2 row.toNat ++ le 7 0 ++ le 1 0 ++ le 1 agent) s)
  | .t1LinkTraining _ => s
  | .flashCorrected ch blk pg n => eventD 0x0501 1 (le 2 ch.val ++ le 2 blk.toNat ++ le 2 pg.toNat ++ le 2 n.toNat) s
  | .flashUncorrectable ch blk pg addr p _ =>
    eventP 0x0502 2 p.val (le 2 ch.val ++ le 2 blk.toNat ++ le 2 pg.toNat ++ le 1 p.val ++ le 7 addr.toNat) s

end Sys2Proof.Machine
end

