-- ==== Sys2Proof/Machine/Flags.lean ====
section
/-! DEFINITION. Flags and clamps: the flag byte of an output tile (R54), the term count (R83, R86), the counters of
accumulation (R92, R102), the vector flag byte (R157) and the clamp registers (R33–R35). -/

namespace Sys2Proof.Machine

/-- A flag byte: bit 0 overflow, bit 1 long-sum (R54). -/
def flagByte (ovf long : Bool) : Byte := BitVec.ofNat 8 ((if ovf then 1 else 0) + (if long then 2 else 0))

/-- The largest term count (R83). -/
def termMax : Nat := 1048577
/-- A term count raised by n. -/
def termAdd (t n : Nat) : Nat := min (t + n) termMax
/-- An operation raises a term count above 1,048,576 (R86). -/
def longSum (t t' : Nat) : Bool := decide (t ≤ 1048576) && decide (1048576 < t')

/-- Counts retries, saturations and long sums of a partition (R92, R102). -/
def countAcc (p retries sats longs : Nat) (s : State) : State :=
  modCnt (fun c => { c with acc := tabMod {} c.acc p (fun a =>
    { longSum := satAdd 20 a.longSum longs
      saturations := satAdd 20 a.saturations sats
      retries := satAdd 20 a.retries retries }) }) s

/-- One clamp counted in a register (R34). -/
def Clamp.hit (c : Clamp) (id : Nat) : Clamp := { lastId := id, count := satAdd 48 c.count 1 }
/-- Clamps of a partition's command or configuration, in ascending id (R34). -/
def clampPart (p : Nat) (ids : List Nat) (s : State) : State :=
  modCnt (fun c => { c with clamp := tabMod {} c.clamp p (fun r => ids.foldl Clamp.hit r) }) s
/-- Clamps of device or port configuration, or of a register write (R34). -/
def clampDevice (ids : List Nat) (s : State) : State :=
  modCnt (fun c => { c with clampDev := ids.foldl Clamp.hit c.clampDev }) s

/-- A field limited to a range, and whether it was clamped. -/
def clampRange (lo hi v : Nat) : Nat × Bool := if v < lo then (lo, true) else if hi < v then (hi, true) else (v, false)

/-- Sets bit 0 of the vector flag byte of a unit (R143, R157). -/
def vflagOverflow (l : Nat) (s : State) : State := modArr l (fun a => { a with vflag := a.vflag ||| 1#8 }) s

/-- An accumulator tile of an array. -/
def ArrayL.accTile (a : ArrayL) (sel : Nat) : AccTile := if sel = 0 then a.acc0 else a.acc1
/-- Replaces an accumulator tile of an array. -/
def ArrayL.setAcc (a : ArrayL) (sel : Nat) (t : AccTile) : ArrayL :=
  if sel = 0 then { a with acc0 := t } else { a with acc1 := t }

/-- Sets bit 0 of the flag byte of an accumulator tile (R143). -/
def accOverflow (l sel : Nat) (s : State) : State :=
  modArr l (fun a => a.setAcc sel { a.accTile sel with flag := (a.accTile sel).flag ||| 1#8 }) s

/-- An element of an accumulator tile; one left not defined is a free value (R59). -/
def AccTile.get (t : AccTile) (i j : Nat) : BitVec 32 :=
  match t.cells.find? (fun c => c.1 == i * 256 + j), t.base with
  | some c, _ => c.2
  | none, some k => Config.freeWord k (i * 256 + j)
  | none, none => 0
/-- Writes an element of an accumulator tile. Over contents that are not defined every written element is listed. -/
def AccTile.put (t : AccTile) (i j : Nat) (v : BitVec 32) : AccTile :=
  match t.base with
  | some _ => { t with cells := tabInsert (i * 256 + j) v (tabDel t.cells (i * 256 + j)) }
  | none => { t with cells := tabPut 0 t.cells (i * 256 + j) v }

/-- A byte of a tile register; content not defined is a free value (R59). -/
def TileReg.get (t : TileReg) (a : Nat) : Byte :=
  match t.cells.find? (fun c => c.1 == a % 65536), t.base with
  | some c, _ => c.2
  | none, some k => Config.freeByte k (a % 65536)
  | none, none => 0#8
/-- Writes a byte of a tile register; addresses wrap modulo 65,536 (R136). -/
def TileReg.put (t : TileReg) (a : Nat) (v : Byte) : TileReg :=
  match t.base with
  | some _ => { t with cells := tabInsert (a % 65536) v (tabDel t.cells (a % 65536)) }
  | none => { t with cells := tabPut 0#8 t.cells (a % 65536) v }

/-- A tile register of an array. -/
def ArrayL.tile (a : ArrayL) (r : Nat) : TileReg := tabGet {} a.tiles r
/-- Replaces a tile register of an array. -/
def ArrayL.setTile (a : ArrayL) (r : Nat) (t : TileReg) : ArrayL := { a with tiles := tabPut {} a.tiles r t }

/-- Leaves tile registers not defined: each becomes a fresh free content (R59; notes/assumptions/1.md). -/
def undefTiles (l : Nat) (rs : List Nat) (s : State) : State :=
  rs.foldl (fun s r => bumpFree 1 (modArr l (fun a => a.setTile r { base := some s.free, cells := [] }) s)) s
/-- Leaves accumulator tiles not defined, their flag bytes and term counts unchanged (R59). -/
def undefAccs (l : Nat) (sels : List Nat) (s : State) : State :=
  sels.foldl (fun s k =>
    bumpFree 1 (modArr l (fun a => a.setAcc k { a.accTile k with base := some s.free, cells := [] }) s)) s

/-! ### Stall blocks (R430, R431) -/

/-- Number of an engine's block: its offset in CNT above 0x0001_0000, in blocks of 0x80. -/
def stallKey : StallEngine → Nat
  | .matrix l => l.val
  | .vector l => 128 + l.val
  | .queue q => 256 + q.val
  | .collective p => 512 + p.val
  | .migration m => 520 + m.val
  | .dma d => 528 + d.val

/-- Clock of an engine in MHz (R430). -/
def stallMhz (k : Nat) : Nat := if k < 256 then 1920 else if k < 512 then 1600 else 600

/-- Causes an engine counts, by R13 precedence number, which is also their slot (R430). -/
def stallCauses (k : Nat) : List Nat :=
  if k < 128 then [1, 2, 5, 7, 8, 9, 10]
  else if k < 256 then [1, 2, 5, 7, 8, 9]
  else if k < 512 then [2, 3, 7]
  else if k < 520 then [4, 5, 6, 7]
  else if k < 528 then [6, 7]
  else [5, 6, 7]

/-- Live counts are kept in 1/1024 of a cycle: a clock step removes multiples of 1/32 of the nominal cycles, a recovery from
a stretch multiples of 1/32 of what is left (R416, R417). -/
def stallUnit : Nat := 1024

/-- A wait of an engine for a tier, in µs: so many of the cycles that are not settled yet count as tier_wait, where the engine
counts that cause (R13, R242, R431). -/
def noteTierWait (us : Nat) (s : State) (e : StallEngine) : State :=
  let k := stallKey e
  if ! (stallCauses k).contains 5 then s
  else
    modCnt (fun c => { c with stall := tabMod {} c.stall k (fun t =>
      let n := min t.unsettled (us * stallMhz k * stallUnit)
      { t with unsettled := t.unsettled - n, counts := tabMod 0 t.counts 5 (fun m => m + n) }) }) s

end Sys2Proof.Machine
end

