-- ==== Sys2Proof/Machine/Num.lean ====
section
/-! DEFINITION. Number formats, exact values, rounding and stochastic rounding (R15–R32, R79, R80, R87–R89, R95–R97).
An exact value is a sign, a natural mantissa and a power of two, so that every conversion rounds once (R27). -/

namespace Sys2Proof.Machine

/-- The eleven formats (R15). -/
inductive Fmt where
  | fp4 | fp6e2m3 | fp6e3m2 | e4m3 | e5m2 | int4 | int8 | bf16 | fp16 | fp32 | fa40
  deriving DecidableEq, Repr

/-- An exact value: NaN, an infinity, or (−1)^s × m × 2^e. -/
inductive FVal where
  | nan
  | inf (s : Bool)
  | fin (s : Bool) (m : Nat) (e : Int)
  deriving DecidableEq, Repr

/-- Width in bits (R15). -/
def Fmt.width : Fmt → Nat
  | .fp4 => 4
  | .fp6e2m3 => 6
  | .fp6e3m2 => 6
  | .e4m3 => 8
  | .e5m2 => 8
  | .int4 => 4
  | .int8 => 8
  | .bf16 => 16
  | .fp16 => 16
  | .fp32 => 32
  | .fa40 => 40

/-- Fraction bits (R15); 0 for the integers. -/
def Fmt.man : Fmt → Nat
  | .fp4 => 1
  | .fp6e2m3 => 3
  | .fp6e3m2 => 2
  | .e4m3 => 3
  | .e5m2 => 2
  | .int4 => 0
  | .int8 => 0
  | .bf16 => 7
  | .fp16 => 10
  | .fp32 => 23
  | .fa40 => 31

/-- Exponent bias (R15). -/
def Fmt.bias : Fmt → Nat
  | .fp4 => 1
  | .fp6e2m3 => 1
  | .fp6e3m2 => 3
  | .e4m3 => 7
  | .e5m2 => 15
  | .fp16 => 15
  | .int4 => 0
  | .int8 => 0
  | .bf16 => 127
  | .fp32 => 127
  | .fa40 => 127

/-- Integer formats. -/
def Fmt.isInt : Fmt → Bool
  | .int4 => true
  | .int8 => true
  | _ => false

/-- Formats of a block-scaled tensor (R18). -/
def Fmt.blocked : Fmt → Bool
  | .fp4 => true
  | .fp6e2m3 => true
  | .fp6e3m2 => true
  | .e4m3 => true
  | .e5m2 => true
  | .int4 => true
  | .int8 => true
  | .bf16 => false
  | .fp16 => false
  | .fp32 => false
  | .fa40 => false

/-- Formats with an infinity (R25). -/
def Fmt.hasInf : Fmt → Bool
  | .e5m2 => true
  | .bf16 => true
  | .fp16 => true
  | .fp32 => true
  | .fa40 => true
  | _ => false

/-- Exponent field width. -/
def Fmt.ebits (f : Fmt) : Nat := f.width - 1 - f.man

/-- Exponent of the smallest spacing: subnormals, or 1 for the integers. -/
def Fmt.qmin (f : Fmt) : Int := if f.isInt then 0 else 1 - (f.bias : Int) - (f.man : Int)

/-- Largest finite magnitude as a mantissa and an exponent of two (R15). -/
def Fmt.maxFin : Fmt → Nat × Int
  | .fp4 => (3, 1)
  | .fp6e2m3 => (15, -1)
  | .fp6e3m2 => (7, 2)
  | .e4m3 => (14, 5)
  | .e5m2 => (7, 13)
  | .int4 => (7, 0)
  | .int8 => (127, 0)
  | .bf16 => (255, 120)
  | .fp16 => (2047, 5)
  | .fp32 => (2 ^ 24 - 1, 104)
  | .fa40 => (2 ^ 32 - 1, 96)

/-- Element exponent offset emax (R20). -/
def Fmt.emax : Fmt → Nat
  | .fp4 => 2
  | .fp6e2m3 => 2
  | .fp6e3m2 => 4
  | .e4m3 => 8
  | .e5m2 => 15
  | .int4 => 2
  | .int8 => 6
  | _ => 0

/-- Positive zero. -/
def FVal.zero : FVal := .fin false 0 0

/-- Zero, of either sign. -/
def FVal.isZero : FVal → Bool
  | .fin _ m _ => m == 0
  | _ => false

/-- NaN. -/
def FVal.isNan : FVal → Bool
  | .nan => true
  | _ => false

/-- Finite values. -/
def FVal.isFin : FVal → Bool
  | .fin _ _ _ => true
  | _ => false

/-- A natural number as a value. -/
def FVal.ofNat (n : Nat) : FVal := .fin false n 0

/-- Change of sign. -/
def FVal.neg : FVal → FVal
  | .nan => .nan
  | .inf s => .inf (! s)
  | .fin s m e => .fin (! s) m e

/-- Magnitude. -/
def FVal.abs : FVal → FVal
  | .nan => .nan
  | .inf _ => .inf false
  | .fin _ m e => .fin false m e

/-- Exact multiplication by 2^k. -/
def FVal.scale2 (k : Int) : FVal → FVal
  | .nan => .nan
  | .inf s => .inf s
  | .fin s m e => .fin s m (e + k)

/-- Exact product; 0 × Inf is NaN (R24). -/
def FVal.mul : FVal → FVal → FVal
  | .nan, _ => .nan
  | _, .nan => .nan
  | .inf s, .inf t => .inf (s != t)
  | .inf s, .fin t m _ => if m = 0 then .nan else .inf (s != t)
  | .fin s m _, .inf t => if m = 0 then .nan else .inf (s != t)
  | .fin s m e, .fin t n f => .fin (s != t) (m * n) (e + f)

/-- Exact sum; opposite infinities give NaN, an exact zero from opposite signs is +0 (R24). -/
def FVal.add : FVal → FVal → FVal
  | .nan, _ => .nan
  | _, .nan => .nan
  | .inf s, .inf t => if s = t then .inf s else .nan
  | .inf s, .fin _ _ _ => .inf s
  | .fin _ _ _, .inf t => .inf t
  | .fin s m e, .fin t n f =>
    let q := min e f
    let a := m * 2 ^ (e - q).toNat
    let b := n * 2 ^ (f - q).toNat
    if s = t then .fin s (a + b) q
    else if b < a then .fin s (a - b) q
    else if a < b then .fin t (b - a) q
    else .fin false 0 q

/-- Exact difference. -/
def FVal.sub (x y : FVal) : FVal := x.add y.neg

/-- Bits of a quotient kept by `FVal.div` beyond the widest format, so that the last bit only says "inexact". -/
def divBits : Nat := 96

/-- A quotient to far more bits than any format holds, its last bit set when the division leaves a remainder: one
later rounding gives the correctly rounded quotient. -/
def FVal.div : FVal → FVal → FVal
  | .nan, _ => .nan
  | _, .nan => .nan
  | .inf _, .inf _ => .nan
  | .inf s, .fin t _ _ => .inf (s != t)
  | .fin s _ _, .inf t => .fin (s != t) 0 0
  | .fin s m e, .fin t n f =>
    if n = 0 then (if m = 0 then .nan else .inf (s != t))
    else
      let k := divBits + Nat.log2 n
      let a := m * 2 ^ k
      .fin (s != t) (2 * (a / n) + (if a % n = 0 then 0 else 1)) (e - f - k - 1)

/-- Strict order of two values that are no NaN; −0 equals +0. -/
def FVal.lt : FVal → FVal → Bool
  | .nan, _ => false
  | _, .nan => false
  | .inf s, .inf t => s && ! t
  | .inf s, .fin _ _ _ => s
  | .fin _ _ _, .inf t => ! t
  | .fin s m e, .fin t n f =>
    let q := min e f
    let a : Int := (m * 2 ^ (e - q).toNat : Nat)
    let b : Int := (n * 2 ^ (f - q).toNat : Nat)
    decide ((if s then -a else a) < (if t then -b else b))

/-- Equality of values that are no NaN. -/
def FVal.eqv (x y : FVal) : Bool := (! x.isNan) && (! y.isNan) && (! x.lt y) && (! y.lt x)

/-- How a conversion rounds (R28): to nearest even, or stochastically with the generator's word u. -/
inductive Rnd where
  | rne
  | sr (u : BitVec 32)
  deriving DecidableEq, Repr

/-- The integer an exact quotient m × 2^k rounds to: nearest even (R29), or stochastic (R30). -/
def roundMant (r : Rnd) (m : Nat) (k : Int) : Nat :=
  if 0 ≤ k then m * 2 ^ k.toNat
  else
    let sh := (-k).toNat
    let lo := m / 2 ^ sh
    let rem := m % 2 ^ sh
    match r with
    | .rne =>
      let half := 2 ^ (sh - 1)
      if half < rem then lo + 1 else if rem < half then lo else if lo % 2 = 1 then lo + 1 else lo
    | .sr u =>
      let d := rem * 2 ^ 24 / 2 ^ sh
      if 2 ^ 24 ≤ d + (u >>> 8).toNat then lo + 1 else lo

/-- Whether m × 2^e is above n × 2^f. -/
def magGt (m : Nat) (e : Int) (n : Nat) (f : Int) : Bool :=
  let q := min e f
  decide (n * 2 ^ (f - q).toNat < m * 2 ^ (e - q).toNat)

/-- Rounds once into a format: the rounded value, and whether a finite source went beyond the largest finite value
(R25, R28, R29). A value within half a spacing of the largest finite value, the tie included, rounds to it. -/
def roundTo (f : Fmt) (r : Rnd) : FVal → FVal × Bool
  | .nan => (.nan, false)
  | .inf s => if f.hasInf then (.inf s, false) else (.fin s f.maxFin.1 f.maxFin.2, false)
  | .fin s m e =>
    if m = 0 then (.fin s 0 0, false)
    else
      let q := if f.isInt then 0 else max ((Nat.log2 m : Int) + e - f.man) f.qmin
      let n := roundMant r m (e - q)
      let tieMax := r = .rne && ! magGt (2 * m) e (2 * f.maxFin.1 + 1) f.maxFin.2
      if magGt n q f.maxFin.1 f.maxFin.2 then (.fin s f.maxFin.1 f.maxFin.2, ! tieMax) else (.fin s n q, false)

/-- One rounding to FP32 (R79), with the overflow of R87. -/
def fl32 (v : FVal) : FVal × Bool := roundTo .fp32 .rne v

/-- One rounding to FA40 (R80). -/
def fl40 (v : FVal) : FVal × Bool := roundTo .fa40 .rne v

/-- The canonical NaN of a format (R23); FP4, FP6 and the integers have none and hold code 0 under scale 0xFF. -/
def Fmt.nanCode : Fmt → Nat
  | .e4m3 => 0x7F
  | .e5m2 => 0x7E
  | .bf16 => 0x7FC0
  | .fp16 => 0x7E00
  | .fp32 => 0x7FC00000
  | .fa40 => 0x7FC0000000
  | _ => 0

/-- The code of a representable value (R15, R17). -/
def encodeFmt (f : Fmt) : FVal → Nat
  | .nan => f.nanCode
  | .inf s => (if s then 2 ^ (f.width - 1) else 0) + (2 ^ f.ebits - 1) * 2 ^ f.man
  | .fin s m e =>
    if f.isInt then
      let n := if 0 ≤ e then m * 2 ^ e.toNat else m / 2 ^ (-e).toNat
      if s && n != 0 then 2 ^ f.width - n else n
    else
      let sg := if s then 2 ^ (f.width - 1) else 0
      if m = 0 then sg
      else
        let x := (Nat.log2 m : Int) + e
        let q := max (x - f.man) f.qmin
        let n := if 0 ≤ e - q then m * 2 ^ (e - q).toNat else m / 2 ^ (q - e).toNat
        if n < 2 ^ f.man then sg + n
        else sg + (x + f.bias).toNat * 2 ^ f.man + (n - 2 ^ f.man)

/-- The value of a code (R15, R16, R17). -/
def decodeFmt (f : Fmt) (c : Nat) : FVal :=
  if f.isInt then
    if c < 2 ^ (f.width - 1) then .fin false c 0 else .fin true (2 ^ f.width - c) 0
  else
    let s := c / 2 ^ (f.width - 1) % 2 == 1
    let x := c / 2 ^ f.man % 2 ^ f.ebits
    let fr := c % 2 ^ f.man
    if f = .e4m3 && x == 15 && fr == 7 then .nan
    else if f.hasInf && x == 2 ^ f.ebits - 1 then (if fr = 0 then .inf s else .nan)
    else if x = 0 then .fin s fr f.qmin
    else .fin s (2 ^ f.man + fr) ((x : Int) - f.bias - f.man)

/-- FP32 bits of a value, rounded to nearest even (R28). -/
def toFp32 (v : FVal) : BitVec 32 := BitVec.ofNat 32 (encodeFmt .fp32 (fl32 v).1)

/-- The value of FP32 bits. -/
def ofFp32 (b : BitVec 32) : FVal := decodeFmt .fp32 b.toNat

/-- FA40 bits of a value (R22). -/
def toFa40 (v : FVal) : BitVec 40 := BitVec.ofNat 40 (encodeFmt .fa40 (fl40 v).1)

/-- The value of FA40 bits. -/
def ofFa40 (b : BitVec 40) : FVal := decodeFmt .fa40 b.toNat

/-- The value of an element under its block scale (R18). -/
def blockValue (f : Fmt) (scale : Byte) (c : Nat) : FVal :=
  if scale = 0xFF#8 then .nan else (decodeFmt f c).scale2 ((scale.toNat : Int) - 127)

/-- Exponent of the leading bit of a finite nonzero value, or none. -/
def FVal.exponent : FVal → Option Int
  | .fin _ m e => if m = 0 then none else some ((Nat.log2 m : Int) + e)
  | _ => none

/-- The derived scale of a block (R20), and whether it was limited at 254. -/
def deriveScale (f : Fmt) (vs : List FVal) : Byte × Bool :=
  if vs.any FVal.isNan then (0xFF#8, false)
  else
    match (vs.filterMap FVal.exponent).max? with
    | none => (0x7F#8, false)
    | some x =>
      let X := x - f.emax + 127
      (BitVec.ofNat 8 (min X.toNat 254), decide (254 < X))

/-- One element of a block under a scale (R20, R21): its code, and whether a finite quotient exceeded the element's
largest finite value. -/
def encodeElem (f : Fmt) (scale : Byte) (r : Rnd) (v : FVal) : Nat × Bool :=
  if scale = 0xFF#8 then (0, false)
  else
    let p := roundTo f r (v.scale2 (127 - (scale.toNat : Int)))
    (encodeFmt f p.1, p.2)

/-- The stochastic-rounding generator (R32). -/
def srRound (key c : BitVec 32) (st : BitVec 32 × BitVec 32 × BitVec 32 × BitVec 32) :
    BitVec 32 × BitVec 32 × BitVec 32 × BitVec 32 :=
  let a := st.1 + st.2.1 + (c ^^^ key)
  let d := (st.2.2.2 ^^^ a).rotateLeft 16
  let c2 := st.2.2.1 + d
  let b := (st.2.1 ^^^ c2).rotateLeft 12
  (a, b, c2, d)

/-- The word u for one element (R31, R32). -/
def srWord (seed : BitVec 64) (step tensor : BitVec 32) (index : BitVec 48) : BitVec 32 :=
  let k0 := seed.extractLsb' 0 32
  let k1 := seed.extractLsb' 32 32
  let s0 : BitVec 32 × BitVec 32 × BitVec 32 × BitVec 32 :=
    (index.extractLsb' 0 32, step.extractLsb' 0 16 ++ index.extractLsb' 32 16,
      tensor.extractLsb' 0 16 ++ step.extractLsb' 16 16, (0#16) ++ tensor.extractLsb' 16 16)
  let s1 := srRound k0 0x9E3779B9#32 s0
  let s2 := srRound k1 0x3C6EF372#32 s1
  let s3 := srRound k0 0xDAA66D2B#32 s2
  let s4 := srRound k1 0x78DDE6E4#32 s3
  s4.1 ^^^ s4.2.2.1

/-! ### Chains, segments and retries (R79, R80, R87–R89) -/

/-- A running sum with the overflow seen so far (R87). -/
structure Run where
  v : FVal
  ovf : Bool
  deriving DecidableEq, Repr

/-- One rounded addition in a format; a rounding that overflows gives the largest finite value and is marked. -/
def Run.step (f : Fmt) (r : Run) (x : FVal) : Run :=
  let p := roundTo f .rne (r.v.add x)
  { v := p.1, ovf := r.ovf || p.2 }

/-- A chain of R79 from its optional starting value. -/
def chain (start : Option FVal) (ps : List FVal) : Run :=
  match start, ps with
  | some c, ps => ps.foldl (Run.step .fp32) { v := c, ovf := false }
  | none, [] => { v := FVal.zero, ovf := false }
  | none, p :: rest =>
    let q := fl32 p
    rest.foldl (Run.step .fp32) { v := q.1, ovf := q.2 }

/-- Cuts a list into pieces of n (fuel: the list's length). -/
def chunksOf {α : Type} (n : Nat) : Nat → List α → List (List α)
  | 0, _ => []
  | _, [] => []
  | k + 1, l => l.take n :: chunksOf n k (l.drop n)

/-- Chains of 4,096 terms added in FA40, one after another (R80). -/
def segments (start : Option FVal) (ps : List FVal) : Run :=
  match chunksOf 4096 ps.length ps with
  | [] => chain start []
  | s1 :: rest =>
    rest.foldl
      (fun acc seg => let c := chain none seg; let r := Run.step .fa40 acc c.v; { r with ovf := r.ovf || c.ovf })
      (chain start s1)

/-- One attempt at the working offset w (R88): the products, and Cin rounded once when it falls below the normal
range, scaled by 2^w. -/
def attempt (w : Int) (start : Option FVal) (ps : List FVal) : Run :=
  segments (start.map (fun c => (fl32 (c.scale2 w)).1)) (ps.map (FVal.scale2 w))

/-- The offset of the attempt a tile ends with, given which attempts overflow in some element (R88). -/
def tileOffset (o0 o1 : Bool) : Int := if o0 then (if o1 then -8 else -4) else 0

/-! ### Sums of squares, mean and variance (R94–R97) -/

/-- State of the recurrence of R95, with the overflow that R143 records. -/
structure MvState where
  k : Nat
  mu : FVal
  m2 : FVal
  ovf : Bool
  deriving DecidableEq, Repr

/-- The empty chunk. -/
def MvState.zero : MvState := { k := 0, mu := FVal.zero, m2 := FVal.zero, ovf := false }

/-- One element (R95). -/
def MvState.push (s : MvState) (x : FVal) : MvState :=
  let k := s.k + 1
  let d := fl32 (x.sub s.mu)
  let q := fl32 (d.1.div (FVal.ofNat k))
  let mu := fl32 (s.mu.add q.1)
  let t := fl32 (x.sub mu.1)
  let m2 := fl32 (s.m2.add (d.1.mul t.1))
  { k := k, mu := mu.1, m2 := m2.1, ovf := s.ovf || d.2 || q.2 || mu.2 || t.2 || m2.2 }

/-- Merge of two chunk states (R96). -/
def MvState.merge (a b : MvState) : MvState :=
  let n := a.k + b.k
  let delta := fl40 (b.mu.sub a.mu)
  let mu := fl40 (a.mu.add (delta.1.mul (fl40 ((FVal.ofNat b.k).div (FVal.ofNat n))).1))
  let sq := fl40 (delta.1.mul delta.1)
  let sm := fl40 (a.m2.add b.m2)
  let m2 := fl40 (sm.1.add (sq.1.mul (fl40 ((FVal.ofNat (a.k * b.k)).div (FVal.ofNat n))).1))
  { k := n, mu := mu.1, m2 := m2.1, ovf := a.ovf || b.ovf || delta.2 || mu.2 || sq.2 || sm.2 || m2.2 }

/-- Mean, variance and overflow of a sequence (R95–R97, R143), before the conversion into the destination. -/
def meanVar (sample : Bool) (xs : List FVal) : FVal × FVal × Bool :=
  if xs.any (fun x => ! x.isFin) then (.nan, .nan, false)
  else
    match chunksOf 4096 xs.length xs with
    | [] => (FVal.zero, FVal.zero, false)
    | c1 :: rest =>
      let st := rest.foldl (fun a c => a.merge (c.foldl MvState.push MvState.zero)) (c1.foldl MvState.push MvState.zero)
      let n := st.k
      if sample && n == 1 then (st.mu, FVal.zero, st.ovf)
      else
        let v := fl40 (st.m2.div (FVal.ofNat (if sample then n - 1 else n)))
        (st.mu, v.1, st.ovf || v.2)

/-- A pairwise sum of 64 lanes (R159): absent lanes pass their neighbour unchanged. -/
def pairwise : Nat → List (Option FVal) → FVal × Bool
  | 0, l =>
    match l with
    | some x :: _ => (x, false)
    | _ => (FVal.zero, false)
  | fuel + 1, l =>
    if l.length ≤ 1 then pairwise 0 l
    else
      let next : List (Option FVal × Bool) := (List.range ((l.length + 1) / 2)).map (fun k =>
        match l.getD (2 * k) none, l.getD (2 * k + 1) none with
        | some a, some b => let r := fl32 (a.add b); (some r.1, r.2)
        | some a, none => (some a, false)
        | none, o => (o, false))
      let r := pairwise fuel (next.map Prod.fst)
      (r.1, r.2 || next.any Prod.snd)

/-- Mean, variance and overflow of the SKG2's two-pass order (R159), with the special cases of R97. -/
def twoPass (sample : Bool) (xs : List (Option FVal)) : FVal × FVal × Bool :=
  let vs := xs.filterMap id
  let n := vs.length
  if vs.any (fun x => ! x.isFin) then (.nan, .nan, false)
  else if n = 0 then (FVal.zero, FVal.zero, false)
  else
    let s := pairwise 7 xs
    let mean := fl32 (s.1.div (FVal.ofNat n))
    let dev : List (Option (FVal × Bool)) := xs.map (fun o => o.map (fun x =>
      let d := fl32 (x.sub mean.1)
      let q := fl32 (d.1.mul d.1)
      (q.1, d.2 || q.2)))
    let m2 := pairwise 7 (dev.map (fun o => o.map Prod.fst))
    let ov := s.2 || mean.2 || m2.2 || dev.any (fun o => (o.map Prod.snd).getD false)
    if sample && n == 1 then (mean.1, FVal.zero, ov)
    else let v := fl32 (m2.1.div (FVal.ofNat (if sample then n - 1 else n))); (mean.1, v.1, ov || v.2)

end Sys2Proof.Machine
end

