-- ==== Sys2Proof/Machine/Operands.lean ====
section
/-! DEFINITION. Operand forms: the fields of each command class (R55, R120, R139, R174, R177, R178, R201, R243, R307),
tensor descriptors (R44–R46) and the places of tensor and vector elements (R19, R136). -/

namespace Sys2Proof.Machine

/-- The format of a code (R45). -/
def fmtOf : Nat → Option Fmt
  | 0 => some .fp4
  | 1 => some .fp6e2m3
  | 2 => some .fp6e3m2
  | 3 => some .e4m3
  | 4 => some .e5m2
  | 5 => some .int4
  | 6 => some .int8
  | 7 => some .bf16
  | 8 => some .fp16
  | 9 => some .fp32
  | 10 => some .fa40
  | _ => none

/-! ### Command fields -/

/-- Fields of a matrix command (R55). -/
structure MxCmd where
  op : Nat
  tensor : BitVec 32
  origin : Nat
  descCin : Nat
  descC : Nat
  descB : Nat
  descA : Nat
  outScale : Nat
  scaleMode : Bool
  k : Nat
  n : Nat
  m : Nat
  accSel : Nat
  dst : Nat
  rnd : Nat
  tb : Bool
  ta : Bool
  dflow : Nat
  array : Nat
  deriving DecidableEq, Repr

/-- Decodes a matrix command (R55). -/
def mxFields (c : CmdWord) : MxCmd where
  op := opcodeOf c
  tensor := c.extractLsb' 216 32
  origin := fld c 168 48
  descCin := fld c 152 16
  descC := fld c 136 16
  descB := fld c 120 16
  descA := fld c 104 16
  outScale := fld c 92 8
  scaleMode := fld c 91 1 == 1
  k := fld c 74 17
  n := fld c 61 13
  m := fld c 48 13
  accSel := fld c 47 1
  dst := fld c 45 2
  rnd := fld c 43 2
  tb := fld c 42 1 == 1
  ta := fld c 41 1 == 1
  dflow := fld c 39 2
  array := fld c 32 7

/-- Fields of a vector instruction (R139). -/
structure VxCmd where
  op : Nat
  fn : Nat
  bcastC : Bool
  tensor : BitVec 32
  origin : Nat
  stride : Nat
  fmtB : Nat
  fmtA : Nat
  fmtD : Nat
  mask : Nat
  srcc : Nat
  srcb : Nat
  srca : Nat
  dst : Nat
  nr : Nat
  bcastB : Bool
  rnd : Nat
  zeroMasked : Bool
  maskEn : Bool
  vl : Nat
  vlSrc : Bool
  array : Nat
  dva : Nat
  deriving DecidableEq, Repr

/-- Decodes a vector instruction (R139). -/
def vxFields (c : CmdWord) : VxCmd where
  op := opcodeOf c
  fn := fld c 40 6
  bcastC := fld c 254 1 == 1
  tensor := c.extractLsb' 222 32
  origin := fld c 174 48
  stride := fld c 150 24
  fmtB := fld c 146 4
  fmtA := fld c 142 4
  fmtD := fld c 138 4
  mask := fld c 124 14
  srcc := fld c 110 14
  srcb := fld c 96 14
  srca := fld c 82 14
  dst := fld c 68 14
  nr := fld c 60 8 + 1
  bcastB := fld c 59 1 == 1
  rnd := fld c 57 2
  zeroMasked := fld c 56 1 == 1
  maskEn := fld c 55 1 == 1
  vl := fld c 46 9
  vlSrc := fld c 39 1 == 1
  array := fld c 32 7
  dva := fld c 174 52

/-- Fields of a tier-transfer command (R201, R243). -/
structure TxCmd where
  op : Nat
  attr : Nat
  dst : Nat
  src : Nat
  len : Nat
  dva : Nat
  tag : Nat
  slot : Nat
  deriving DecidableEq, Repr

/-- Decodes a tier-transfer or checkpoint command (R201, R243). -/
def txFields (c : CmdWord) : TxCmd where
  op := opcodeOf c
  attr := fld c 136 12
  dst := fld c 134 2
  src := fld c 132 2
  len := fld c 84 48
  dva := fld c 32 52
  tag := fld c 152 16
  slot := fld c 136 4

/-- Fields of tx.gflush and tx.gzero (R120). -/
structure GbCmd where
  tensor : BitVec 32
  origin : Nat
  expect : Nat
  descD : Nat
  param : Nat
  expAdj : Int
  zeroAfter : Bool
  norm : Bool
  rnd : Nat
  deriving DecidableEq, Repr

/-- Decodes tx.gflush; bit 47 is `all` of tx.gzero (R120). -/
def gbFields (c : CmdWord) : GbCmd where
  tensor := c.extractLsb' 216 32
  origin := fld c 168 48
  expect := fld c 152 16
  descD := fld c 136 16
  param := fld c 120 16
  expAdj := (c.extractLsb' 112 8).toInt
  zeroAfter := fld c 47 1 == 1
  norm := fld c 45 1 == 1
  rnd := fld c 43 2

/-- A tier code (R201); none for 0b11. -/
def tierOf : Nat → Option Tier
  | 0 => some .t0
  | 1 => some .t1
  | 2 => some .t2
  | _ => none

/-! ### Tensor descriptors (R44) -/

/-- A descriptor from its 64 bytes; a code without a format keeps 0xB–0xF in `fmt`. -/
def descOf (n : Nat) : Desc where
  base := n % 2 ^ 52
  fmt := n / 2 ^ 52 % 16
  blockAxis := n / 2 ^ 56 % 2 == 1
  rows := n / 2 ^ 64 % 2 ^ 32
  cols := n / 2 ^ 96 % 2 ^ 32
  rowStride := n / 2 ^ 128 % 2 ^ 48
  scaleBase := n / 2 ^ 192 % 2 ^ 52
  scaleStride := n / 2 ^ 256 % 2 ^ 48
  flagBase := n / 2 ^ 320 % 2 ^ 52
  idxPitch := n / 2 ^ 372 % 2 ^ 48

/-- A control core's access for a command (R206, agent 4). -/
def coreAcc (f : Inflight) : Acc :=
  { part := partOfQ f.q, agent := 4, t0only := false, cmd := some (f.step.toNat, f.update), q := f.q, pos := f.pos.toNat }
/-- An array's load/store access for a matrix command (agent 1), or a vector unit's (agent 2). -/
def arrayAcc (f : Inflight) (agent : Nat) : Acc :=
  { part := partOfQ f.q, agent := agent, t0only := true, cmd := some (f.step.toNat, f.update), q := f.q, pos := f.pos.toNat }

/-- DVA of a descriptor. -/
def State.descDva (s : State) (p i : Nat) : Nat := (s.part p).descBase + 64 * i
/-- A descriptor of the partition's table, none at or beyond its entry count. -/
def State.desc (s : State) (a : Acc) (i : Nat) : Option Desc :=
  if i < (s.part a.part).descCount then some (descOf (unle (s.readBytes a (s.descDva a.part i) 64))) else none

/-- The format of a descriptor. -/
def Desc.format (d : Desc) : Option Fmt := fmtOf d.fmt
/-- The place of element j of a row: byte offset, bit within it, and bytes to read (R19). -/
def elemPlace (w j : Nat) : Nat × Nat × Nat := (w * j / 8, w * j % 8, (w * j % 8 + w + 7) / 8)
/-- The code of element j of a row that starts at an address of a byte source. -/
def codeAt (rd : Nat → Byte) (w start j : Nat) : Nat :=
  let pl := elemPlace w j
  unle ((List.range pl.2.2).map (fun i => rd (start + pl.1 + i))) / 2 ^ pl.2.1 % 2 ^ w
/-- DVA of the scale of element (i, j) (R44). -/
def Desc.scaleDva (d : Desc) (i j : Nat) : Nat :=
  if d.blockAxis then d.scaleBase + (i / 32) * d.scaleStride + j else d.scaleBase + i * d.scaleStride + j / 32
/-- The exact value of element (i, j) (R18, R27). -/
def Desc.value (d : Desc) (f : Fmt) (rd : Nat → Byte) (i j : Nat) : FVal :=
  let c := codeAt rd f.width (d.base + i * d.rowStride) j
  if f.blocked then blockValue f (rd (d.scaleDva i j)) c else decodeFmt f c
/-- Bytes of n elements of a row. -/
def rowBytes (w n : Nat) : Nat := (w * n + 7) / 8

/-- The byte ranges of the leading rows × cols of a tensor that a read touches: elements, then scales. -/
def Desc.ranges (d : Desc) (f : Fmt) (rows cols : Nat) : List (Nat × Nat) :=
  (List.range rows).map (fun i => (d.base + i * d.rowStride, rowBytes f.width cols)) ++
  (if f.blocked then
    (if d.blockAxis then (List.range (ceilDiv rows 32)).map (fun i => (d.scaleBase + i * d.scaleStride, cols))
     else (List.range rows).map (fun i => (d.scaleBase + i * d.scaleStride, ceilDiv cols 32)))
   else [])

/-- Codes packed little-endian (R19). -/
def packCodes (w : Nat) : List Nat → Nat
  | [] => 0
  | c :: r => c + 2 ^ w * packCodes w r

/-- The bytes of a row of codes; the bits of the last byte beyond the row keep those of `rd`. -/
def rowData (rd : Nat → Byte) (w start : Nat) (codes : List Nat) : List Byte :=
  let bits := w * codes.length
  let nb := (bits + 7) / 8
  let v := packCodes w codes
  let keep := if bits % 8 = 0 then 0 else (rd (start + nb - 1)).toNat / 2 ^ (bits % 8) * 2 ^ (bits % 8)
  le nb (v + keep * 2 ^ (8 * (nb - 1)))

/-- How a destination rounds (R28, R31): the clamped mode, seed, step, tensor and index origin. -/
abbrev RndCtx := Rounding

/-- The rounding of the element with an index (R31). -/
def RndCtx.at_ (r : RndCtx) (idx : Nat) : Rnd :=
  if r.sr then .sr (srWord r.seed r.step r.tensor (BitVec.ofNat 48 (r.origin + idx))) else .rne

/-- A tensor converted into a destination format (R20, R21, R27, R28): codes by row and column, scales by block row and
column, and which elements saturated with a flag (R26, R89). `explicit` is out_scale when scale_mode is 1. -/
structure Converted where
  codes : List (List Nat)
  scales : List (List Byte)
  ovf : List (List Bool)
  deriving DecidableEq, Repr

/-- The scale of a block of values, and whether it was derived and limited at 254 (R20, R89). -/
def blockScale (f : Fmt) (explicit : Option Nat) (vs : List FVal) : Byte × Bool :=
  match explicit with
  | none => deriveScale f vs
  | some x => if vs.any FVal.isNan then (0xFF#8, false) else (BitVec.ofNat 8 x, false)

/-- Converts rows of values; `pitch` gives the element index of R31. -/
def convertRows (f : Fmt) (axis : Bool) (explicit : Option Nat) (r : RndCtx) (pitch : Nat) (rows : List (List FVal)) :
    Converted :=
  if f.blocked then
    let nr := rows.length
    let nc := (rows.headD []).length
    let at2 (i j : Nat) : FVal := (rows.getD i []).getD j FVal.zero
    let sc : List (List (Byte × Bool)) :=
      if axis then
        (List.range (ceilDiv nr 32)).map (fun bi => (List.range nc).map (fun j =>
          blockScale f explicit ((List.range (min 32 (nr - 32 * bi))).map (fun t => at2 (32 * bi + t) j))))
      else
        (List.range nr).map (fun i => (List.range (ceilDiv nc 32)).map (fun bj =>
          blockScale f explicit ((List.range (min 32 (nc - 32 * bj))).map (fun t => at2 i (32 * bj + t)))))
    let scAt (i j : Nat) : Byte × Bool :=
      if axis then (sc.getD (i / 32) []).getD j (0x7F#8, false) else (sc.getD i []).getD (j / 32) (0x7F#8, false)
    let el : List (List (Nat × Bool)) := (List.range nr).map (fun i => (List.range nc).map (fun j =>
      let b := scAt i j
      let e := encodeElem f b.1 (r.at_ (i * pitch + j)) (at2 i j)
      (e.1, e.2 && b.2)))
    { codes := el.map (List.map Prod.fst)
      scales := sc.map (List.map Prod.fst)
      ovf := el.map (List.map Prod.snd) }
  else
    let el : List (List (Nat × Bool)) := (rows.zipIdx).map (fun ri => (ri.1.zipIdx).map (fun vj =>
      let rd := if f = .fp32 || f = .fa40 then Rnd.rne else r.at_ (ri.2 * pitch + vj.2)
      let o := roundTo f rd vj.1
      (encodeFmt f o.1, o.2)))
    { codes := el.map (List.map Prod.fst)
      scales := []
      ovf := el.map (List.map Prod.snd) }

/-! ### Vector operands (R136) -/

/-- A vector operand: register, row and offset. -/
structure VOp where
  reg : Nat
  row : Nat
  off : Nat
  deriving DecidableEq, Repr

/-- Decodes a 14-bit vector operand (R136). -/
def vop (n : Nat) : VOp := { reg := n / 2 ^ 11 % 8, row := n / 8 % 256, off := n % 8 }
/-- A tile register, t0–t5. -/
def VOp.isTile (o : VOp) : Bool := decide (o.reg < 6)
/-- Byte of a tile register at which vector j of data in a format starts (R136). -/
def VOp.start (o : VOp) (f : Fmt) (j : Nat) : Nat := 256 * o.row + 32 * o.off + 32 * f.width * j
/-- Byte at which mask vector j starts. -/
def VOp.maskStart (o : VOp) (j : Nat) : Nat := 256 * o.row + 32 * o.off + 32 * j
/-- Byte at which index vector j starts. -/
def VOp.idxStart (o : VOp) (j : Nat) : Nat := 256 * o.row + 32 * o.off + 256 * j
/-- Byte at which scale vector j starts. -/
def VOp.scaleStart (o : VOp) (j : Nat) : Nat := 256 * o.row + 32 * o.off + 16 * j

/-- The code of lane i of vector j of an operand. -/
def vcode (a : ArrayL) (o : VOp) (f : Fmt) (j i : Nat) : Nat :=
  if o.isTile then codeAt (fun x => (a.tile o.reg).get x) f.width (o.start f j) i
  else ((a.accTile (o.reg - 6)).get ((o.row + j) % 256) i).toNat

/-- Replaces bits [lo, lo + w) of a byte source's number. -/
def putBits (old lo w v : Nat) : Nat := old % 2 ^ lo + v % 2 ^ w * 2 ^ lo + old / 2 ^ (lo + w) * 2 ^ (lo + w)

/-- Writes a code into a tile register. -/
def tilePutCode (t : TileReg) (w start j c : Nat) : TileReg :=
  let pl := elemPlace w j
  let old := unle ((List.range pl.2.2).map (fun i => t.get (start + pl.1 + i)))
  let new := le pl.2.2 (putBits old pl.2.1 w c)
  (new.zipIdx).foldl (fun t b => t.put (start + pl.1 + b.2) b.1) t

/-- Writes the code of lane i of vector j of an operand. -/
def vput (o : VOp) (f : Fmt) (j i c : Nat) (a : ArrayL) : ArrayL :=
  if o.isTile then a.setTile o.reg (tilePutCode (a.tile o.reg) f.width (o.start f j) i c)
  else a.setAcc (o.reg - 6) ((a.accTile (o.reg - 6)).put ((o.row + j) % 256) i (BitVec.ofNat 32 c))

/-- Bit i of mask vector j. -/
def maskBit (a : ArrayL) (o : VOp) (j i : Nat) : Bool := codeAt (fun x => (a.tile o.reg).get x) 1 (o.maskStart j) i == 1
/-- Writes bit i of mask vector j. -/
def putMaskBit (o : VOp) (j i : Nat) (b : Bool) (a : ArrayL) : ArrayL :=
  a.setTile o.reg (tilePutCode (a.tile o.reg) 1 (o.maskStart j) i (if b then 1 else 0))

end Sys2Proof.Machine
end

