-- ==== Sys2Proof/Machine/Norm.lean ====
section
/-! DEFINITION. Norm telemetry (R130–R133): partials of squares, the terms that an update envelope's writes form, and
the write operation of commands, which is a memory write with those terms. -/

namespace Sys2Proof.Machine

/-- A term enters a partial: FP32 chains of 4,096 terms, added in FA40 (R131, R94). -/
def Partial.push (x : Partial) (v : FVal) : Partial :=
  let sq := v.mul v
  let c := if x.open_ = 0 then fl32 sq else fl32 ((ofFp32 x.chain).add sq)
  let t := termAdd x.terms 1
  if x.open_ + 1 < 4096 then
    { x with chain := BitVec.ofNat 32 (encodeFmt .fp32 c.1), open_ := x.open_ + 1, terms := t, ovf := x.ovf || c.2 }
  else
    let g := if x.terms < 4096 then fl40 c.1 else fl40 ((ofFa40 x.seg).add c.1)
    { seg := BitVec.ofNat 40 (encodeFmt .fa40 g.1), chain := 0, open_ := 0, terms := t, ovf := x.ovf || c.2 || g.2 }

/-- The FA40 sum of a partial, with its open chain closed (R80), and whether a rounding overflowed. -/
def Partial.value (x : Partial) : FVal × Bool :=
  if x.open_ = 0 then (ofFa40 x.seg, x.ovf)
  else if x.terms < 4096 then (ofFp32 x.chain, x.ovf)
  else let g := fl40 ((ofFa40 x.seg).add (ofFp32 x.chain)); (g.1, x.ovf || g.2)

/-- The elements (row, column) of a weight tensor whose bytes meet a written range, ascending (R130). -/
def Desc.elementsIn (d : Desc) (f : Fmt) (dva len : Nat) : List (Nat × Nat) :=
  let w := f.width
  let rb := rowBytes w d.cols
  let st := max d.rowStride 1
  let back := rb / st + 1
  let lo := (dva - d.base) / st - back
  let n := min d.rows ((dva + len - d.base) / st + 1) - lo
  ((List.range n).map (fun t =>
    let i := lo + t
    let r0 := d.base + i * d.rowStride
    let a := max dva r0
    let b := min (dva + len) (r0 + rb)
    if a < b then
      let j0 := (a - r0) * 8 / w
      let j1 := min (d.cols - 1) (((b - r0) * 8 - 1) / w)
      (List.range (j1 + 1 - j0)).map (fun k => (i, j0 + k))
    else [])).flatten

/-- Updates the norm partials that an entry keeps for a bolt of its parameter region. -/
def pushBolt (p param b : Nat) (w : FVal) (u : Option FVal) (s : State) : State :=
  modGab (fun g => { g with maps := tabMod [] g.maps p (fun l => l.map (fun e =>
    if e.param = param then
      { e with
        wgt := tabMod {} e.wgt b (fun x => x.push w)
        upd := match u with
          | some d => tabMod {} e.upd b (fun x => x.push d)
          | none => e.upd }
    else e)) }) s

/-- Terms of one written weight element: its value in the slot written, and the difference from the prior value, which
a one-version block-scaled region does not form (R130). `old` is the state before the write. -/
def normTerm (a : Acc) (param : Nat) (d : Desc) (f : Fmt) (old : State) (ij : Nat × Nat) (s : State) : State :=
  let p := a.part
  let start := d.base + ij.1 * d.rowStride + (elemPlace f.width ij.2).1
  let two := ((s.regionAt p start).map (fun r => r.twoVer)).getD false
  let newRd := fun x => rawByte s.mem.bytes (byteKey p (s.writeSlot a x) x)
  let oldRd := fun x =>
    rawByte (if two then s.mem.bytes else old.mem.bytes) (byteKey p (if two then s.curSlot p (x / 65536) else 0) x)
  let w := d.value f newRd ij.1 ij.2
  let u := if ! two && f.blocked then none else some (w.sub (d.value f oldRd ij.1 ij.2))
  pushBolt p param (start / 65536) w u s

/-- Terms of a write of an update envelope, in ascending address (R130, R131). -/
def normTerms (a : Acc) (old : State) (dva len : Nat) (s : State) : State :=
  (tabGet [] s.gab.maps a.part).foldl (fun s e =>
    match e.wDesc with
    | none => s
    | some d =>
      match d.format with
      | none => s
      | some f => (d.elementsIn f dva len).foldl (fun s ij =>
          if (s.regionAt a.part (d.base + ij.1 * d.rowStride)).isSome then normTerm a e.param d f old ij s else s) s) s

/-- A command's write: memory (R206–R212, R125), then the norm terms when an update envelope writes weights (R130). -/
def cmdWrite (a : Acc) (dva : Nat) (data : List Byte) (s : State) : State :=
  let s1 := memWrite a dva data s
  match a.cmd with
  | some (_, true) => if s1.touchesParam a.part dva data.length then normTerms a s dva data.length s1 else s1
  | _ => s1

/-- Several writes of one command, in order. -/
def cmdWrites (a : Acc) (ws : List (Nat × List Byte)) (s : State) : State :=
  ws.foldl (fun s w => cmdWrite a w.1 w.2 s) s
/-- The first unmapped address of several ranges of one command (R210). -/
def State.firstUnmapped (s : State) (p : Nat) (rs : List (Nat × Nat)) : Option Nat :=
  rs.findSome? (fun r => s.unmappedIn p r.1 r.2)

end Sys2Proof.Machine
end

