-- ==== Sys2Proof/Machine/Cost.lean ====
section
/-! DEFINITION. The cost tables of admission (R188) with the folds of R52 and the timing of R61, R62 and R140. Costs are
exact rationals in ns; array cycles convert as ceil(cycles / 1.8), and the quotient of a transfer row is rounded up to a
whole ns, as the worked admissions do (notes/assumptions/10.md). -/

namespace Sys2Proof.Machine

/-! ### Array timing (R61, R62) -/

/-- Round trip of a T0 request in array cycles. -/
def t0Rtt : Nat := 64
/-- Pipe constant. -/
def pipeCycles : Nat := 514
/-- Shortest pass. -/
def passMin : Nat := 260
/-- Drain converter latency. -/
def convCycles : Nat := 16
/-- Start of a WS or IS command. -/
def startWs : Nat := 320
/-- Start of an OS command. -/
def startOs : Nat := 64

/-- Array cycles in ns at 1.80 GHz (R187). -/
def cyclesNs (c : Nat) : Nat := ceilDiv (c * 10) 18

/-- Rate classes (R42): 4-bit, 8-bit, 16-bit. -/
inductive RateClass where
  | c4 | c8 | c16
  deriving DecidableEq, Repr

/-- The class of two operand formats (R42). -/
def rateClass (a b : Fmt) : RateClass :=
  if a.width = 16 || b.width = 16 then .c16
  else if a.width = 4 && b.width = 4 then .c4 else .c8
/-- kp of a class (R42). -/
def RateClass.kp : RateClass → Nat
  | .c4 => 512
  | .c8 => 256
  | .c16 => 128
/-- Array cycles per streamed row (R42). -/
def RateClass.perRow : RateClass → Nat
  | .c16 => 2
  | _ => 1

/-- The dataflow a command runs in (R48): 0 WS, 1 IS, 2 OS. -/
def dataflow (x : MxCmd) (m n : Nat) : Nat := if x.dflow = 3 then (if m < n && m ≤ 256 then 1 else 0) else x.dflow

/-- Blocks of a fold in order, as (row origin, rows, column origin, columns) (R52). -/
def foldBlocks (flow m n : Nat) : List (Nat × Nat × Nat × Nat) :=
  let br := if flow = 0 then 512 else 256
  let bc := if flow = 1 then 512 else 256
  if flow = 1 then
    ((List.range (ceilDiv m br)).map (fun i => (List.range (ceilDiv n bc)).map (fun j =>
      (br * i, min br (m - br * i), bc * j, min bc (n - bc * j))))).flatten
  else
    ((List.range (ceilDiv n bc)).map (fun j => (List.range (ceilDiv m br)).map (fun i =>
      (br * i, min br (m - br * i), bc * j, min bc (n - bc * j))))).flatten

/-- Array cycles of the passes of one block, or of one OS block (R62). -/
def blockCycles (flow k : Nat) (cls : RateClass) (a b : Fmt) (blk : Nat × Nat × Nat × Nat) : Nat :=
  if flow = 2 then
    let bytes := 32 * a.width + 32 * b.width
    let ck2 := match cls with | .c4 => 1 | .c8 => 2 | .c16 => 8
    -- K × max(c_k, b / 384), with c_k = ck2 / 2
    max (ceilDiv (k * max (ck2 * 192) bytes) 384) 256
  else
    let r := if flow = 0 then blk.2.1 else blk.2.2.2
    ceilDiv k cls.kp * max (r * cls.perRow) passMin

/-- Output bytes of a block: elements, then scales with flag bytes (R188). -/
def blockBytes (d : Desc) (f : Fmt) (blk : Nat × Nat × Nat × Nat) : Nat × Nat :=
  let r := blk.2.1
  let c := blk.2.2.2
  let sc := if f.blocked then (if d.blockAxis then ceilDiv r 32 * c else r * ceilDiv c 32) else 0
  let fl := if d.flagBase = 0 then 0 else ceilDiv r 256 * ceilDiv c 256
  (r * rowBytes f.width c, sc + fl)

/-- Drain excess over every block but the last: X192 and X320 (R188). -/
def drainExcess (rate : Nat) : List (Nat × Nat) → Nat
  | (b, _) :: (b2, c2) :: r => (ceilDiv b rate - c2) + drainExcess rate ((b2, c2) :: r)
  | _ => 0

/-- The clamps of a matrix command whose C has a format, with the clamp ids that count (R33). -/
def mxClampFor (c : Option Fmt) (x : MxCmd) : MxCmd × List Nat :=
  let big := x.op = 0x10 || x.op = 0x11
  let m := clampRange 1 4096 x.m
  let n := clampRange 1 4096 x.n
  let k := clampRange 1 65536 x.k
  let narrow := (c.map (fun f => decide (f ≠ .fp32 ∧ f ≠ .fa40))).getD false
  let usesScale := (c.map Fmt.blocked).getD false && x.scaleMode && x.outScale = 0xFF
  let usesMN := big || x.op = 0x13 || x.op = 0x14
  ({ x with
      m := if usesMN then m.1 else x.m
      n := if usesMN then n.1 else x.n
      k := if big then k.1 else x.k
      outScale := if usesScale then 0xFE else x.outScale
      rnd := if 2 ≤ x.rnd then 0 else x.rnd },
    (if usesScale then [1] else []) ++ (if usesMN && m.2 then [2] else []) ++ (if usesMN && n.2 then [3] else []) ++
    (if big && k.2 then [4] else []) ++ (if narrow && 2 ≤ x.rnd then [7] else []))

/-- mx.mul or mx.mac to memory, and mx.sacc, use C's descriptor. -/
def MxCmd.usesC (x : MxCmd) : Bool := ((x.op == 0x10 || x.op == 0x11) && x.dst == 0) || x.op == 0x13

/-- The format of the C that a matrix command writes, none where it writes none. -/
def mxOutFmt (s : State) (acc : Acc) (x : MxCmd) : Option Fmt :=
  if x.usesC then (s.desc acc x.descC).bind Desc.format else none

/-- The clamps of a matrix command in a state: out_scale and rnd count where C's format uses them (R28, R33, R58). -/
def mxClamp (s : State) (acc : Acc) (x : MxCmd) : MxCmd × List Nat := mxClampFor (mxOutFmt s acc x) x

/-- A control core's view of a partition outside any command. -/
def planAcc (p : Nat) : Acc := { part := p, agent := 4, t0only := false, cmd := none, q := 0xFFFD, pos := 0 }

/-- Cost of a matrix command in array cycles (R188); one whose descriptors cannot be read costs its dispatch only. -/
def mxCycles (s : State) (p : Nat) (w : CmdWord) : Nat :=
  let acc := planAcc p
  let x := (mxClamp s acc (mxFields w)).1
  if x.op = 0x12 then 256
  else if x.op = 0x13 then
    match s.desc acc x.descC with
    | some d =>
      match d.format with
      | some f =>
        let b := blockBytes d f (0, x.m, 0, x.n)
        256 + convCycles + ceilDiv b.1 192 + ceilDiv b.2 192 + t0Rtt
      | none => 0
    | none => 0
  else if x.op = 0x14 then
    match s.desc acc x.descCin with
    | some d =>
      match d.format with
      | some f => t0Rtt + max 256 (ceilDiv (blockBytes { d with flagBase := 0 } f (0, x.m, 0, x.n)).1 384)
      | none => 0
    | none => 0
  else if x.op = 0x10 || x.op = 0x11 then
    if x.dst = 3 then 0
    else
      match (s.desc acc x.descA).bind (fun d => d.format), (s.desc acc x.descB).bind (fun d => d.format) with
      | some fa, some fb =>
        let cls := rateClass fa fb
        let flow := dataflow x x.m x.n
        let blks := foldBlocks flow x.m x.n
        let cyc := blks.map (blockCycles flow x.k cls fa fb)
        let head := if flow = 2 then startOs + cyc.sum + convCycles else startWs + cyc.sum + pipeCycles
        let convT := if flow = 2 then 0 else convCycles
        let last := blks.getLastD (0, x.m, 0, x.n)
        match x.dst with
        | 1 => head
        | 0 =>
          match s.desc acc x.descC with
          | some d =>
            match d.format with
            | some f =>
              let b := blockBytes d f last
              let all := (blks.map (fun k => (blockBytes d f k).1 + (blockBytes d f k).2)).zip cyc
              head + convT + ceilDiv b.1 192 + ceilDiv b.2 192 + t0Rtt + drainExcess 192 all
            | none => 0
          | none => 0
        | _ =>
          let ms := ((tabGet [] s.gab.maps p).find? (fun e => e.param == x.descC)).any (fun e => e.ms)
          let rate := if ms then 192 else 320
          let by5 (k : Nat × Nat × Nat × Nat) : Nat := 5 * k.2.1 * k.2.2.2
          head + ceilDiv (by5 last) rate + t0Rtt + drainExcess rate ((blks.map by5).zip cyc)
      | _, _ => 0
  else 0

/-! ### Vector instructions (R140, R188) -/

/-- Interval and latency of an instruction, none when its opcode and fn are not listed (R140). -/
def vxTiming (op fn : Nat) : Option (Nat × Nat) :=
  match op with
  | 0x20 => if fn = 3 then some (1, 8) else if fn ≤ 9 then some (1, 6) else none
  | 0x21 => if fn ≤ 5 then some (1, 6) else none
  | 0x22 => if fn = 0 then some (1, 10) else none
  | 0x23 => if fn ≤ 4 then some (4, 28) else none
  | 0x24 =>
    if fn = 0 || fn = 1 || fn = 0x20 || fn = 0x21 then some (1, 262)
    else if fn = 2 || fn = 3 then some (1, 14)
    else if fn = 4 || fn = 0x14 || fn = 0x24 || fn = 0x34 then some (1, 1030) else none
  | 0x25 => if fn = 0 then some (1, 8) else if fn ≤ 2 then some (1, 10) else none
  | 0x26 => if fn ≤ 2 then some (1, 64) else none
  | _ => none

/-- The 256-byte rows that bytes [a, a + n) of a tile register occupy (R188). -/
def rowsOf (a n : Nat) : List Nat := (List.range (ceilDiv (a % 256 + n) 256)).map (fun i => (a / 256 + i) % 256)

/-- The places one vector reads and those it writes, as (register, first byte, bytes). -/
def vxPorts (x : VxCmd) (j : Nat) : List (Nat × Nat × Nat) × List (Nat × Nat × Nat) :=
  let data (o : VOp) (c jj : Nat) : List (Nat × Nat × Nat) :=
    match fmtOf c with
    | some f => if o.isTile then [(o.reg, o.start f jj, 32 * f.width)] else [(o.reg, 256 * ((o.row + jj) % 256), 1)]
    | none => []
  let msk (o : VOp) (jj : Nat) : List (Nat × Nat × Nat) := [(o.reg, o.maskStart jj, 32)]
  let scl (o : VOp) (c jj : Nat) : List (Nat × Nat × Nat) :=
    if ((fmtOf c).map Fmt.blocked).getD false then [(o.reg, o.scaleStart jj, 16)] else []
  let a := vop x.srca
  let b := vop x.srcb
  let c := vop x.srcc
  let d := vop x.dst
  let m := vop x.mask
  let two := (x.op = 0x20 && (x.fn ≤ 5 || x.fn = 9)) || x.op = 0x21
  let rb := if two && ! x.bcastB then data b x.fmtB j else []
  let rc := if x.op = 0x20 && x.fn = 3 && ! x.bcastC then data c x.fmtB j else []
  let rm := if (x.maskEn && x.op ≠ 0x22) || (x.op = 0x20 && x.fn = 9) || (x.op = 0x25 && x.fn ≥ 1) then msk m j else []
  let idx := if x.op = 0x25 && x.fn = 0 then [(b.reg, b.idxStart j, 256)] else []
  let sa := if x.op = 0x22 then scl b x.fmtA j else []
  (data a x.fmtA j ++ rb ++ rc ++ rm ++ idx ++ sa,
    (if x.op = 0x21 then msk d j
     else if x.op = 0x24 then data d x.fmtD 0
     else data d x.fmtD j) ++ (if x.op = 0x22 then scl c x.fmtD j else []))

/-- The largest number of rows that a port of one tile register serves (R188); an accumulator operand counts 1. -/
def portRows (l : List (Nat × Nat × Nat)) : Nat :=
  ((List.range 8).map (fun r =>
    let ops := l.filter (fun x => x.1 == r)
    if r < 6 then ((ops.map (fun x => rowsOf x.2.1 x.2.2)).flatten.eraseDups).length else min 1 ops.length)).foldl max 0

/-- w of R188: the largest over the vectors. -/
def vxWidth (x : VxCmd) (nr : Nat) : Nat :=
  ((List.range (min nr 256)).map (fun j => let p := vxPorts x j; max (portRows p.1) (portRows p.2))).foldl max 1

/-- Largest vl of a partition's mode (R33, R158). -/
def State.vlMax (s : State) (p : Nat) : Nat := if (s.part p).vecMode then 64 else 256

/-- Cost of a vector instruction in array cycles (R188). -/
def vxCycles (s : State) (p : Nat) (w : CmdWord) : Nat :=
  let x := vxFields w
  let vl := (clampRange 1 (s.vlMax p) x.vl).1
  let packed := x.vlSrc && ! (x.op = 0x25 && x.fn ≥ 1) && ! (x.op = 0x26 && x.fn = 2)
  let nr := if packed then (if (s.part p).vecMode then 1028 else 257) else x.nr
  match vxTiming x.op x.fn with
  | none => 0
  | some t =>
    if x.op = 0x26 then
      let c := if x.fn = 0 then x.fmtD else x.fmtA
      let b := ((fmtOf c).map (fun f => rowBytes f.width (if packed then s.vlMax p else vl))).getD 0
      if x.fn = 0 then t0Rtt + nr * ceilDiv b 384
      else if x.fn = 1 then t0Rtt + nr * ceilDiv b 192
      else t0Rtt + 1
    else if x.op = 0x24 && (x.fn = 0x24 || x.fn = 0x34) then 4 * nr * (if packed then s.vlMax p else vl) + 10
    else nr * max t.1 (vxWidth x nr) + t.2

/-! ### Transfers, GAB, collectives -/

/-- Rate resources of R185. -/
inductive RateRes where
  | t1 | t2r | t2w | link
  deriving DecidableEq, Repr

/-- Bytes of a range in whole bolts (R201). -/
def boltBytes (dva len : Nat) : Nat := if len = 0 then 0 else 65536 * ((dva + len + 65535) / 65536 - dva / 65536)

/-- The checkpoint of a slot. -/
def State.ckpt (s : State) (p slot : Nat) : Option Ckpt :=
  (s.nvt.ckpts.find? (fun x => x.1 == p * 16 + slot)).map (fun x => x.2)

/-- Bytes a transfer, commit or restore counts (R201, R243). -/
def xferBytes (s : State) (p : Nat) (w : CmdWord) : Nat :=
  let x := txFields w
  if x.dva = 0 && x.len = 0 then
    if x.op = 0x38 then ((s.regions p).map (fun r => 65536 * r.bolts)).sum
    else if x.op = 0x39 then
      ((s.ckpt p x.slot).map (fun c => (c.regions.map (fun r => 65536 * r.bolts)).sum)).getD 0
    else 0
  else boltBytes x.dva x.len

/-- Storage bytes of an entry: headers and elements (R109). -/
def entryBytes (rows cols : Nat) : Nat := 64 * ceilDiv (8 * ceilDiv rows 256) 64 + 5 * rows * cols

/-- Fields of a collective command (R307, R308, R311). -/
structure CoCmd where
  op : Nat
  deadline : Nat
  late : Nat
  acc40 : Bool
  rnd : Nat
  root : Nat
  origin : Nat
  szBase : Nat
  tensor : BitVec 32
  descDst : Nat
  descSrc : Nat
  seq : Nat
  group : Nat
  tableBase : Nat
  count : Nat
  deriving DecidableEq, Repr

/-- Decodes a collective command. -/
def coFields (c : CmdWord) : CoCmd where
  op := opcodeOf c
  deadline := fld c 232 24
  late := fld c 230 2
  acc40 := fld c 229 1 == 1
  rnd := fld c 227 2
  root := fld c 211 16
  origin := fld c 163 48
  szBase := fld c 163 48 * 16
  tensor := c.extractLsb' 131 32
  descDst := fld c 115 16
  descSrc := fld c 99 16
  seq := fld c 44 32
  group := fld c 32 12
  tableBase := fld c 64 52
  count := fld c 48 16

/-- Key of a group. -/
def groupKey (p g : Nat) : Nat := p * 4096 + g
/-- A bound group. -/
def State.group (s : State) (p g : Nat) : Option Group :=
  (s.col.groups.find? (fun x => x.1 == groupKey p g)).map (fun x => x.2)

/-- ceil(log2 p). -/
def log2Ceil (p : Nat) : Nat := if p ≤ 1 then 0 else Nat.log2 (p - 1) + 1

/-- Elements of a tensor and its bytes on the wire: elements, then scales of 32-element blocks (R307). -/
def wireBytes (f : Fmt) (e : Nat) : Nat := rowBytes f.width e + (if f.blocked then ceilDiv e 32 else 0)

/-- The lengths of a co.a2av size table: send and receive entries, as (offset, length) (R308). -/
def sizeTable (s : State) (a : Acc) (base n : Nat) : List (Nat × Nat) :=
  (List.range n).map (fun j =>
    let v := unle (s.readBytes a (base + 8 * j) 8)
    (v / 2 ^ 32, v % 2 ^ 32))

/-- S of R315 and R188: bytes per member on the wire. -/
def collSize (s : State) (a : Acc) (x : CoCmd) (g : Group) : Nat :=
  let src := s.desc a x.descSrc
  let dst := s.desc a x.descDst
  let e := (src.map (fun d => d.rows * d.cols)).getD 0
  let wf := ((src.bind (fun d => d.format)).map (fun f => wireBytes f e)).getD 0
  if x.op = 0x50 || x.op = 0x51 then
    let dw := ((dst.bind (fun d => d.format)).map Fmt.width).getD 32
    e * max (if x.acc40 then 5 else 4) (dw / 8)
  else if x.op = 0x56 then
    let t := sizeTable s a x.szBase (2 * g.p)
    max (((t.take g.p).map Prod.snd).sum) (((t.drop g.p).map Prod.snd).sum)
  else wf

/-- The latency algorithm runs (R315). -/
def usesLatency (s : State) (p : Nat) (x : CoCmd) (sz : Nat) : Bool :=
  x.op == 0x54 || (x.op == 0x50 && decide (sz < (s.part p).collSmallMax))

/-- Bytes over links D and steps n of a collective (R188). -/
def collTerms (s : State) (p : Nat) (x : CoCmd) (g : Group) : Rat × Nat :=
  let sz := collSize s (planAcc p) x g
  let steps := (g.axes.map (fun a => a.1 - 1)).sum
  let frac : Rat := (sz : Rat) * ((g.p - 1 : Nat) : Rat) / (g.p : Rat)
  if x.op = 0x54 then (0, log2Ceil g.p)
  else if x.op = 0x50 then
    if usesLatency s p x sz then ((sz * log2Ceil g.p : Nat), log2Ceil g.p) else (2 * frac, 2 * steps)
  else if x.op = 0x52 then ((g.p : Rat) * frac, steps)
  else if x.op = 0x53 then ((sz : Rat), steps)
  else (frac, steps)

/-- Ports that the algorithm uses: 2 for each ring axis and 1 for each line axis of extent above 1 (R317). -/
def collPorts (g : Group) : Nat := (g.axes.map (fun a => if a.1 ≤ 1 then 0 else if a.2.2 then 1 else 2)).sum

/-- The resource and bytes of a command on the rate resources (R188). -/
def rateUse (s : State) (p : Nat) (w : CmdWord) : Option (RateRes × Nat) :=
  let op := opcodeOf w
  if op = 0x30 then some (.t1, xferBytes s p w)
  else if op = 0x31 || op = 0x39 then some (.t2r, xferBytes s p w)
  else if op = 0x32 || op = 0x38 then some (.t2w, xferBytes s p w)
  else if 0x50 ≤ op && op ≤ 0x56 then
    some (.link, ((s.group p (coFields w).group).map (fun g => (collTerms s p (coFields w) g).1.ceil.toNat)).getD 0)
  else none

/-- The reservation of a partition on a resource: MB/s, or percent of a port (the least of its ports). -/
def State.rate (s : State) (p : Nat) (r : RateRes) : Nat :=
  match r with
  | .t1 => (s.res p).t1
  | .t2r => (s.res p).t2r
  | .t2w => (s.res p).t2w
  | .link =>
    (((s.res p).link.zipIdx).filterMap (fun x =>
      if ((s.part p).roles.toNat / 16 ^ x.2) % 16 = 0 then none else some x.1)).min?.getD 0

/-- The reservation a command needs, for refusal reason 0x07 (R182, R185). -/
def needsRate (op : Nat) : Option RateRes :=
  if op = 0x30 || op = 0x3F then some .t1
  else if op = 0x31 || op = 0x39 then some .t2r
  else if op = 0x32 || op = 0x38 then some .t2w
  else if 0x50 ≤ op && op ≤ 0x56 then some .link
  else none

/-- Cost of a command in ns, without dispatch and grant (R188). `used` gives the bytes of the envelope and of the
backlog on a resource; none when a reservation it needs is zero (unbounded, R188). -/
def cmdCost (s : State) (p : Nat) (used : RateRes → Nat) (w : CmdWord) : Option Rat :=
  let op := opcodeOf w
  let viaRate (fixed : Nat) (r : RateRes) : Option Rat :=
    let k := s.rate p r
    if k = 0 then none else some ((fixed + ceilDiv (used r * 1000) k : Nat) : Rat)
  if 0x10 ≤ op && op ≤ 0x1F then some (cyclesNs (mxCycles s p w) : Nat)
  else if 0x20 ≤ op && op ≤ 0x2F then some (cyclesNs (vxCycles s p w) : Nat)
  else if op = 0x30 then viaRate 1500 .t1
  else if op = 0x31 || op = 0x39 then viaRate 150000 .t2r
  else if op = 0x32 then viaRate 800000 .t2w
  else if op = 0x38 then viaRate 1800000 .t2w
  else if (0x33 ≤ op && op ≤ 0x37) || op = 0x3A then some 2000
  else if op = 0x3D then some ((5000 + 50 * fld w 48 16 : Nat) : Rat)
  else if op = 0x3E then
    let es := (tabGet [] s.gab.maps p).filter (fun e => fld w 47 1 == 1 || e.param == fld w 120 16)
    some (1000 + (((es.map (fun e => 65536 * ceilDiv (entryBytes e.rows e.cols) 65536)).sum : Nat) : Rat) / 1000)
  else if op = 0x3F then
    let k := s.rate p .t1
    if k = 0 then none
    else
      let x := gbFields w
      let e := (tabGet [] s.gab.maps p).find? (fun e => e.param == x.param)
      let eb := (e.map (fun e => 65536 * ceilDiv (entryBytes e.rows e.cols) 65536)).getD 0
      let db := match s.desc (planAcc p) x.descD with
        | some d => ((d.format.map (fun f => 65536 * ceilDiv (((d.ranges f d.rows d.cols).map Prod.snd).sum) 65536))).getD 0
        | none => 0
      if e.any (fun e => e.ms) then some (2000 + ((eb + db) * 1000 : Nat) / (k : Rat))
      else some (2000 + (eb : Rat) / 200 + ((db * 1000 : Nat) : Rat) / (k : Rat))
  else if op = 0x57 then some ((5000 + 50 * fld w 48 16 : Nat) : Rat)
  else if 0x50 ≤ op && op ≤ 0x56 then
    match s.group p (coFields w).group with
    | none => some 5000
    | some g =>
      let t := collTerms s p (coFields w) g
      let k := collPorts g
      if k = 0 then some ((5000 + 2000 * t.2 : Nat) : Rat)
      else if s.rate p .link = 0 then none
      else some (((5000 + 2000 * t.2 : Nat) : Rat) +
        (t.1 + (used .link : Rat)) * 1000 / ((k * 2346 * s.rate p .link : Nat) : Rat))
  else if 0x40 ≤ op && op ≤ 0x43 then some 200
  else if op = 0x65 then some 200
  else if op = 0x64 then some 5000
  else some 0

/-- The logical array that a command names (R187). -/
def arrayOf (w : CmdWord) : Option Nat :=
  let op := opcodeOf w
  if (0x10 ≤ op && op ≤ 0x14) || (0x20 ≤ op && op ≤ 0x26) then some (fld w 32 7) else none

end Sys2Proof.Machine
end

