-- ==== Sys2Proof/Machine/Envelope.lean ====
section
/-! DEFINITION. Envelopes (R178–R193): parts read from the rings, the dependency graph, the bound W, refusal and
acceptance, projection, revocation, capacity loss, and the response records. -/

namespace Sys2Proof.Machine

/-! ### Rings (R162) -/

/-- DVA of a ring slot. -/
def Queue.slotDva (k : Queue) (i : BitVec 32) : Nat := k.base.toNat + 32 * (i.toNat % ringSize k.sizeCode)
/-- The control core's access to a queue's ring. -/
def ringReader (q : Nat) (i : BitVec 32) : Acc :=
  { part := partOfQ q, agent := 4, t0only := false, cmd := none, q := q, pos := i.toNat }
/-- The command in a ring slot. -/
def State.slot (s : State) (q : Nat) (i : BitVec 32) : CmdWord :=
  BitVec.ofNat 256 (unle (s.readBytes (ringReader q i) ((s.queue q).slotDva i) 32))
/-- Positions from one index up to another, at most a ring. -/
def span (a b : BitVec 32) : List (BitVec 32) :=
  (List.range (min (b - a).toNat 65536)).map (fun i => a + BitVec.ofNat 32 i)

/-- A node of the dependency graph: a command of a member queue (R186). -/
structure Node where
  q : Nat
  pos : BitVec 32
  w : CmdWord
  deriving DecidableEq, Repr

/-- Envelope markers (R178). -/
def isMarker (op : Nat) : Bool := op == 0x61 || op == 0x62 || op == 0x63

/-- Reads a part from a position up to its env.close below the tail: its commands, the index of the env.close, and
whether it holds an env.open or env.join (R181, R182). -/
def scanPart (s : State) (q envId : Nat) : List (BitVec 32) → List Node → Bool → Option (List Node × BitVec 32 × Bool)
  | [], _, _ => none
  | i :: r, acc, nested =>
    let w := s.slot q i
    if opcodeOf w = 0x63 ∧ fld w 48 16 = envId then some (acc, i, nested)
    else scanPart s q envId r (acc ++ [{ q := q, pos := i, w := w }])
      (nested || opcodeOf w == 0x61 || opcodeOf w == 0x62)

/-- Device queues that an envelope names, ascending. -/
def Envelope.queues (e : Envelope) : List Nat := ((List.range 32).filter (fun i => e.members.getLsbD i)).map (fun i => 32 * e.part + i)

/-- The index of a member queue's marker: dispatched already, or ahead in the ring (R181). A queue stopped after a
refusal has none (R183). -/
def markerOf (s : State) (e : Envelope) (q : Nat) : Option (BitVec 32) :=
  match e.parts.find? (fun x => x.q == q) with
  | some x => some x.first
  | none =>
    if (s.queue q).state = 3 || (s.queue q).aborted then none
    else (span (s.queue q).head (s.queue q).tail).find? (fun i =>
      opcodeOf (s.slot q i) == 0x62 && fld (s.slot q i) 48 16 == e.envId.toNat)

/-- A member queue's part. -/
def partOf (s : State) (e : Envelope) (q : Nat) : Option (List Node × BitVec 32 × Bool) :=
  (markerOf s e q).bind (fun i => scanPart s q e.envId.toNat (span (i + 1) (s.queue q).tail) [] false)

/-- Every part, in ascending member queue; none while one is incomplete (R181). -/
def allPartsOf (s : State) (e : Envelope) : Option (List (List Node × BitVec 32 × Bool)) :=
  (e.queues.map (partOf s e)).foldr (fun x acc =>
    match x, acc with
    | some a, some l => some (a :: l)
    | _, _ => none) (some [])

/-! ### The dependency graph (R186) -/

/-- The keeper of a keeper command, resolved. -/
def nodeKeeper (s : State) (p : Nat) (n : Node) : Option Nat := s.keeperOf p (fld n.w 48 16)
/-- The keepers that a node writes: by a keeper command, then by sig_en. -/
def nodeWrites (s : State) (p : Nat) (n : Node) : List (Nat × (BitVec 32 → BitVec 32)) :=
  let op := opcodeOf n.w
  let x := n.w.extractLsb' 64 32
  let y := n.w.extractLsb' 96 32
  let direct : List (Nat × (BitVec 32 → BitVec 32)) :=
    match nodeKeeper s p n with
    | none => []
    | some k =>
      if op = 0x41 then [(k, fun _ => x)]
      else if op = 0x42 then [(k, fun v => v + x)]
      else if op = 0x43 then [(k, fun v => if v = x then y else v)]
      else []
  let sig : List (Nat × (BitVec 32 → BitVec 32)) :=
    if fld n.w 9 1 = 1 then
      match s.keeperOf p (fld n.w 16 16) with
      | some k => [(k, fun v => v + 1)]
      | none => []
    else []
  direct ++ sig
/-- Whether a node writes a keeper. -/
def writesKeeper (s : State) (p : Nat) (n : Node) (k : Nat) : Bool := (nodeWrites s p n).any (fun x => x.1 == k)

/-- The condition of kp.wait (R174). -/
def waitHolds (cond : Nat) (v x : BitVec 32) : Bool :=
  match cond with
  | 0 => decide ((v - x).toNat < 2 ^ 31)
  | 1 => v == x
  | 2 => v != x
  | _ => v &&& x == x
/-- The condition of a kp.wait node on a value. -/
def nodeHolds (n : Node) (v : BitVec 32) : Bool := waitHolds (fld n.w 96 2) v (n.w.extractLsb' 64 32)

/-- External waits of an envelope's nodes: on keepers that no command of the envelope writes. -/
def externalWaits (s : State) (p : Nat) (ns : List Node) : List Node :=
  ns.filter (fun n => opcodeOf n.w == 0x40 &&
    (match nodeKeeper s p n with
      | some k => ! ns.any (fun m => writesKeeper s p m k)
      | none => false))

/-- Contribution to a GAB entry: parameter and sequence number (R112). -/
def contribOf (w : CmdWord) : Option (Nat × Nat) :=
  if (opcodeOf w = 0x10 || opcodeOf w = 0x11) && fld w 45 2 == 2 then some (fld w 136 16, fld w 216 16) else none

/-- An edge from node i to node j of the list (R186). -/
def graphEdge (s : State) (p : Nat) (i : Nat) (a : Node) (j : Nat) (b : Node) : Bool :=
  (j == i + 1 && a.q == b.q) ||
  (opcodeOf b.w == 0x40 &&
    (match nodeKeeper s p b with
      | some k => writesKeeper s p a k && (a.q != b.q || decide (i < j))
      | none => false)) ||
  (match contribOf a.w with
    | some (pa, sa) =>
      (match contribOf b.w with
        | some (pb, sb) => pa == pb && sb == (sa + 1) % 65536
        | none => false) ||
      (opcodeOf b.w == 0x3F && fld b.w 120 16 == pa && fld b.w 152 16 != 0)
    | none => false)

/-- Predecessors of each node, by index. -/
def predLists (s : State) (p : Nat) (ns : List Node) : List (List Nat) :=
  (ns.zipIdx).map (fun b => ((ns.zipIdx).filter (fun a => graphEdge s p a.2 a.1 b.2 b.1)).map (fun a => a.2))

/-- An order that respects every edge: repeatedly the first node whose predecessors are all placed; shorter than the
nodes when the graph has a cycle. -/
def topoOrder (preds : List (List Nat)) : Nat → List Nat → List Nat
  | 0, done => done
  | fuel + 1, done =>
    match ((preds.zipIdx).find? (fun x => ! done.contains x.2 && x.1.all (fun i => done.contains i))) with
    | none => done
    | some x => topoOrder preds fuel (done ++ [x.2])

/-- Ancestors of each node, given an order that respects the edges. -/
def ancestors (preds : List (List Nat)) (order : List Nat) : Tab (List Nat) :=
  order.foldl (fun t i =>
    let ps := preds.getD i []
    tabPut [] t i ((ps ++ (ps.map (fun j => tabGet [] t j)).flatten).eraseDups)) []

/-! ### The bound W (R187, R188) -/

/-- Booked-until time of a logical array over the admitted envelopes, with the remaining cost of an open command that
executes there, from its start to its completion (R188). -/
def State.ledger (s : State) (l : Nat) : Nat :=
  let booked := (((s.tcs.envs.filter (fun e => e.status == .admitted)).map (fun e =>
    (e.booked.filter (fun b => b.1 == l)).map (fun b => b.2))).flatten).foldl max 0
  let open_ := (s.tcs.inflight.filter (fun f => f.started && ! f.late && ! f.admitted && arrayOf f.word == some l)).map
    (fun f => f.since + ((cmdCost s (partOfQ f.q) (fun _ => 0) f.word).getD 0).ceil.toNat)
  open_.foldl max booked
/-- An fn.epoch of an envelope has not closed: it lies ahead of its queue's head, or runs. -/
def State.epochAhead (s : State) (q : Nat) (pos : BitVec 32) : Bool :=
  decide ((pos - (s.queue q).head).toNat < 2 ^ 31) || (s.inflight q pos).any (fun f => ! f.done)
/-- The latest booked close of a fence not yet closed of the admitted envelopes of a partition (R187). -/
def State.fenceClose (s : State) (p : Nat) : Nat :=
  ((((s.tcs.envs.filter (fun e => e.part == p && e.status == .admitted)).map (fun e => e.fences)).flatten).filter
    (fun x => s.epochAhead x.1 x.2.1)).foldl (fun m x => max m x.2.2) 0
/-- Backlog of a partition's admitted envelopes on a rate resource (R188). -/
def State.backlog (s : State) (p : Nat) (r : RateRes) : Nat :=
  ((s.tcs.envs.filter (fun e => e.part == p && e.status == .admitted)).map (fun e =>
    match r with
    | .t1 => e.bytesT1
    | .t2r => e.bytesT2r
    | .t2w => e.bytesT2w
    | .link => e.bytesLink)).sum
/-- Bytes of some commands on a rate resource. -/
def nodeBytes (s : State) (p : Nat) (ns : List Node) (r : RateRes) : Nat :=
  (ns.map (fun n =>
    match rateUse s p n.w with
    | some (k, b) => if k = r then b else 0
    | none => 0)).sum

/-- What a schedule gives: finish of each node by index, with queue times and the arrays already started. -/
structure Sched where
  finish : List (Nat × Rat)
  qt : List (Nat × Rat)
  granted : List Nat
  deriving Repr

/-- The latest of some times. -/
def ratMax (l : List Rat) : Rat := l.foldl max 0

/-- The bytes that cost rows divide by a rate (R188): those of the envelope's commands and of the backlog, and on the links
the backlog alone, beside which a collective's own row counts its own D. -/
def usedBytes (s : State) (p : Nat) (ns : List Node) (r : RateRes) : Nat :=
  (if r = .link then 0 else nodeBytes s p ns r) + s.backlog p r

/-- Whether an opcode is of a class held by a booked fence (R187). -/
def fenceClass (op : Nat) : Bool := (0x10 ≤ op && op ≤ 0x3F) || (0x50 ≤ op && op ≤ 0x5F)

/-- Schedules one node (R187): `t0` is the queues' starting time, `origin` the instant that times count from, `used` the
bytes on each rate resource, `run` the time a command in progress has already run. None: unbounded. -/
def schedNode (s : State) (p : Nat) (t0 : Rat) (origin : Nat) (used : RateRes → Nat) (ns : List Node)
    (preds : List (List Nat)) (run : Node → Nat) (acc : Option Sched) (i : Nat) : Option Sched :=
  match acc, ns[i]? with
  | some c, some n =>
    let op := opcodeOf n.w
    let qt := ((c.qt.find? (fun x => x.1 == n.q)).map Prod.snd).getD t0
    let ps := (preds.getD i []).map (fun j => ((c.finish.find? (fun x => x.1 == j)).map Prod.snd).getD 0)
    let a := arrayOf n.w
    let led := match a with | some l => s.ledger l - origin | none => 0
    let fen := if fenceClass op then s.fenceClose p - origin else 0
    let arrs := if op = 0x64 then (((s.arraysOf p).map s.ledger).foldl max 0) - origin else 0
    let start := ratMax ([qt, (led : Rat), (fen : Rat), (arrs : Rat)] ++ ps)
    let grant : Nat := match a with
      | some l => if c.granted.contains l then 0 else 10000
      | none => 0
    match cmdCost s p used n.w with
    | none => none
    | some k =>
      let f := start + 100 + grant + k - (run n : Rat)
      some { finish := (i, f) :: c.finish, qt := (n.q, f) :: c.qt, granted := match a with | some l => l :: c.granted | none => c.granted }
  | _, _ => acc

/-- The whole schedule. -/
def schedule (s : State) (p : Nat) (t0 : Rat) (origin : Nat) (used : RateRes → Nat) (ns : List Node)
    (granted : List Nat) (run : Node → Nat) : Option Sched :=
  let preds := predLists s p ns
  (topoOrder preds ns.length []).foldl (schedNode s p t0 origin used ns preds run)
    (some { finish := [], qt := [], granted := granted })

/-- W in µs of a largest finish (R187). -/
def boundW (finish : Rat) : Nat := ((finish + 2000) / 1000).ceil.toNat
/-- M in µs (R187); selvedge_pct counts tenths of a percent. -/
def marginM (r : PartRec) (w : Nat) : Nat := max (ceilDiv (w * r.selvedgePct) 1000) r.selvedgeFloor

/-- What an evaluation finds (R182, R187): the refusal reason, 0 for none, with W, M and the bookings. -/
structure Evaluation where
  reason : Nat
  w : Nat
  m : Nat
  booked : List (Nat × Nat)
  fences : List (Nat × BitVec 32 × Nat)
  bytes : Nat × Nat × Nat × Nat
  rates : List RateRes
  deriving DecidableEq, Repr

/-- A refusal without W and M. -/
def Evaluation.refuse (r : Nat) : Evaluation :=
  { reason := r, w := 0, m := 0, booked := [], fences := [], bytes := (0, 0, 0, 0), rates := [] }

/-- Two member queues name one logical array (R182). -/
def sharedArray (ns : List Node) : Bool :=
  ns.any (fun a => ns.any (fun b => a.q != b.q && (arrayOf a.w).isSome && arrayOf a.w == arrayOf b.w))

/-- A command needs storage of the GAB: it binds an entry there, or names one that lies there (R107, R111, R112, R118,
R119). -/
def needsGab (s : State) (p : Nat) (w : CmdWord) : Bool :=
  let held (param : Nat) : Bool := (tabGet [] s.gab.maps p).any (fun e => e.param == param && ! e.ms)
  (opcodeOf w == 0x3D && (List.range (fld w 48 16)).any (fun i =>
    unle (s.readBytes (planAcc p) (fld w 64 52 + 32 * i) 32) / 2 ^ 242 % 4 == 0)) ||
  (match contribOf w with
    | some c => held c.1
    | none => false) ||
  (opcodeOf w == 0x3E && fld w 47 1 == 0 && held (fld w 120 16)) || (opcodeOf w == 0x3F && held (fld w 120 16))

/-- A command needs a reservation held at zero (R182, R185): a rate, an array, a keeper that it or its sig_en names, or
the GAB (notes/assumptions/77.md). -/
def zeroReservation (s : State) (p : Nat) (w : CmdWord) : Bool :=
  let op := opcodeOf w
  (match needsRate op with
    | some r => s.rate p r == 0
    | none => false) ||
  ((arrayOf w).isSome && (s.arraysOf p).isEmpty) ||
  (((0x40 ≤ op && op ≤ 0x43) || fld w 9 1 == 1) && (s.part p).kpCount == 0) ||
  ((s.part p).gabQuota == 0 && needsGab s p w)

/-- An internal wait fails after every write to its keeper, from the keeper's value at t_a on (R182, R186). -/
def internalWaitFails (s : State) (p : Nat) (kpAt : Tab (BitVec 32)) (ns : List Node) : Bool :=
  ns.any (fun n => opcodeOf n.w == 0x40 &&
    (match nodeKeeper s p n with
      | none => false
      | some k =>
        let ws := ((ns.map (nodeWrites s p)).flatten).filter (fun x => x.1 == k)
        ! ws.isEmpty && ! nodeHolds n (ws.foldl (fun v x => x.2 v) (tabGet 0 kpAt k))))

/-- An fn.epoch is joined by no path to a command of another member queue (R182, R186). -/
def epochUnordered (ns : List Node) (anc : Tab (List Nat)) : Bool :=
  (ns.zipIdx).any (fun e => opcodeOf e.1.w == 0x64 && (ns.zipIdx).any (fun x =>
    x.1.q != e.1.q && ! (tabGet [] anc e.2).contains x.2 && ! (tabGet [] anc x.2).contains e.2))

/-- Evaluates an envelope in the order of R182. -/
def evaluate (s : State) (e : Envelope) : Evaluation :=
  let p := e.part
  if s.tcs.envs.any (fun o => o.part == p && o.envId == e.envId && decide (o.uid < e.uid) &&
      o.status != .ended && o.status != .skipping) then Evaluation.refuse 8
  else if ! e.members.getLsbD (e.openQ % 32) || e.queues.any (fun q => ! (s.queue q).enable) then Evaluation.refuse 3
  else
    match allPartsOf s e with
    | none => Evaluation.refuse 3
    | some ps =>
      let ns := ((ps.map (fun x => x.1)).flatten).filter (fun n => ! isMarker (opcodeOf n.w))
      if ps.any (fun x => x.2.2) then Evaluation.refuse 0xA
      else if 4096 < ns.length then Evaluation.refuse 2
      else if sharedArray ns then Evaluation.refuse 4
      else if ns.any (fun n => zeroReservation s p n.w) then Evaluation.refuse 7
      else
        let preds := predLists s p ns
        let order := topoOrder preds ns.length []
        if order.length < ns.length then Evaluation.refuse 6
        else if internalWaitFails s p e.kpAt ns then Evaluation.refuse 5
        else if epochUnordered ns (ancestors preds order) then Evaluation.refuse 9
        else
          match schedule s p 20000 e.tA (usedBytes s p ns) ns [] (fun _ => 0) with
          | none => Evaluation.refuse 7
          | some c =>
            let top := ratMax (20000 :: c.finish.map Prod.snd)
            let w := boundW top
            let m := marginM (s.part p) w
            let fin (i : Nat) : Nat := e.tA + (((c.finish.find? (fun x => x.1 == i)).map Prod.snd).getD 0).ceil.toNat
            { reason := if e.deadline < w + m then 1 else 0
              w := w
              m := m
              booked := (ns.zipIdx).filterMap (fun x => (arrayOf x.1.w).map (fun l => (l, fin x.2)))
              fences := (ns.zipIdx).filterMap (fun x => if opcodeOf x.1.w = 0x64 then some (x.1.q, x.1.pos, fin x.2) else none)
              bytes := (nodeBytes s p ns .t1, nodeBytes s p ns .t2r, nodeBytes s p ns .t2w, nodeBytes s p ns .link)
              rates := ns.filterMap (fun n => needsRate (opcodeOf n.w)) }

/-! ### Responses (R193) -/

/-- Writes a response record and raises the vector of the opening queue; adm_seq is the number of the envelope's
answer. -/
def respond (e : Envelope) (kind bound margin reason : Nat) (s : State) : State :=
  let rec_ :=
    le 2 e.admSeq ++ le 2 e.envId.toNat ++
    le 4 (reason + prioClass (s.part e.part) * 2 ^ 7 + kind * 2 ^ 9 + margin % 2 ^ 20 * 2 ^ 12) ++
    le 4 e.deadline ++ le 4 (min bound 0xFFFFFFFF) ++ le 8 e.tA ++ le 8 s.now
  let o := putResp e.part rec_ s
  let s := if o.2.1 then raiseQueue e.openQ o.1 else o.1
  eventUnmapped (ringAcc e.part) o.2.2 s

/-- The next place in the order in which envelopes were admitted or revoked (R190, R192). -/
def State.nextTurn (s : State) : Nat := (s.tcs.envs.map (fun e => e.turn)).foldl max 0 + 1
/-- The next admission sequence number: answers are numbered from 1, device-wide (notes/assumptions/24.md). -/
def State.nextAnswer (s : State) : Nat := s.tcs.admSeq + 1
/-- An answer has taken the next number. -/
def numberAnswer (s : State) : State := modTcs (fun t => { t with admSeq := t.admSeq + 1 }) s

/-- Counts an admission outcome (R194). -/
def countAdm (p : Nat) (f : AdmCnt → AdmCnt) (s : State) : State :=
  modTcs (fun t => { t with admCnt := tabMod {} t.admCnt p f }) s

/-! ### Queues at their markers -/

/-- A marker whose envelope runs: the queue enters its part (R180, R184). -/
def enterPart (e : Envelope) (q : Nat) (s : State) : State :=
  modQueue q (fun k => { k with
    state := 1
    head := k.head + 1
    env := some e.uid
    seed := e.seed
    step := e.step }) s

/-- Drops the in-flight marker of a queue. -/
def dropMarker (q : Nat) (pos : BitVec 32) (s : State) : State :=
  modTcs (fun t => { t with inflight := t.inflight.filter (fun f => ! (f.q == q && f.pos == pos)) }) s

/-- Drops the kp.wait that holds a queue: it is discarded with the commands after it (R173). -/
def dropWait (q : Nat) (s : State) : State :=
  match (s.queue q).wait with
  | some w => dropMarker q w s
  | none => s

/-- Skips a queue's part: head past its env.close, nothing executed, no completion action (R173, R183). -/
def skipPart (e : Envelope) (q : Nat) (s : State) : State :=
  match e.parts.find? (fun x => x.q == q) with
  | none => s
  | some x =>
    let close := match x.close with
      | some c => some c
      | none => (scanPart s q e.envId.toNat (span (x.first + 1) (s.queue q).tail) [] false).map (fun r => r.2.1)
    let s := dropMarker q x.first s
    let s := match x.close with
      | some c => dropMarker q c s
      | none => s
    match close with
    | none => modQueue q (fun k => { k with state := 1, head := k.tail, env := none, wait := none }) (dropWait q s)
    | some c =>
      if ((s.queue q).head - x.first).toNat ≤ (c - x.first).toNat then
        modQueue q (fun k => { k with state := 1, head := c + 1, env := none, wait := none }) (dropWait q s)
      else s

/-- Every member queue has skipped its part. -/
def Envelope.allJoined (e : Envelope) : Bool := e.queues.all (fun q => e.parts.any (fun x => x.q == q))

/-- Makes every dispatched member queue but one skip its part; queues that reach their env.join later skip it then. -/
def skipEnvelope (uid : Nat) (except_ : Option Nat) (s : State) : State :=
  match s.env uid with
  | none => s
  | some e =>
    let s := (e.parts.filter (fun x => some x.q != except_)).foldl (fun s x => skipPart e x.q s) s
    modEnv uid (fun e => { e with status := if e.allJoined then .ended else .skipping, booked := [], fences := [] }) s

/-- Forgets envelopes that have ended. -/
def purgeEnvs (s : State) : State :=
  modTcs (fun t => { t with envs := t.envs.filter (fun e => e.status != .ended) }) s

/-- The next envelope of a partition reaches the head of its admission queue (R181). -/
def stampHead (p : Nat) (s : State) : State :=
  match tabGet [] s.tcs.admQueue p with
  | [] => s
  | uid :: _ => modEnv uid (fun e => { e with tA := s.now, kpAt := s.tcs.keepers }) s
/-- Takes an envelope out of its admission queue. -/
def leaveQueue (p uid : Nat) (s : State) : State :=
  let l := tabGet [] s.tcs.admQueue p
  let s1 := modTcs (fun t => { t with admQueue := tabPut [] t.admQueue p (l.filter (fun u => u != uid)) }) s
  if l.head? = some uid then stampHead p s1 else s1

/-! ### Projection and revocation (R189–R192) -/

/-- Commands of an envelope that have not completed: in flight, or still in the ring. -/
def remainingNodes (s : State) (e : Envelope) : List Node :=
  ((e.queues.map (fun q =>
    let fl := (s.tcs.inflight.filter (fun f => f.q == q && f.env == some e.uid && ! isMarker (opcodeOf f.word))).map
      (fun f => { q := q, pos := f.pos, w := f.word : Node })
    let rest := match e.parts.find? (fun x => x.q == q) with
      | some x =>
        if x.close.isSome then []
        else
          let from_ := if (s.queue q).head = x.first then x.first + 1 else (s.queue q).head
          ((scanPart s q e.envId.toNat (span from_ (s.queue q).tail) [] false).map Prod.fst).getD []
      | none => ((partOf s e q).map Prod.fst).getD []
    fl ++ rest.filter (fun n => ! isMarker (opcodeOf n.w))))).flatten

/-- The ledger and the backlog that stand before an envelope: what the envelopes admitted earlier hold (R187, R188). -/
def behindEarlier (e : Envelope) (s : State) : State :=
  modTcs (fun t => { t with envs := t.envs.map (fun x =>
    if x.admSeq < e.admSeq then x
    else { x with booked := [], fences := [], bytesT1 := 0, bytesT2r := 0, bytesT2w := 0, bytesLink := 0 }) }) s

/-- Arrays on which a command of an admitted envelope has started: those with fewer commands left to start than were
booked there. The start grant of R187 belongs to the first command alone. -/
def grantedArrays (s : State) (e : Envelope) (rest : List Node) : List Nat :=
  let left := (rest.filter (fun n => ! (s.inflight n.q n.pos).any (fun f => f.started))).filterMap (fun n => arrayOf n.w)
  ((e.booked.map Prod.fst).eraseDups).filter (fun l =>
    decide ((left.filter (fun k => k == l)).length < (e.booked.filter (fun b => b.1 == l)).length))

/-- P in ns of CNT_TIME (R189), none when unbounded: an offline array is named, a reservation has fallen to zero. -/
def projection (s : State) (e : Envelope) (drawNs : Nat) : Option Rat :=
  let ns := remainingNodes s e
  if ns.any (fun n => (arrayOf n.w).any (fun l => s.offline l)) then none
  else
    let s0 := behindEarlier e s
    let run (n : Node) : Nat :=
      match s.inflight n.q n.pos with
      | some f => if f.started then min (s.now - f.since) (((cmdCost s0 e.part (usedBytes s0 e.part ns) f.word).getD 0).floor.toNat) else 0
      | none => 0
    let granted := grantedArrays s e ns
    (schedule s0 e.part 0 s.now (usedBytes s0 e.part ns) ns granted run).map (fun c =>
      (s.now : Rat) + ratMax (c.finish.map Prod.snd) + (drawNs : Rat) + 2000)

/-- Margin used by a projection in µs (R189, R437). -/
def marginUsed (e : Envelope) (p : Rat) : Nat := ((p - ((e.tA + e.w * 1000 : Nat) : Rat)) / 1000).ceil.toNat

/-- Counts a draw on the margin (R189, R437): the largest, and once per envelope that drew, when it ends. -/
def noteDraw (uid used : Nat) (s : State) : State :=
  match s.env uid with
  | none => s
  | some e =>
    if used = 0 then s
    else
      modEnv uid (fun e => { e with drew := true })
        (modCnt (fun c => { c with selv := tabMod {} c.selv e.part (fun v => { v with maxUs := max v.maxUs (min used (2 ^ 28 - 1)) }) }) s)

/-- Counts an envelope that drew, once. -/
def countDrawn (uid : Nat) (s : State) : State :=
  match s.env uid with
  | none => s
  | some e =>
    if e.drew && ! e.counted then
      modEnv uid (fun e => { e with counted := true }) <| modCnt (fun c => { c with selv := tabMod {} c.selv e.part (fun v => { v with drawn := satAdd 31 v.drawn 1 }) }) s
    else s

/-- Revokes a guarantee (R190–R192) at a projection that `drawNs` raises: reason 1 margin, 2 capacity, 3 keeper
interference. -/
def revoke (uid reason drawNs : Nat) (s : State) : State :=
  match s.env uid with
  | none => s
  | some e =>
    let p := projection s e drawNs
    let nb : Nat × Nat := match (if reason = 3 then none else p) with
      | none => (0xFFFFFFFF, e.m)
      | some x =>
        let rest := ((x - (s.now : Rat)) / 1000).ceil.toNat
        let m := marginM (s.part e.part) rest
        (((x - (e.tA : Rat)) / 1000).ceil.toNat + m, m)
    let used := match p with | some x => marginUsed e x | none => 0
    let s := noteDraw uid used s
    let s := countAdm e.part (fun c => { c with revoked := satAdd 20 c.revoked 1 }) s
    let s := countDrawn uid s
    let s := respond e 3 nb.1 nb.2 reason s
    let s := eventP 0x0310 2 e.part
      (le 1 e.part ++ le 2 e.envId.toNat ++ le 1 reason ++ le 4 e.bound ++ le 4 nb.1 ++ le 4 used) s
    modEnv uid (fun e => { e with bound := nb.1, m := nb.2, revoked := true, turn := s.nextTurn, dead := reason == 3 || e.dead }) s

/-- Resources of R185 as event 0x0311 numbers them. -/
inductive CapRes where
  | arrays (l : Nat)
  | t1
  | link (port : Nat)
  deriving DecidableEq, Repr

/-- An admitted envelope uses a resource. -/
def usesCap (s : State) (e : Envelope) (r : CapRes) : Bool :=
  e.status == .admitted &&
  (match r with
    | .arrays l => e.booked.any (fun b => b.1 == l) && s.arrayOwner l == some e.part
    | .t1 => e.usesT1
    | .link k => e.usesLink && (s.part e.part).roles.toNat / 16 ^ k % 16 != 0)

/-- Present reservation of a partition on a resource of R192. -/
def capRes (s : State) (p : Nat) (r : CapRes) : Nat :=
  match r with
  | .arrays _ => ((s.arraysOf p).filter (fun l => ! s.offline l)).length
  | .t1 => (s.res p).t1
  | .link k => if (s.part p).roles.toNat / 16 ^ k % 16 = 0 then 0 else ((s.res p).link).getD k 0

/-- Reduces a reservation and records event 0x0311 (R192). -/
def cutRes (p : Nat) (r : CapRes) (old new : Nat) (s : State) : State :=
  let k := match r with | .arrays _ => 1 | .t1 => 2 | .link _ => 5
  let cur := s.res p
  let set (v : Res) (s : State) : State := modMem (fun m => { m with res := tabInsert p v (tabDel m.res p) }) s
  let s := match r with
    | .arrays _ => s
    | .t1 => set { cur with t1 := new } s
    | .link e => set { cur with link := (cur.link.zipIdx).map (fun x => if x.2 = e then new else x.1) } s
  eventP 0x0311 2 p (le 1 p ++ le 1 k ++ le 4 old ++ le 4 new) s

/-- Order of R192: class 3 first, then 2, then 1; within a class the latest admission first. -/
def capOrder (s : State) (r : CapRes) : List Envelope :=
  let es := s.tcs.envs.filter (fun e => usesCap s e r)
  let cls (k : Nat) : List Envelope :=
    sortBy (fun a b => decide (b.turn ≤ a.turn)) (es.filter (fun e => prioClass (s.part e.part) == k))
  cls 3 ++ cls 2 ++ cls 1

/-- One envelope of the order: revoked, its partition's reservation cut; a reservation is reduced before the new bound
is computed. -/
def capCutEnv (r : CapRes) (acc : State × Nat) (e : Envelope) : State × Nat :=
  if acc.2 = 0 then acc
  else
    let old := capRes acc.1 e.part r
    let cut := min (match r with | .arrays _ => 1 | _ => old) acc.2
    let s := if cut = 0 then acc.1 else cutRes e.part r (match r with | .arrays _ => old + 1 | _ => old)
      (match r with | .arrays _ => old | _ => old - cut) acc.1
    (revoke e.uid 2 0 s, acc.2 - cut)

/-- Capacity of a resource falls (R192). -/
def capacityLoss (r : CapRes) (remaining : Nat) (s : State) : State :=
  let total := (s.enabledParts.map (fun p => capRes s p r)).sum
  let short := match r with | .arrays _ => 1 | _ => total - remaining
  let a := (capOrder s r).foldl (capCutEnv r) (s, short)
  let rest := sortBy (fun x y => decide (prioClass (s.part y) < prioClass (s.part x)) ||
      (prioClass (s.part x) == prioClass (s.part y) && decide (y ≤ x)))
    (s.enabledParts.filter (fun p => ! a.1.tcs.envs.any (fun e => e.part == p && usesCap a.1 e r)))
  match r with
  | .arrays l =>
    if a.2 = 0 then a.1
    else
      match s.arrayOwner l with
      | some p => let n := capRes a.1 p r; cutRes p r (n + 1) n a.1
      | none => a.1
  | _ => (rest.foldl (fun acc p =>
      let old := capRes acc.1 p r
      let cut := min old acc.2
      if cut = 0 then acc else (cutRes p r old (old - cut) acc.1, acc.2 - cut)) a).1

end Sys2Proof.Machine
end

