-- ==== Sys2Proof/Machine/Fault.lean ====
section
/-! DEFINITION. What the ECC errors of a step do beside their events (R41, R228–R231, R239): retirement of a T1 channel
and the soft-decode record of a flash block. -/

namespace Sys2Proof.Machine

/-- Updates the live hardware facts; the WMC writes the record within 100 ms (R73, R231, R287; HW_RECORD_WRITE). -/
def modHw (f : HwFacts → HwFacts) (s : State) : State :=
  modWmc (fun w => { w with hwDirty := true }) (modMxa (fun m => { m with hw := f m.hw }) s)

/-- Event 0x0409 (R231): phase 1 started, 2 ended. -/
def eventRetireT1 (ch phase : Nat) (s : State) : State :=
  eventD 0x0409 1 (le 2 ch ++ le 1 phase ++ le 3 s.mem.t1Pages ++ le 4 s.mem.t1Rate) s

/-- Committed and pinned bolts of all partitions in T1 fit in a number of pages. -/
def State.t1Fits (s : State) (pages : Nat) : Bool :=
  decide ((allParts.map (fun p => s.committed p .t1 + s.pinned p .t1)).sum ≤ pages * 32)

/-- Capacity of T1 after a retirement, in pages. -/
def t1Less (s : State) : Nat := s.mem.t1Pages - 3968

/-- Retires a T1 channel, or defers it to the next reset that reinitialises T1 (R231). -/
def retireT1 (ch : Nat) (s : State) : State :=
  if s.mxa.hw.t1Retired.contains ch || s.mem.t1Deferred.contains ch then s
  else if ! s.t1Fits (t1Less s) then modMem (fun m => { m with t1Deferred := m.t1Deferred ++ [ch] }) s
  else
    let s := modMem (fun m =>
      { m with t1Pages := m.t1Pages - 3968, t1Rate := m.t1Rate - 17000, t1Rehash := m.t1Rehash ++ [ch] }) s
    let s := modHw (fun h => { h with t1Retired := h.t1Retired ++ [ch] }) s
    let s := eventRetireT1 ch 1 s
    let s := shrinkTier .t1 (s.mem.bolts.length + 1) s
    capacityLoss .t1 s.mem.t1Rate s

/-- Notes an uncorrectable error of a T1 channel; the third within 24 hours retires it (R231). -/
def noteT1Error (ch : Nat) (s : State) : State :=
  let day := 86400 * 1000000000
  let keep := (s.mem.t1Errors ++ [(ch, s.now)]).filter (fun e => decide (s.now < e.2 + day))
  let s := modMem (fun m => { m with t1Errors := keep }) s
  if 3 ≤ (keep.filter (fun e => e.1 == ch)).length then retireT1 ch s else s

/-- One error: its event, then what it makes due. -/
def noteError (agent : Nat) (e : ReadError) (s : State) : State :=
  let s1 := eventError agent e s
  match e with
  | .t1Uncorrectable ch _ _ _ _ _ => noteT1Error ch.val s1
  | .t1Unmapped ch _ _ => noteT1Error ch.val s1
  | .t1MapStore ch _ _ => noteT1Error ch.val s1
  | .t1LinkTraining ch => retireT1 ch.val s1
  | .flashCorrected _ blk _ _ =>
    if (s1.fblock blk.toNat).pages.isEmpty then s1
    else modBlock blk.toNat (fun k => { k with soft := k.soft ++ [s1.now] }) s1
  | _ => s1

/-- The errors that the reads of a step met, in order. -/
def noteErrors (agent : Nat) (errs : List ReadError) (s : State) : State :=
  errs.foldl (fun s e => noteError agent e s) s

end Sys2Proof.Machine
end

