-- ==== Sys2Proof/Machine/Gab.lean ====
section
/-! DEFINITION. The gradient accumulation buffer (R107–R121): entries, bands, contributions and their turns. A memory-side
entry's elements lie in T1 at ms_base; the layout of its band headers is not given, so the bytes that hold them are
free values and the bands themselves are state (notes/assumptions/11.md). -/

namespace Sys2Proof.Machine

/-! ### Entries -/

/-- Bands of an entry (R109). -/
def GabEntry.nBands (e : GabEntry) : Nat := ceilDiv e.rows 256
/-- Bytes of the padded band headers (R109). -/
def GabEntry.headerBytes (e : GabEntry) : Nat := 64 * ceilDiv (8 * e.nBands) 64
/-- DVA of an element of a memory-side entry (R109). -/
def GabEntry.elemDva (e : GabEntry) (i j : Nat) : Nat := e.msBase + e.headerBytes + 5 * (i * e.cols + j)
/-- The bound entry of a parameter. -/
def State.gabEntry (s : State) (p param : Nat) : Option GabEntry :=
  (tabGet [] s.gab.maps p).find? (fun e => e.param == param)
/-- Updates the bound entry of a parameter. -/
def modEntry (p param : Nat) (f : GabEntry → GabEntry) (s : State) : State :=
  modGab (fun g => { g with maps := tabMod [] g.maps p (fun l => l.map (fun e => if e.param = param then f e else e)) }) s

/-- The memory-side adders' access (R206, R474). -/
def adderAcc (p q : Nat) (pos : BitVec 32) : Acc :=
  { part := p, agent := 6, t0only := false, cmd := none, q := q, pos := pos.toNat }

/-- A write made directly in T1: it invalidates the copies above (R211). -/
def adderWrite (a : Acc) (dva : Nat) (data : List Byte) (s : State) : State :=
  storeBytes a dva data ((boltPieces dva data.length).foldl (fun s x =>
    match s.regionAt a.part x.1 with
    | none => s
    | some r =>
      let b := x.1 / 65536
      let sl := if r.twoVer then s.curSlot a.part b else 0
      let k := (s.bolt a.part sl b).drop .t0
      setBolt a.part sl b ((if r.pinOf b = some .t2 then k else k.drop .t2).withCopy .t1 s.nowUs) s) s)

/-- Element (i, j) of an entry. -/
def State.gabElem (s : State) (p : Nat) (e : GabEntry) (i j : Nat) : BitVec 40 :=
  if e.ms then BitVec.ofNat 40 (unle (s.readBytes (adderAcc p 0 0) (e.elemDva i j) 5))
  else tabGet 0 e.elems (i * e.cols + j)

/-- Writes element (i, j) of an entry. -/
def setGabElem (p : Nat) (e : GabEntry) (i j : Nat) (v : BitVec 40) (s : State) : State :=
  if e.ms then adderWrite (adderAcc p 0 0) (e.elemDva i j) (le 5 v.toNat) s
  else modEntry p e.param (fun x => { x with elems := tabPut 0 x.elems (i * e.cols + j) v }) s

/-- Bytes that hold the header of a band of a memory-side entry: free values (notes/assumptions/11.md). -/
def writeHeader (p : Nat) (e : GabEntry) (band : Nat) (s : State) : State :=
  if e.ms then
    bumpFree 1 (adderWrite (adderAcc p 0 0) (e.msBase + 8 * band) ((List.range 8).map (Config.freeByte s.free)) s)
  else s

/-- Replaces a band header (R110). -/
def setBand (p : Nat) (e : GabEntry) (band : Nat) (f : Band → Band) (s : State) : State :=
  writeHeader p e band (modEntry p e.param (fun x => { x with bands := tabMod {} x.bands band f }) s)

/-- Sets every element to +0 and every header to zero; clears the gradient-norm partial (R118). -/
def zeroEntry (p : Nat) (e : GabEntry) (s : State) : State :=
  let s := modEntry p e.param (fun x => { x with bands := [], elems := [], grad := {} }) s
  if e.ms then
    let s := adderWrite (adderAcc p 0 0) (e.msBase + e.headerBytes) (List.replicate (5 * e.rows * e.cols) 0#8) s
    (List.range e.nBands).foldl (fun s b => writeHeader p e b s) s
  else s

/-! ### Uncorrectable reads (R228, R229, R239) -/

/-- Stored bits at a DVA of a partition, in the copy that an access reads, or, in another partition, its plain copy. -/
def putStored (a : Acc) (q : Part) (addr : BitVec 52) (stored : List Byte) (s : State) : State :=
  let b := if q.val = a.part then a else planAcc q.val
  (stored.zipIdx).foldl (fun s x =>
    let dva := addr.toNat + x.2
    modMem (fun m => { m with bytes := rawPut m.bytes (byteKey b.part (s.readSlot b dva) dva) x.1 }) s) s

/-- Stored bits of an uncorrectable read are what the copy it read holds from then on; `a` is the access that met it. -/
def keepStored (a : Acc) (errs : List ReadError) (s : State) : State :=
  errs.foldl (fun s e =>
    match e with
    | .t0Uncorrectable _ addr q stored => putStored a q addr stored s
    | .t1Uncorrectable _ _ _ addr q stored => putStored a q addr stored s
    | .flashUncorrectable _ _ _ addr q stored => putStored a q addr stored s
    | .gabUncorrectable param q stored =>
      modEntry q.val param.toNat (fun e => { e with elems := stored.foldl (fun t x =>
        if x.1 < e.rows * e.cols then tabPut 0 t x.1 x.2 else t) e.elems }) s
    | _ => s) s

/-- A step whose reads met some errors: they return the stored bits, and their events follow what the step does. -/
def meetErrors (a : Acc) (errs : List ReadError) (body : State → State) (s : State) : State :=
  noteErrors a.agent errs (body (keepStored a errs s))

/-! ### Contributions (R112–R115) -/

/-- An exact value as plain data: sign, magnitude, exponent, kind (0 finite, 1 infinite, 2 NaN). -/
def packVal : FVal → Bool × Nat × Int × Nat
  | .fin s m e => (s, m, e, 0)
  | .inf s => (s, 0, 0, 1)
  | .nan => (false, 0, 0, 2)
/-- The value that `packVal` packed. -/
def unpackVal (v : Bool × Nat × Int × Nat) : FVal :=
  match v.2.2.2 with
  | 0 => .fin v.1 v.2.1 v.2.2.1
  | 1 => .inf v.1
  | _ => .nan

/-- Event 0x0443 (R135): command position, origin and size of what was named. -/
def eventGabRef (p param : Nat) (pos : BitVec 32) (origin rows cols : Nat) (s : State) : State :=
  eventP 0x0443 2 p (le 1 p ++ le 2 param ++ le 4 pos.toNat ++ le 6 origin ++ le 6 (cols % 2 ^ 24 + rows % 2 ^ 24 * 2 ^ 24)) s

/-- A contribution reaches its entry (R112, R115): it waits for its turn at each band it covers; a discarded one (R127)
only advances. One that names no entry or leaves it records 0x0443 and completes. -/
def queueContribution (f : Inflight) (discarded : Bool) (vals : List FVal) (s : State) : State :=
  let x := (mxClampFor none (mxFields f.word)).1
  let p := partOfQ f.q
  let row0 := x.origin / 2 ^ 24
  let col0 := x.origin % 2 ^ 24
  let seq := (x.tensor.extractLsb' 0 16).toNat
  match (s.gabEntry p x.descC).filter (fun e => decide (row0 + x.m ≤ e.rows) && decide (col0 + x.n ≤ e.cols)) with
  | none => if discarded then s else markDone f.q f.pos (eventGabRef p x.descC f.pos x.origin x.m x.n s)
  | some _ =>
    let bands := (List.range ((row0 + x.m - 1) / 256 + 1 - row0 / 256)).map (fun i => row0 / 256 + i)
    let c : Contribution :=
      { q := f.q, pos := f.pos, ord := f.ord, part := p, param := x.descC, seq := seq, k := x.k, discarded := discarded, row0 := row0,
        col0 := col0, rows := x.m, cols := x.n, vals := vals.map packVal, todo := bands,
        since := bands.map (fun b => (b, s.now)), told := false }
    modGab (fun g => { g with contribs := g.contribs ++ [c] }) s

/-- A pending contribution of a command. -/
def State.contrib (s : State) (q : Nat) (pos : BitVec 32) : Option Contribution :=
  s.gab.contribs.find? (fun c => c.q == q && c.pos == pos)

/-- How far a sequence number is ahead of a band (R114): 0 its turn, 1 to 32,767 ahead, else passed. -/
def seqAhead (seq next : Nat) : Nat := (seq + 65536 - next % 65536) % 65536

/-- One element added (R113): the new state and whether the rounding overflowed. -/
def addElem (p : Nat) (e : GabEntry) (i j : Nat) (x : FVal) (acc : State × Bool) : State × Bool :=
  let r := fl40 ((ofFa40 (acc.1.gabElem p e i j)).add x)
  (setGabElem p e i j (BitVec.ofNat 40 (encodeFmt .fa40 r.1)) acc.1, acc.2 || r.2)

/-- The rows of a contribution that lie in a band are added, and the band advances (R113, R114). -/
def addBand (c : Contribution) (e : GabEntry) (band : Nat) (s : State) : State :=
  let here := (c.vals.zipIdx).filter (fun v => (c.row0 + v.2 / c.cols) / 256 == band)
  let r := here.foldl (fun acc v => addElem c.part e (c.row0 + v.2 / c.cols) (c.col0 + v.2 % c.cols) (unpackVal v.1) acc)
    (s, false)
  let t := (tabGet {} e.bands band).terms
  let t' := termAdd t c.k
  let lg := longSum t t'
  let s1 := setBand c.part e band (fun b =>
    { b with nextSeq := (b.nextSeq + 1) % 65536, terms := t', ovf := b.ovf || r.2, long := b.long || lg }) r.1
  if lg then countAcc c.part 0 0 1 s1 else s1

/-- Replaces a pending contribution, or ends it when no band is left (R115). -/
def putContrib (c : Contribution) (s : State) : State :=
  if c.todo.isEmpty then
    let s := modGab (fun g => { g with contribs := g.contribs.filter (fun d => ! (d.q == c.q && d.pos == c.pos)) }) s
    if c.discarded then s else markDone c.q c.pos s
  else modGab (fun g => { g with contribs := g.contribs.map (fun d => if d.q = c.q ∧ d.pos = c.pos then c else d) }) s

/-- Unmapped storage that a band of a memory-side entry meets, once per contribution (R210). -/
def bandUnmapped (s : State) (c : Contribution) (e : GabEntry) (band : Nat) : Option Nat :=
  let hit (b : Nat) : Option Nat :=
    s.firstUnmapped c.part (((List.range c.rows).filter (fun i => (c.row0 + i) / 256 == b)).map (fun i =>
      (e.elemDva (c.row0 + i) c.col0, 5 * c.cols)))
  let before := (c.since.map Prod.fst).filter (fun b => ! c.todo.contains b)
  if ! e.ms || before.any (fun b => (hit b).isSome) then none else hit band

/-- A command zeroes the entry of a parameter: tx.gzero of it or of all, or a flush with zero_after (R118, R119). -/
def zeroesEntry (w : CmdWord) (param : Nat) : Bool :=
  (opcodeOf w == 0x3E && (fld w 47 1 == 1 || fld w 120 16 == param)) ||
  (opcodeOf w == 0x3F && fld w 47 1 == 1 && fld w 120 16 == param)

/-- A zeroing that was issued before a contribution has still to take effect: the contribution adds after it (R121;
notes/assumptions/78.md). -/
def State.zeroPending (s : State) (c : Contribution) : Bool :=
  s.tcs.inflight.any (fun g => partOfQ g.q == c.part && decide (g.ord < c.ord) && ! g.done && zeroesEntry g.word c.param)

/-- A contribution at a band: it adds in its turn, passes over a band that has passed it, or waits (R114, R115, R121,
R127). -/
def contribStep (c : Contribution) (band : Nat) (s : State) : State :=
  match s.gabEntry c.part c.param with
  | none => s
  | some e =>
    if ! c.todo.contains band || s.zeroPending c then s
    else
      let next := (tabGet {} e.bands band).nextSeq
      let d := seqAhead c.seq next
      let c' := { c with todo := c.todo.filter (fun b => b != band) }
      if d = 0 then
        if c.discarded then
          putContrib c' (setBand c.part e band (fun b => { b with nextSeq := (b.nextSeq + 1) % 65536 }) s)
        else
          let um := bandUnmapped s c e band
          putContrib c' (eventUnmapped (adderAcc c.part c.q c.pos) um (addBand c e band s))
      else if d < 32768 then s
      else
        let s := if c.discarded || c.told then s
          else eventP 0x0441 2 c.part (le 1 c.part ++ le 2 c.param ++ le 2 c.seq ++ le 2 band ++ le 2 next) s
        putContrib { c' with told := true } s

/-- A band's wait exceeds 10 ms (R115): every band not added to and not passed takes seq + 1. -/
def contribTimeout (c : Contribution) (band : Nat) (s : State) : State :=
  match s.gabEntry c.part c.param with
  | none => s
  | some e =>
    let next := (tabGet {} e.bands band).nextSeq
    let d := seqAhead c.seq next
    if ! c.todo.contains band || s.zeroPending c || d = 0 || 32768 ≤ d || s.now ≤ tabGet 0 c.since band + 10000000 then s
    else
      let s := if c.discarded then s
        else eventP 0x0442 2 c.part (le 1 c.part ++ le 2 c.param ++ le 2 band ++ le 2 next ++ le 2 c.seq) s
      let s := c.todo.foldl (fun s b =>
        if seqAhead c.seq (tabGet {} e.bands b).nextSeq < 32768 then
          setBand c.part e b (fun x => { x with nextSeq := (c.seq + 1) % 65536 }) s
        else s) s
      putContrib { c with todo := [] } s

end Sys2Proof.Machine
end

