-- ==== Sys2Proof/Machine/Engine.lean ====
section
/-! DEFINITION. What every command at an engine shares: when it may start (R124, R170, R188), how a late command is
discarded (R127), and the wrappers that the rows of the families call. A row whose command is not at its engine, or may
not start yet, leaves the state as it is: the event it names does not take place (notes/assumptions/12.md). -/

namespace Sys2Proof.Machine

/-- The engine of a command: 0 the control core of its queue, 1 an array with its vector unit, 2 the migration engine,
3 the collective engine, 4 the flash tier, 5 the GAB (R168, R169, R185). -/
def engineClass (op : Nat) : Nat :=
  if 0x10 ≤ op && op ≤ 0x2F then 1 else if 0x30 ≤ op && op ≤ 0x37 then 2 else if 0x38 ≤ op && op ≤ 0x3C then 4
  else if 0x3D ≤ op && op ≤ 0x3F then 5 else if 0x50 ≤ op && op ≤ 0x5F then 3 else 0

/-- A command that operates on a keeper: kp.set, kp.add, kp.cas (R174). -/
def keeperOp (w : CmdWord) : Bool := 0x41 ≤ opcodeOf w && opcodeOf w ≤ 0x43

/-- Two commands meet at one engine in order: an array takes commands of every queue, another engine orders the
commands of one queue (R170, R171), and a control core issues its queues' keeper operations in order (R175;
notes/assumptions/76.md). -/
def sameEngine (a b : Inflight) : Bool :=
  match arrayOf a.word, arrayOf b.word with
  | some x, some y => x == y && partOfQ a.q == partOfQ b.q
  | none, none =>
    (a.q == b.q && engineClass (opcodeOf a.word) == engineClass (opcodeOf b.word)) ||
    (keeperOp a.word && keeperOp b.word && a.q % 8 == b.q % 8)
  | _, _ => false

/-- The in-flight commands that were dispatched before one, in order. -/
def State.earlier (s : State) (f : Inflight) : List Inflight :=
  s.tcs.inflight.takeWhile (fun g => ! (g.q == f.q && g.pos == f.pos))

/-- An epoch fence of the partition waits to close (R124). -/
def State.fenceOpen (s : State) (p : Nat) : Bool :=
  s.tcs.inflight.any (fun g => partOfQ g.q == p && opcodeOf g.word == 0x64 && g.started && ! g.done)

/-- An admitted envelope that an earlier admission instant puts before another. -/
def admittedBefore (a b : Envelope) : Bool :=
  a.status == .admitted && (decide (a.tA < b.tA) || (a.tA == b.tA && decide (a.uid < b.uid)))

/-- Level of an array in percent of its full-load current (R65–R67). An array at the floor draws what fill_floor says at
that moment: where a configuration swap changes fill_floor, its level moves at once, with no window grant, the spec being
silent on it (DESIGN CHOICE, notes/assumptions/71.md). -/
def State.levelPct (s : State) : Level → Nat
  | .idle => 0
  | .floor => s.dev.fillFloor
  | .full => 100

/-- Admission lets a command start on the array it names (R188): an open command that reached the array before an
envelope's admission instant is in its issue order already (R98; notes/assumptions/12.md). The array's start has been
granted, or needs no grant because the array draws 100 % (R66). A command that the array will reject for its array holds nothing (R101). -/
def State.arrayFree (s : State) (f : Inflight) : Bool :=
  match (arrayOf f.word).filter (fun l => s.arrayOwner l == some (partOfQ f.q) && ! s.offline l) with
  | none => true
  | some l =>
    decide (s.levelPct (s.arr l).level = 100) &&
    match (f.env.bind s.env).filter (fun e => e.status == .admitted) with
    | some e => ! s.tcs.envs.any (fun o => admittedBefore o e && (remainingNodes s o).any (fun n => arrayOf n.w == some l))
    | none => ! s.tcs.envs.any (fun o => o.status == .admitted && o.booked.any (fun b => b.1 == l) && decide (o.tA ≤ f.since))

/-- A command reads or changes the flag byte or the term count of an accumulator tile (R54, R83, R93, R143). -/
def touchesFlag (w : CmdWord) : Bool :=
  let x := mxFields w
  opcodeOf w == 0x12 || opcodeOf w == 0x13 || opcodeOf w == 0x14 ||
  ((opcodeOf w == 0x10 || opcodeOf w == 0x11) && x.dst == 1) ||
  (0x20 ≤ opcodeOf w && opcodeOf w ≤ 0x25 && ! (vop (vxFields w).dst).isTile)

/-- An earlier command of the array holds its accumulator tiles: a product to the GAB that awaits its turn names both, and
their flag bytes and term counts change only once it has completed (R99). -/
def State.tileHeld (s : State) (f : Inflight) : Bool :=
  touchesFlag f.word && (s.earlier f).any (fun g =>
    g.started && ! g.done && (arrayOf g.word).isSome && arrayOf g.word == arrayOf f.word && partOfQ g.q == partOfQ f.q)

/-- No earlier command of a command's engine has still to start before it (R170, R171, R175). -/
def State.inOrder (s : State) (f : Inflight) : Bool :=
  ! (s.earlier f).any (fun g => sameEngine g f && ! g.started && (g.q == f.q || s.arrayFree g))

/-- Admission sequence of the admitted envelope that holds a command, none for an open command (R180, R185). -/
def State.admRank (s : State) (f : Inflight) : Option Nat :=
  ((f.env.bind s.env).filter (fun e => e.status == .admitted)).map (fun e => e.admSeq)

/-- Admitted work is served before another command: the earlier admitted before the later, and all of it before open
work (R185). -/
def servedBefore (a b : Option Nat) : Bool :=
  match a, b with
  | some x, some y => decide (x < y)
  | some _, none => true
  | none, _ => false

/-- The migration engine and the flash tier have work of the partition before them that they serve first (R185); work
that its own queue or an open fence holds does not count. -/
def State.outranked (s : State) (f : Inflight) : Bool :=
  let k := engineClass (opcodeOf f.word)
  (k == 2 || k == 4) && s.tcs.inflight.any (fun g =>
    engineClass (opcodeOf g.word) == k && partOfQ g.q == partOfQ f.q && ! g.started && ! g.done && s.inOrder g &&
    ! (k == 4 && s.fenceOpen (partOfQ f.q)) && servedBefore (s.admRank g) (s.admRank f))

/-- A command may start: in order at its engine, its array and tiles free, nothing served before it pending, and not held
by an open fence. -/
def State.mayStart (s : State) (f : Inflight) (reads : List (Nat × Nat)) : Bool :=
  ! s.tileHeld f && ! s.outranked f && ! f.started && ! f.done && s.inOrder f && s.arrayFree f &&
  ! (s.fenceOpen (partOfQ f.q) && reads.any (fun r => s.touchesParam (partOfQ f.q) r.1 r.2))

/-- A command is late: it reads a parameter region of a later version, or its envelope holds a late one (R125–R127). -/
def State.isLate (s : State) (f : Inflight) (reads : List (Nat × Nat)) : Bool :=
  ((f.env.bind s.env).map (fun e => e.late)).getD false ||
  reads.any (fun r => s.lateRange (partOfQ f.q) f.step.toNat f.update r.1 r.2)

/-- Discards a late command (R127, R129): completion actions only; a contribution goes on to advance its bands. -/
def discardCmd (f : Inflight) (s : State) : State :=
  let p := partOfQ f.q
  let fresh := ((f.env.bind s.env).map (fun e => ! e.late)).getD false
  let s := modCnt (fun c => { c with late := tabMod {} c.late p (fun x =>
    { x with commands := satAdd 28 x.commands 1, envelopes := if fresh then satAdd 20 x.envelopes 1 else x.envelopes }) }) s
  let s := match f.env with
    | some u => modEnv u (fun e => { e with late := true }) s
    | none => s
  let s := modInflight f.q f.pos (fun g => { g with started := true, done := true, late := true }) s
  if (contribOf f.word).isSome then queueContribution f true [] s else s

/-- What a command's turn at its engine comes to. -/
inductive Gate where
  | hold
  | discard (f : Inflight)
  | go (f : Inflight)
  deriving DecidableEq, Repr

/-- Whether the command of a queue at a ring index is of the named kind and may start. -/
def State.gate (s : State) (kind : CmdWord → Bool) (q : Nat) (pos : BitVec 32)
    (reads : Inflight → State → List (Nat × Nat)) : Gate :=
  match s.inflight q pos with
  | none => .hold
  | some f =>
    if ! kind f.word || ! s.mayStart f (reads f s) then .hold
    else if s.isLate f (reads f s) then .discard f
    else .go f

/-- A command starts at its engine. The array it runs on is at full current then, and a pending request to step down is
withdrawn (R66). -/
def startCmd (f : Inflight) (s : State) : State :=
  let s1 := markStarted f.q f.pos s
  match (arrayOf f.word).filter (fun l => s.arrayOwner l == some (partOfQ f.q) && ! s.offline l) with
  | some l => modArr l (fun a => { a with level := .full, request := none }) s1
  | none => s1

/-- A command that completes in the step that runs it. -/
def runNow (kind : CmdWord → Bool) (q : Nat) (pos : BitVec 32) (reads : Inflight → State → List (Nat × Nat))
    (body : Inflight → State → State) (s : State) : State :=
  match s.gate kind q pos reads with
  | .hold => s
  | .discard f => discardCmd f s
  | .go f => markDone q pos (body f (startCmd f s))

/-- A command that starts in this step and completes in a later one (or in this one, when its body says so). -/
def runLong (kind : CmdWord → Bool) (q : Nat) (pos : BitVec 32) (reads : Inflight → State → List (Nat × Nat))
    (body : Inflight → State → State) (s : State) : State :=
  match s.gate kind q pos reads with
  | .hold => s
  | .discard f => discardCmd f s
  | .go f => body f (startCmd f s)

/-- `runNow` for a command that accesses memory: it starts once its accesses can be made (R206, R207). -/
def runNowAt (kind : CmdWord → Bool) (q : Nat) (pos : BitVec 32) (reads : Inflight → State → List (Nat × Nat))
    (accs : Inflight → State → List Access) (body : Inflight → State → State) (s : State) : State :=
  match s.gate kind q pos reads with
  | .hold => s
  | .discard f => discardCmd f s
  | .go f => whenReached (accs f s) (fun s => markDone q pos (body f (startCmd f s))) s

/-- `runLong` for a command that accesses memory at its start. -/
def runLongAt (kind : CmdWord → Bool) (q : Nat) (pos : BitVec 32) (reads : Inflight → State → List (Nat × Nat))
    (accs : Inflight → State → List Access) (body : Inflight → State → State) (s : State) : State :=
  match s.gate kind q pos reads with
  | .hold => s
  | .discard f => discardCmd f s
  | .go f => whenReached (accs f s) (fun s => body f (startCmd f s)) s

/-- Reads of some ranges. -/
def readsOf (a : Acc) (l : List (Nat × Nat)) : List Access := l.map (fun r => { acc := a, write := false, dva := r.1, len := r.2 })
/-- Writes of some ranges. -/
def writesOf (a : Acc) (l : List (Nat × Nat)) : List Access := l.map (fun r => { acc := a, write := true, dva := r.1, len := r.2 })

/-- Commands of one opcode. -/
def isOp (op : Nat) (w : CmdWord) : Bool := opcodeOf w == op
/-- A command that reads nothing under R125. -/
def noReads (_ : Inflight) (_ : State) : List (Nat × Nat) := []

/-- Positions of the first command that has started and not completed, by queue and ring index. -/
def State.running (s : State) (kind : CmdWord → Bool) (q : Nat) (pos : BitVec 32) : Option Inflight :=
  (s.inflight q pos).filter (fun f => kind f.word && f.started && ! f.done)

end Sys2Proof.Machine
end

