-- ==== Sys2Proof/Machine/Matrix.lean ====
section
/-! DEFINITION. Matrix commands (R46–R60, R79–R93, R112) and the shadow sampling of their tiles (R341). The dataflow and the
fold change only timing (R49), so a result is computed element by element in K order. -/

namespace Sys2Proof.Machine

/-! ### Checks and ranges (R46, R60) -/

/-- The descriptors a matrix command uses, read from the table. -/
structure MxDescs where
  a : Option Desc
  b : Option Desc
  c : Option Desc
  cin : Option Desc
  deriving DecidableEq, Repr

/-- mx.mul or mx.mac. -/
def MxCmd.big (x : MxCmd) : Bool := x.op == 0x10 || x.op == 0x11
/-- Reads Cin through a descriptor (R57). -/
def MxCmd.usesCin (x : MxCmd) : Bool := (x.op == 0x11 && x.dst == 0) || x.op == 0x14

/-- The descriptor indices a command uses, in field order of R60. -/
def MxCmd.used (x : MxCmd) : List Nat :=
  (if x.big then [x.descA, x.descB] else []) ++ (if x.usesC then [x.descC] else []) ++ (if x.usesCin then [x.descCin] else [])

/-- Reads the used descriptors. -/
def mxDescs (s : State) (acc : Acc) (x : MxCmd) : MxDescs where
  a := if x.big then s.desc acc x.descA else none
  b := if x.big then s.desc acc x.descB else none
  c := if x.usesC then s.desc acc x.descC else none
  cin := if x.usesCin then s.desc acc x.descCin else none

/-- A format an operand A or B may have. -/
def multFmt (d : Desc) : Bool :=
  match d.format with
  | some f => decide (f ≠ .fp32 ∧ f ≠ .fa40)
  | none => false

/-- A descriptor holds at least rows × cols. -/
def Desc.covers (d : Desc) (rows cols : Nat) : Bool := decide (rows ≤ d.rows) && decide (cols ≤ d.cols)

/-- The rejection reason of a matrix command after the clamps, 0 for none (R60). Where several conditions hold, the table
gives no order: the lowest reason is recorded (DESIGN CHOICE, notes/assumptions/69.md). -/
def mxReason (s : State) (p : Nat) (x : MxCmd) (d : MxDescs) : Nat :=
  let shapeBad :=
    (match d.a with
      | some a => ! (if x.ta then a.covers x.k x.m else a.covers x.m x.k)
      | none => false) ||
    (match d.b with
      | some b => ! (if x.tb then b.covers x.n x.k else b.covers x.k x.n)
      | none => false) ||
    (match d.c with
      | some c => ! c.covers x.m x.n
      | none => false) ||
    (match d.cin with
      | some c => ! c.covers x.m x.n
      | none => false)
  let fmtBad :=
    (match d.a with
      | some a => ! multFmt a
      | none => false) ||
    (match d.b with
      | some b => ! multFmt b
      | none => false) ||
    ([d.c, d.cin].any (fun o =>
      match o with
      | some c => c.format.isNone
      | none => false))
  if x.op < 0x10 || 0x14 < x.op then 1
  else if s.arrayOwner x.array != some p || s.offline x.array then 2
  else if x.big && x.dst == 3 then 3
  else if x.used.any (fun i => decide ((s.part p).descCount ≤ i)) then 4
  else if fmtBad then 5
  else if shapeBad then 6
  else if ((x.big && x.dst == 1) || x.op == 0x13 || x.op == 0x14) && (decide (256 < x.m) || decide (256 < x.n)) then 7
  else 0

/-- Ranges of a tensor's leading rows × cols, none without a format. -/
def Desc.spans (d : Desc) (rows cols : Nat) : List (Nat × Nat) :=
  match d.format with
  | some f => d.ranges f rows cols
  | none => []

/-- Operand ranges that a matrix command reads. -/
def mxSpans (x : MxCmd) (d : MxDescs) : List (Nat × Nat) :=
  (match d.a with
    | some a => if x.ta then a.spans x.k x.m else a.spans x.m x.k
    | none => []) ++
  (match d.b with
    | some b => if x.tb then b.spans x.n x.k else b.spans x.k x.n
    | none => []) ++
  (match d.cin with
    | some c => c.spans x.m x.n
    | none => [])

/-- The ranges a matrix command reads under R125; none when it will be rejected. -/
def mxReads (f : Inflight) (s : State) : List (Nat × Nat) :=
  let x := (mxClamp s (coreAcc f) (mxFields f.word)).1
  let d := mxDescs s (coreAcc f) x
  if mxReason s (partOfQ f.q) x d = 0 then mxSpans x d else []

/-! ### Values (R57, R79–R89) -/

/-- A byte as a read of the command delivers it (R210, R228, R229). -/
def rdByte (s : State) (a : Acc) (errs : List ReadError) (dva : Nat) : Byte :=
  (overlay a.part errs dva [s.readByte a dva]).headD 0#8

/-- What a tile's attempts leave: FP32 or FA40 results with the working offset, and the flags of R88 and R92. -/
structure TileOut where
  vals : List (List FVal)
  ovf : Bool
  retries : Nat
  deriving Repr

/-- The attempts of one output tile (R88): `start` the chain's starting value, `prods` the products in K order. -/
def tileRun (start : Nat → Nat → Option FVal) (prods : Nat → Nat → List FVal) (rows cols : List Nat) : TileOut :=
  let run (w : Int) : List (List Run) := rows.map (fun i => cols.map (fun j => attempt w (start i j) (prods i j)))
  let bad (r : List (List Run)) : Bool := r.any (fun l => l.any (fun x => x.ovf))
  let out (w : Int) (r : List (List Run)) : List (List FVal) := r.map (fun l => l.map (fun x => x.v.scale2 (-w)))
  let r0 := run 0
  if ! bad r0 then { vals := out 0 r0, ovf := false, retries := 0 }
  else
    let r1 := run (-4)
    if ! bad r1 then { vals := out (-4) r1, ovf := false, retries := 1 }
    else
      let r2 := run (-8)
      { vals := out (-8) r2, ovf := bad r2, retries := 2 }

/-- Indices of tile t of a dimension. -/
def tileIdx (t n : Nat) : List Nat := (List.range (min 256 (n - 256 * t))).map (fun i => 256 * t + i)

/-- The byte that a write of the command replaces: of the slot written, or the one copied into it first (R125). -/
def destByte (s : State) (a : Acc) (dva : Nat) : Byte :=
  let b := dva / 65536
  let sl := s.writeSlot a dva
  rawByte s.mem.bytes (byteKey a.part (if (s.ver a.part b).two then sl else if sl = s.curSlot a.part b then sl else 1 - sl) dva)

/-- Writes of a converted tensor: scales, then the rows of elements (R19, R44; notes/assumptions/13.md). -/
def tensorWrites (rd : Nat → Byte) (d : Desc) (f : Fmt) (c : Converted) : List (Nat × List Byte) :=
  (c.scales.zipIdx).map (fun r => (d.scaleBase + r.2 * d.scaleStride, r.1)) ++
  (c.codes.zipIdx).map (fun r =>
    let start := d.base + r.2 * d.rowStride
    (start, rowData rd f.width start r.1))

/-- Rounding of a matrix command's C (R28, R31). -/
def mxRnd (f : Inflight) (x : MxCmd) : RndCtx :=
  { sr := x.rnd == 1, seed := f.seed, step := f.step, tensor := x.tensor, origin := x.origin }

/-- Converts values into C and writes it with the flag bytes of its tiles (R54, R58, R89). `flag i j` is what the tile's
chains left. -/
def writeC (f : Inflight) (x : MxCmd) (d : Desc) (vals : List (List FVal)) (flag : Nat → Nat → Byte) (s : State) : State :=
  match d.format with
  | none => s
  | some fm =>
    let a := arrayAcc f 1
    let c := convertRows fm d.blockAxis (if x.scaleMode then some x.outScale else none) (mxRnd f x)
      (if d.idxPitch = 0 then x.n else d.idxPitch) vals
    let ovfIn (ti tj : Nat) : Bool :=
      ((c.ovf.drop (256 * ti)).take 256).any (fun r => ((r.drop (256 * tj)).take 256).any id)
    let flags : List (Nat × List Byte) :=
      if d.flagBase = 0 then []
      else (List.range (ceilDiv x.m 256)).map (fun ti =>
        (d.flagBase + ti * ceilDiv x.n 256,
          (List.range (ceilDiv x.n 256)).map (fun tj => flag ti tj ||| flagByte (ovfIn ti tj) false)))
    cmdWrites a (tensorWrites (destByte s a) d fm c ++ flags) s

/-! ### Shadow sampling (R341) -/

/-- Free spares in the order of R70: fewest mesh hops from a physical array, ties to the lower index. -/
def spareOrder (a : Nat) (free : List Nat) : List Nat :=
  let hops (b : Nat) : Nat := ((a / 16) - (b / 16)) + ((b / 16) - (a / 16)) + ((a % 16) - (b % 16)) + ((b % 16) - (a % 16))
  sortBy (fun x y => decide (hops x < hops y) || (hops x == hops y && decide (x ≤ y))) free

/-- The sampling interval of the next tile: 2^6 while one of the raised signatures matches the command (R344). -/
def sampleEvery (s : State) (a : ArrayL) (sig : Nat) : Nat :=
  if a.raised.any (fun r => r.2.1.toNat % 16 == sig % 16) then 64 else s.dev.shadowInterval

/-- One output tile completes: counted, and sampled when the count reached the interval (R341). -/
def countTile (l : Nat) (q : Nat) (pos : BitVec 32) (sig : Nat) (s : State) : State :=
  let a := s.arr l
  let a1 := { a with raised := (a.raised.map (fun (r : Byte × Byte × Nat) =>
    if r.2.1.toNat % 16 = sig % 16 then (r.1, r.2.1, r.2.2 - 1) else r)).filter (fun r => r.2.2 != 0) }
  if a.tileCount < sampleEvery s a sig then modArr l (fun _ => { a1 with tileCount := a.tileCount + 1 }) s
  else
    let free := spareOrder (s.physOf l) s.mxa.hw.sparesFree
    match free with
    | x :: _ :: _ =>
      modFap (fun p => { p with samples := satAdd 20 p.samples 1 })
        (modArr l (fun _ => { a1 with tileCount := 1, shadow := some { q := q, pos := pos, spare := x } }) s)
    | _ => modFap (fun p => { p with skipped := satAdd 20 p.skipped 1 }) (modArr l (fun _ => { a1 with tileCount := 1 }) s)

/-- The tiles of a command complete. -/
def countTiles (l n q : Nat) (pos : BitVec 32) (sig : Nat) (s : State) : State :=
  (List.range n).foldl (fun s _ => countTile l q pos sig s) s

/-- Bits 3:0 of the load signature of a command (R344): dataflow and rate class. -/
def loadSig (x : MxCmd) (fa fb : Fmt) : Nat :=
  dataflow x x.m x.n * 4 + (match rateClass fa fb with | .c4 => 0 | .c8 => 1 | .c16 => 2)

/-! ### mx.mul and mx.mac (R56, R57, R83, R92, R93, R112) -/

/-- The result of a product command, tile by tile, with what its conversions of Cin left (R26). -/
def mxProduct (s : State) (f : Inflight) (errs : List ReadError) (x : MxCmd) (d : MxDescs) (fa fb : Fmt) (da db : Desc) :
    List (List TileOut) :=
  let acc := arrayAcc f 1
  let rd := rdByte s acc errs
  let av (i k : Nat) : FVal := if x.ta then da.value fa rd k i else da.value fa rd i k
  let bv (k j : Nat) : FVal := if x.tb then db.value fb rd j k else db.value fb rd k j
  let tile := (s.arr x.array).accTile x.accSel
  let start (i j : Nat) : Option FVal :=
    if x.op = 0x10 || x.dst = 2 then none
    else if x.dst = 1 then some (ofFp32 (tile.get i j))
    else
      match d.cin with
      | some c =>
        match c.format with
        | some fc => some (fl32 (c.value fc rd i j)).1
        | none => none
      | none => none
  let prods (i j : Nat) : List FVal := (List.range x.k).map (fun k => (av i k).mul (bv k j))
  (List.range (ceilDiv x.m 256)).map (fun ti => (List.range (ceilDiv x.n 256)).map (fun tj =>
    tileRun start prods (tileIdx ti x.m) (tileIdx tj x.n)))

/-- The conversion of Cin saturates in a tile (R26). -/
def cinSaturates (s : State) (f : Inflight) (errs : List ReadError) (x : MxCmd) (d : MxDescs) (ti tj : Nat) : Bool :=
  match d.cin with
  | none => false
  | some c =>
    match c.format with
    | none => false
    | some fc => (tileIdx ti x.m).any (fun i => (tileIdx tj x.n).any (fun j =>
        (fl32 (c.value fc (rdByte s (arrayAcc f 1) errs) i j)).2))

/-- All rows of a grid of tiles. -/
def joinTiles (g : List (List TileOut)) : List (List FVal) :=
  (g.map (fun row =>
    match row.map (fun t => t.vals) with
    | [] => []
    | v :: r => r.foldl (fun acc w => acc.zipWith (· ++ ·) w) v)).flatten

/-- Leaves the hidden storage of an array not defined after a product: stationary buffers, weight slots and segment
store, and the output latches where the dataflow is output-stationary (R40, R59; notes/assumptions/1.md). -/
def undefHidden (l : Nat) (os : Bool) (s : State) : State :=
  bumpFree 7 (modArr l (fun a =>
    { a with
      stationary := some s.free
      stationaryShadow := some (s.free + 1)
      weights := some (s.free + 2)
      weightsShadow := some (s.free + 3)
      segments := some (s.free + 4)
      latch0 := if os then some (s.free + 5) else a.latch0
      latch1 := if os then some (s.free + 6) else a.latch1 }) s)

/-- Executes a product command that no reason rejects. Every operand is read before any of C is written: where C overlaps
A, B or Cin the spec does not say what a later pass of the fold reads (DESIGN CHOICE, notes/assumptions/70.md). -/
def mxProductRun (f : Inflight) (errs : List ReadError) (x : MxCmd) (d : MxDescs) (s : State) : State :=
  match d.a, d.b with
  | some da, some db =>
    match da.format, db.format with
    | some fa, some fb =>
      let p := partOfQ f.q
      let g := mxProduct s f errs x d fa fb da db
      let flat := g.flatten
      let s1 := countAcc p ((flat.map (fun t => t.retries)).sum) ((flat.filter (fun t => t.ovf)).length) 0 s
      let s1 := countTiles x.array (if x.dst = 1 then 1 else flat.length) f.q f.pos (loadSig x fa fb) s1
      let s1 := undefHidden x.array (dataflow x x.m x.n == 2) s1
      let vals := joinTiles g
      let tileOvf (ti tj : Nat) : Bool :=
        ((((g.getD ti [])[tj]?).map (fun t => t.ovf)).getD false) || cinSaturates s f errs x d ti tj
      match x.dst with
      | 0 =>
        match d.c with
        | some dc =>
          let s2 := writeC f x dc vals (fun ti tj => flagByte (tileOvf ti tj) false) s1
          markDone f.q f.pos (undefAccs x.array [0, 1] (undefTiles x.array [0, 1, 2, 3, 4, 5] s2))
        | none => markDone f.q f.pos s1
      | 1 =>
        let old := (s1.arr x.array).accTile x.accSel
        let conv := vals.map (fun r => r.map fl32)
        let ov := tileOvf 0 0 || conv.any (fun r => r.any (fun v => v.2))
        let from_ : AccTile := if x.op = 0x10 then { old with base := none, cells := [] } else old
        let t1 := (conv.zipIdx).foldl (fun t r => (r.1.zipIdx).foldl (fun t v =>
          t.put r.2 v.2 (BitVec.ofNat 32 (encodeFmt .fp32 v.1.1))) t) from_
        let terms := if x.op = 0x10 then x.k else termAdd old.terms x.k
        let lg := x.op = 0x11 && longSum old.terms terms
        let fl := (if x.op = 0x10 then 0#8 else old.flag) ||| flagByte ov lg
        let s2 := modArr x.array (fun a => a.setAcc x.accSel { t1 with flag := fl, terms := terms }) s1
        let s3 := if lg then countAcc p 0 0 1 s2 else s2
        markDone f.q f.pos (undefTiles x.array [0, 1, 2, 3] s3)
      | _ => queueContribution f false vals.flatten (undefAccs x.array [0, 1] (undefTiles x.array [0, 1, 2, 3, 4, 5] s1))
    | _, _ => s
  | _, _ => s

/-! ### The shared run of a matrix command -/

/-- Event 0x0103 (R60, R77). -/
def mxReject (f : Inflight) (reason : Nat) (s : State) : State :=
  eventP 0x0103 2 (partOfQ f.q) (le 1 reason ++ le 1 (partOfQ f.q) ++ le 2 f.q ++ le 4 f.pos.toNat) s

/-- The placements of a command's reads: descriptors by the control core, operands by the array (R206). -/
def touchSpans (a : Acc) (spans : List (Nat × Nat)) (s : State) : State :=
  spans.foldl (fun s r => touchRead a a.runsAhead r.1 r.2 s) s
/-- DVA ranges of used descriptors. -/
def descSpans (s : State) (p : Nat) (used : List Nat) : List (Nat × Nat) :=
  (used.filter (fun i => decide (i < (s.part p).descCount))).map (fun i => (s.descDva p i, 64))

/-- Event 0x0401 of a command that reads descriptors and then data (R210): one for its first unmapped address. -/
def eventCmdUnmapped (f : Inflight) (agent : Nat) (descs data : List (Nat × Nat)) (before after : State) : State :=
  let p := partOfQ f.q
  match before.firstUnmapped p descs with
  | some d => eventUnmapped (coreAcc f) (some d) after
  | none => eventUnmapped (arrayAcc f agent) (before.firstUnmapped p data) after

/-- Ranges a matrix command writes. -/
def mxDests (x : MxCmd) (d : MxDescs) : List (Nat × Nat) :=
  match d.c with
  | some c =>
    c.spans x.m x.n ++
    (if c.flagBase = 0 then [] else [(c.flagBase, ceilDiv x.m 256 * ceilDiv x.n 256)])
  | none => []

/-- What a matrix command accesses at its start: descriptors, operands and C. -/
def mxAccs (f : Inflight) (s : State) : List Access :=
  let x := (mxClamp s (coreAcc f) (mxFields f.word)).1
  let d := mxDescs s (coreAcc f) x
  let r := mxReason s (partOfQ f.q) x d
  let ds := readsOf (coreAcc f) (descSpans s (partOfQ f.q) x.used)
  if r = 0 then ds ++ readsOf (arrayAcc f 1) (mxSpans x d) ++ writesOf (arrayAcc f 1) (mxDests x d)
  else if 4 < r then ds else []

/-- The state in which an accepted matrix command computes: its clamps counted, its descriptors and operands placed (R33,
R206). -/
def mxOperands (f : Inflight) (s : State) : State :=
  let c := mxClamp s (coreAcc f) (mxFields f.word)
  touchSpans (arrayAcc f 1) (mxSpans c.1 (mxDescs s (coreAcc f) c.1))
    (touchSpans (coreAcc f) (descSpans s (partOfQ f.q) c.1.used) (clampPart (partOfQ f.q) c.2 s))

/-- Runs one matrix command: clamps, checks, operands, then its operation (R33, R60, R206, R210). -/
def mxRun (errs : List ReadError) (body : Inflight → MxCmd → MxDescs → State → State) (f : Inflight) (s : State) : State :=
  let c := mxClamp s (coreAcc f) (mxFields f.word)
  let x := c.1
  let p := partOfQ f.q
  let d := mxDescs s (coreAcc f) x
  let r := mxReason s p x d
  let ds := descSpans s p x.used
  if r ≠ 0 then
    let s1 := clampPart p c.2 s
    let s2 := if 4 < r then eventCmdUnmapped f 1 ds [] s (touchSpans (coreAcc f) ds s1) else s1
    markDone f.q f.pos (mxReject f r s2)
  else
    noteErrors 1 errs (eventCmdUnmapped f 1 ds (mxSpans x d ++ mxDests x d) s (body f x d (mxOperands f s)))

/-- A command of one matrix opcode. -/
def mxRow (op : Nat) (q : Nat) (pos : BitVec 32) (errs : List ReadError)
    (body : Inflight → MxCmd → MxDescs → State → State) (s : State) : State :=
  runLongAt (isOp op) q pos mxReads mxAccs (mxRun errs body) s

/-- MX_MUL (R56, R58). Opcodes 0x15–0x1F take this row too and are rejected with reason 0x01. -/
def execMxMul (q : QIdx) (pos : BitVec 32) (errs : List ReadError) (s : State) : Host.Outcome State Fault Refusal :=
  .next (runLongAt (fun w => opcodeOf w == 0x10 || (0x15 ≤ opcodeOf w && opcodeOf w ≤ 0x1F)) q pos mxReads mxAccs
    (mxRun errs (fun f x d s => mxProductRun f errs x d s)) s)

/-- MX_MAC (R57). -/
def execMxMac (q : QIdx) (pos : BitVec 32) (errs : List ReadError) (s : State) : Host.Outcome State Fault Refusal :=
  .next (mxRow 0x11 q pos errs (fun f x d s => mxProductRun f errs x d s) s)

/-- MX_ZACC (R56, R83, R93). -/
def execMxZacc (q : QIdx) (pos : BitVec 32) (s : State) : Host.Outcome State Fault Refusal :=
  .next (mxRow 0x12 q pos [] (fun f x _ s =>
    markDone f.q f.pos (modArr x.array (fun a => a.setAcc x.accSel {}) s)) s)

/-- MX_SACC (R56, R93). -/
def execMxSacc (q : QIdx) (pos : BitVec 32) (s : State) (errs : List ReadError := []) : Host.Outcome State Fault Refusal :=
  .next (mxRow 0x13 q pos errs (fun f x d s =>
    match d.c with
    | none => s
    | some dc =>
      let t := (s.arr x.array).accTile x.accSel
      let vals := (List.range x.m).map (fun i => (List.range x.n).map (fun j => ofFp32 (t.get i j)))
      markDone f.q f.pos (undefTiles x.array [4, 5] (writeC f x dc vals (fun _ _ => t.flag) s))) s)

/-- MX_LACC (R56, R83, R93). -/
def execMxLacc (q : QIdx) (pos : BitVec 32) (errs : List ReadError) (s : State) : Host.Outcome State Fault Refusal :=
  .next (mxRow 0x14 q pos errs (fun f x d s =>
    match d.cin with
    | none => s
    | some c =>
      match c.format with
      | none => s
      | some fc =>
        let rd := rdByte s (arrayAcc f 1) errs
        let conv := (List.range x.m).map (fun i => (List.range x.n).map (fun j => fl32 (c.value fc rd i j)))
        let t := (conv.zipIdx).foldl (fun t r => (r.1.zipIdx).foldl (fun t v =>
          t.put r.2 v.2 (BitVec.ofNat 32 (encodeFmt .fp32 v.1.1))) t) ({} : AccTile)
        let t := { t with flag := flagByte (conv.any (fun r => r.any (fun v => v.2))) false, terms := 1 }
        markDone f.q f.pos (undefTiles x.array [4, 5] (modArr x.array (fun a => a.setAcc x.accSel t) s))) s)

end Sys2Proof.Machine
end

