-- ==== Sys2Proof/Machine/Queue.lean ====
section
/-! DEFINITION. Queues and doorbells (R162–R173, R177): doorbell, enable, disable, resume, abort, dispatch and completion,
with nop and the rejected opcodes. -/

namespace Sys2Proof.Machine

/-! ### BAR0 offsets of a function (R357, R359) -/

/-- The offset in a function's BAR0 of a register of a queue. -/
def queueOffset (fn q reg : Nat) : Nat := if fn = 0 then 0x03000000 + 0x20 * q + reg else 0x1000 + 0x20 * (q % 32) + reg

/-- PCI_ABI_Fk. -/
def State.abi (s : State) (fn : Nat) : Abi := tabGet {} s.pci.abi fn

/-- Event 0x0903 (R373, R374), against the partition concerned if there is one. -/
def eventAbi (fn : Nat) (p : Option Nat) (off : Nat) (s : State) : State :=
  let a := s.abi fn
  eventOn 0x0903 2 p (le 1 fn ++ le 4 off ++ le 2 (a.activeMajor * 256 + a.activeMinor)) s

/-- Event 0x0A0A (R455): cause 1 a halting event, 2 an enable while halted. -/
def eventHalted (p cause : Nat) (s : State) : State :=
  eventP 0x0A0A 2 p (le 1 p ++ le 1 cause ++ le 4 (tabGet 0 s.evt.haltSeq p).toNat) s

/-! ### Pointers (R163, R164) -/

/-- A doorbell value in range (R164). -/
def doorbellOk (k : Queue) (t : BitVec 32) : Bool :=
  decide ((t - k.head).toNat ≤ ringSize k.sizeCode) && decide ((t - k.tail).toNat < 2 ^ 31)

/-- QUEUE_DOORBELL. -/
def execQueueDoorbell (q : QIdx) (tail : BitVec 32) (s : State) : Host.Outcome State Fault Refusal :=
  .next (
    let k := s.queue q
    if doorbellOk k tail then setQueue q { k with tail := tail } s
    else eventP 0x0301 2 (partOfQ q) (le 2 q.val ++ le 4 k.tail.toNat ++ le 4 tail.toNat) s)

/-! ### Enable, disable, resume (R165, R183, R373, R377, R447) -/

/-- Why a write of enable = 1 is ignored: before ready, without an ABI, or halted; none when it is taken. -/
def enableBlock (fn q p off : Nat) (s : State) : Option State :=
  if ! s.isReady then some (eventD 0x0A02 1 (le 1 fn ++ le 2 q ++ le 1 s.wmc.step) s)
  else if (s.abi (s.ownerFn p)).activeMajor = 0 then some (eventAbi (s.ownerFn p) (some p) off s)
  else if s.evt.halted.getLsbD p then some (eventHalted p 2 s)
  else none

/-- A partition that an armed swap affects becomes held (R385). -/
def holdPart (p : Nat) (s : State) : State :=
  match s.wmc.armed with
  | some a =>
    if a.affected.contains p && ! s.wmc.held.contains p then
      modWmc (fun w =>
        { w with held := w.held ++ [p], armed := some { a with heldAt := some (a.heldAt.getD s.now) } }) s
    else s
  | none => s
/-- A partition whose queues are all disabled becomes held at once (R385). -/
def holdIfIdle (p : Nat) (s : State) : State :=
  if (List.range 32).any (fun i => (s.queue (32 * p + i)).enable) then s else holdPart p s

/-- A queue begins to be dispatched: head takes the present tail (R165). -/
def startQueue (q : Nat) (s : State) : State :=
  modQueue q (fun k => { k with enable := true, state := 1, head := k.tail, env := none, wait := none, aborted := false }) s

/-- QUEUE_ENABLE; a queue that is enabled already stays as it is. -/
def execQueueEnable (fn : Func) (q : QIdx) (s : State) : Host.Outcome State Fault Refusal :=
  .next (
    if (s.queue q).enable then s
    else
      match enableBlock fn q (partOfQ q) (queueOffset fn q 8) s with
      | some s1 => s1
      | none => startQueue q s)

/-- QUEUE_DISABLE; it may be what an armed swap waits for (R385). -/
def execQueueDisable (q : QIdx) (s : State) : Host.Outcome State Fault Refusal :=
  .next (holdIfIdle (partOfQ q) (modQueue q (fun k => { k with enable := false, state := 0 }) s))

/-- QUEUE_RESUME. -/
def execQueueResume (q : QIdx) (s : State) : Host.Outcome State Fault Refusal :=
  .next (if (s.queue q).state = 3 then modQueue q (fun k => { k with state := 1, wait := none }) s else s)

/-! ### Abort (R173) -/

/-- Envelopes that an abort of a queue ends: not ended by a refusal, with a part of the queue that has not ended. -/
def abortedEnvs (s : State) (q : Nat) : List Envelope :=
  s.tcs.envs.filter (fun e =>
    (e.status == .opening || e.status == .queued || e.status == .admitted) && e.queues.contains q &&
    (match e.parts.find? (fun x => x.q == q) with
      | some x => x.close.isNone
      | none => (markerOf s e q).isSome))

/-- Aborts an envelope from one of its queues: the others skip their parts and an aborted record is written. -/
def abortEnvelope (q : Nat) (s : State) (e : Envelope) : State :=
  let s := skipEnvelope e.uid (some q) s
  let s := modEnv e.uid (fun x => { x with
    parts := if x.parts.any (fun y => y.q == q) then x.parts
      else x.parts ++ [{ q := q, first := (s.queue q).head, close := some (s.queue q).head }] }) s
  let s := modEnv e.uid (fun x => { x with status := if x.allJoined then .ended else .skipping }) s
  let s := leaveQueue e.part e.uid s
  respond e 5 0 e.m 0 s

/-- Ends the queue's own part of an envelope that goes on without it: one that a refusal has ended, or that already
skips its parts. A marker handed over already completes with its envelope (R173, R180); the part is ended at the
marker's own position, since its env.close was never dispatched. -/
def discardPart (q : Nat) (s : State) : State :=
  modTcs (fun t =>
    { t with envs := t.envs.map (fun e =>
        if (e.status == .unguaranteed || e.status == .skipping) && e.queues.contains q then
          let has := e.parts.any (fun y => y.q == q)
          let ps := if has then e.parts.map (fun y => if y.q = q ∧ y.close.isNone then { y with close := some y.first } else y)
            else match markerOf s e q with
              | some i => e.parts ++ [{ q := q, first := i, close := some i }]
              | none => e.parts
          { e with parts := ps, status := if e.status = .skipping && ({ e with parts := ps } : Envelope).allJoined then .ended else e.status }
        else e) }) s

/-- Aborts a queue: discards from head to tail with the kp.wait or marker that holds it, and disables it. -/
def abortQueue (q : Nat) (s : State) : State :=
  let es := abortedEnvs s q
  let s := discardPart q s
  let marks := es.filterMap (fun e => (e.parts.find? (fun x => x.q == q)).map (fun x => x.first))
  let s := marks.foldl (fun s i => dropMarker q i s) s
  let s := dropWait q s
  let s := modQueue q (fun k =>
    { k with head := k.tail, state := 0, enable := false, env := none, wait := none, aborted := true }) s
  holdIfIdle (partOfQ q) (purgeEnvs (es.foldl (abortEnvelope q) s))

/-- QUEUE_ABORT. -/
def execQueueAbort (q : QIdx) (s : State) : Host.Outcome State Fault Refusal := .next (abortQueue q s)

/-! ### Dispatch (R163, R169, R180, R246) -/

/-- Commands of the queue that wait_prev waits for: all but the markers of the envelope the command belongs to. -/
def pendingBefore (s : State) (q : Nat) (env : Option Nat) : Bool :=
  s.tcs.inflight.any (fun f => f.q == q && ! (isMarker (opcodeOf f.word) && env.isSome && f.env == env))

/-- A checkpoint command (R243). -/
def isCkptOp (op : Nat) : Bool := op == 0x38 || op == 0x39 || op == 0x3A
/-- The partition runs a checkpoint command (R246). -/
def ckptBusy (s : State) (p : Nat) : Bool :=
  s.tcs.inflight.any (fun f => partOfQ f.q == p && isCkptOp (opcodeOf f.word) && ! f.done)

/-- Whether the command in the head slot of a queue may be dispatched; a held partition dispatches nothing (R385). -/
def mayDispatch (s : State) (q : Nat) (w : CmdWord) : Bool :=
  let k := s.queue q
  k.enable && k.state == 1 && k.head != k.tail && k.wait.isNone && ! s.wmc.held.contains (partOfQ q) &&
  ! (fld w 11 1 == 1 && pendingBefore s q k.env) && ! (isCkptOp (opcodeOf w) && ckptBusy s (partOfQ q))

/-- Opcodes that stop their queue's dispatch: a kp.wait until it is satisfied, a marker until it is answered, an
env.close until it has ended the part. -/
def blocksQueue (op : Nat) : Bool := op == 0x40 || op == 0x61 || op == 0x62 || op == 0x63

/-- The copy of a command that its engine receives (R163, R180). -/
def handOver (s : State) (q : Nat) (w : CmdWord) : Inflight :=
  let k := s.queue q
  let e := k.env.bind s.env
  { q := q, pos := k.head, word := w, env := k.env, seed := k.seed, step := k.step,
    update := (e.map (fun x => x.update)).getD false, started := false, done := false, late := false, since := s.now, ord := s.tcs.nextOrd,
    admitted := (e.map (fun x => x.status == .admitted)).getD false }

/-- COMMAND_DISPATCH; the reads of the ring slot place and report as a control core's do (R206, R210). -/
def execCommandDispatch (q : QIdx) (s : State) (errs : List ReadError := []) : Host.Outcome State Fault Refusal :=
  .next (
    let k := s.queue q
    let a := ringReader q k.head
    let w := (keepStored a errs s).slot q k.head
    if ! mayDispatch s q w then s
    else
      whenReached (readsOf a [(k.slotDva k.head, 32)]) (meetErrors a errs (fun s =>
      let um := s.unmappedIn a.part (k.slotDva k.head) 32
      let held := opcodeOf w = 0x61 || opcodeOf w = 0x62
      let s1 := modTcs (fun t => { t with inflight := t.inflight ++ [handOver s q w], nextOrd := t.nextOrd + 1 }) s
      let s2 := modQueue q (fun k =>
        { k with
          head := if held then k.head else k.head + 1
          state := if held then 2 else k.state
          wait := if blocksQueue (opcodeOf w) then some k.head else none }) s1
      eventUnmapped a um (touchRead a false (k.slotDva k.head) 32 s2))) s)

/-! ### Completion (R167, R172) -/

/-- sig_en and irq_en of a command. -/
def completionActions (q : Nat) (pos : BitVec 32) (w : CmdWord) (s : State) : State :=
  let s :=
    if fld w 9 1 = 1 then
      match s.keeperOf (partOfQ q) (fld w 16 16) with
      | some k => setKeeper k (s.keeper k + 1) s
      | none => eventP 0x0303 2 (partOfQ q) (le 2 q ++ le 4 pos.toNat ++ le 2 (fld w 16 16)) s
    else s
  if fld w 10 1 = 1 then raiseQueue q s else s

/-- COMMAND_COMPLETE. -/
def execCommandComplete (q : QIdx) (pos : BitVec 32) (s : State) : Host.Outcome State Fault Refusal :=
  .next (
    match s.inflight q pos with
    | none => s
    | some f => if f.done then completionActions q pos f.word (dropMarker q pos s) else s)

/-! ### nop and rejected opcodes (R168) -/

/-- Opcodes that the class table marks as rejected. -/
def rejectedOp (op : Nat) : Bool :=
  (0x01 ≤ op && op ≤ 0x0F) || (0x44 ≤ op && op ≤ 0x4F) || 0x66 ≤ op

/-- NOP. -/
def execNop (q : QIdx) (pos : BitVec 32) (s : State) : Host.Outcome State Fault Refusal :=
  .next (runNow (isOp 0) q pos noReads (fun _ s => s) s)

/-- REJECTED_OPCODE. -/
def execRejectedOpcode (q : QIdx) (pos : BitVec 32) (s : State) : Host.Outcome State Fault Refusal :=
  .next (runNow (fun w => rejectedOp (opcodeOf w)) q pos noReads (fun f s =>
    eventP 0x0302 2 (partOfQ f.q) (le 2 f.q ++ le 4 f.pos.toNat ++ le 1 (opcodeOf f.word)) s) s)

end Sys2Proof.Machine
end

