-- ==== Sys2Proof/Machine/Keeper.lean ====
section
/-! DEFINITION. Keepers, phase marks and fences (R124, R131–R134, R172–R177, R360, R434). -/

namespace Sys2Proof.Machine

/-! ### Keeper commands (R174) -/

/-- Event 0x0303 (R172). -/
def eventKeeper (p q pos k : Nat) (s : State) : State :=
  eventP 0x0303 2 p (le 2 q ++ le 4 pos ++ le 2 k) s

/-- A keeper command on the keeper its kp field names; beyond kp_count it does nothing and 0x0303 is recorded. -/
def keeperCmd (f : Inflight) (g : Nat → State → State) (s : State) : State :=
  match s.keeperOf (partOfQ f.q) (fld f.word 48 16) with
  | some k => g k s
  | none => eventKeeper (partOfQ f.q) f.q f.pos.toNat (fld f.word 48 16) s

/-- Operand x of a keeper command. -/
def kpX (w : CmdWord) : BitVec 32 := w.extractLsb' 64 32

/-- The wait holds its queue no longer. -/
def releaseWait (f : Inflight) (s : State) : State :=
  modQueue f.q (fun k => if k.wait = some f.pos then { k with wait := none } else k) s

/-- An external wait of an admitted envelope completes without reading its keeper (R186). -/
def waitIsExternal (s : State) (f : Inflight) : Bool :=
  match f.env.bind s.env with
  | some e => e.status == .admitted && e.ext.contains (f.q, f.pos)
  | none => false

/-- The condition of a kp.wait at this moment. -/
def waitMet (s : State) (f : Inflight) : Bool :=
  waitIsExternal s f ||
  (match s.keeperOf (partOfQ f.q) (fld f.word 48 16) with
    | some k => waitHolds (fld f.word 96 2) (s.keeper k) (kpX f.word)
    | none => true)

/-- A kp.wait takes its turn: it completes when its condition holds, when it names no keeper (R172), or when it is
discarded; otherwise its queue stays blocked. -/
def waitTurn (f : Inflight) (s : State) : State :=
  if s.isLate f [] then releaseWait f (discardCmd f s)
  else if (s.keeperOf (partOfQ f.q) (fld f.word 48 16)).isNone then
    markDone f.q f.pos (releaseWait f (eventKeeper (partOfQ f.q) f.q f.pos.toNat (fld f.word 48 16) s))
  else if waitMet s f then markDone f.q f.pos (releaseWait f s)
  else markStarted f.q f.pos s

/-- KP_WAIT. -/
def execKpWait (q : QIdx) (pos : BitVec 32) (s : State) : Host.Outcome State Fault Refusal :=
  .next (
    match (s.inflight q pos).filter (fun f => isOp 0x40 f.word && ! f.done && ! f.started && s.inOrder f) with
    | none => s
    | some f => waitTurn f s)

/-- KP_WAIT_SATISFIED: a blocked kp.wait whose condition a write has made hold. -/
def execKpWaitSatisfied (q : QIdx) (pos : BitVec 32) (s : State) : Host.Outcome State Fault Refusal :=
  .next (
    match s.running (isOp 0x40) q pos with
    | none => s
    | some f => waitTurn f s)

/-- KP_SET. -/
def execKpSet (q : QIdx) (pos : BitVec 32) (s : State) : Host.Outcome State Fault Refusal :=
  .next (runNow (isOp 0x41) q pos noReads (fun f s => keeperCmd f (fun k s => setKeeper k (kpX f.word) s) s) s)

/-- KP_ADD. -/
def execKpAdd (q : QIdx) (pos : BitVec 32) (s : State) : Host.Outcome State Fault Refusal :=
  .next (runNow (isOp 0x42) q pos noReads
    (fun f s => keeperCmd f (fun k s => setKeeper k (s.keeper k + kpX f.word) s) s) s)

/-- KP_CAS; its write is a control core's (R206). -/
def execKpCas (q : QIdx) (pos : BitVec 32) (s : State) : Host.Outcome State Fault Refusal :=
  .next (runNowAt (isOp 0x43) q pos noReads (fun f s =>
    if (s.keeperOf (partOfQ f.q) (fld f.word 48 16)).isNone || fld f.word 128 52 == 0 then []
    else writesOf (coreAcc f) [(fld f.word 128 52, 4)]) (fun f s => keeperCmd f (fun k s =>
    let old := s.keeper k
    let s1 := if old = kpX f.word then setKeeper k (f.word.extractLsb' 96 32) s else s
    let dva := fld f.word 128 52
    if dva = 0 then s1
    else eventUnmapped (coreAcc f) (s.unmappedIn (partOfQ f.q) dva 4) (cmdWrite (coreAcc f) dva (le 4 old.toNat) s1)) s) s)

/-! ### Host access (R176, R360) -/

/-- The device keeper of a host write: index k in the PF, relative to kp_base in a VF's window. -/
def hostKeeper (fn : Func) (k : BitVec 16) (s : State) : Option Nat :=
  if fn.val = 0 then some k.toNat else s.keeperOf (fn.val - 1) k.toNat
/-- A host write to a keeper; beyond kp_count in a window it changes nothing and records 0x0303. -/
def hostKeeperWrite (fn : Func) (k : BitVec 16) (g : BitVec 32 → BitVec 32) (s : State) : State :=
  match hostKeeper fn k s with
  | some d => setKeeper d (g (s.keeper d)) s
  | none => eventKeeper (fn.val - 1) 0xFFFE fn.val k.toNat s

/-- KEEPER_SET_HOST. -/
def execKeeperSetHost (fn : Func) (k : BitVec 16) (value : BitVec 32) (s : State) : Host.Outcome State Fault Refusal :=
  .next (hostKeeperWrite fn k (fun _ => value) s)
/-- KEEPER_ADD_HOST. -/
def execKeeperAddHost (fn : Func) (k : BitVec 16) (value : BitVec 32) (s : State) : Host.Outcome State Fault Refusal :=
  .next (hostKeeperWrite fn k (fun v => v + value) s)

/-! ### Phase marks (R434) -/

/-- Key of a phase timer. -/
def phaseKey (p k : Nat) : Nat := p * 64 + k

/-- PH_MARK. -/
def execPhMark (q : QIdx) (pos : BitVec 32) (s : State) : Host.Outcome State Fault Refusal :=
  .next (runNow (isOp 0x60) q pos noReads (fun f s =>
    let ph := fld f.word 48 16
    modCnt (fun c => { c with phase := tabMod {} c.phase (phaseKey (partOfQ f.q) (ph % 64)) (fun t =>
      { time := s.now, count := (t.count + 1) % 2 ^ 16, queue := f.q % 32, hi := ph / 64, tag := kpX f.word }) }) s) s)

/-! ### fn.drain (R177) -/

/-- Every earlier command of the queue has completed; the markers of the command's own envelope complete with it. -/
def drained (s : State) (f : Inflight) : Bool :=
  ! (s.earlier f).any (fun g => g.q == f.q && ! (isMarker (opcodeOf g.word) && f.env.isSome && g.env == f.env))

/-- FN_DRAIN: completes when its queue's earlier commands have. -/
def execFnDrain (q : QIdx) (pos : BitVec 32) (s : State) : Host.Outcome State Fault Refusal :=
  .next (
    match (s.inflight q pos).filter (fun f => isOp 0x65 f.word && ! f.done && (f.started || s.inOrder f)) with
    | none => s
    | some f =>
      if s.isLate f [] then discardCmd f s
      else if drained s f then markDone q pos s else markStarted q pos s)

/-! ### The epoch fence (R124) -/

/-- FN_EPOCH: the fence opens. -/
def execFnEpoch (q : QIdx) (pos : BitVec 32) (s : State) : Host.Outcome State Fault Refusal :=
  .next (runLong (isOp 0x64) q pos noReads (fun _ s => s) s)

/-- Ranges that a started command of an engine reads or writes by value. -/
def cmdSpans (s : State) (f : Inflight) : List (Nat × Nat) :=
  let op := opcodeOf f.word
  let all (i : Nat) : List (Nat × Nat) :=
    match s.desc (coreAcc f) i with
    | some d => d.spans d.rows d.cols
    | none => []
  if 0x10 ≤ op ∧ op ≤ 0x14 then mxReads f s
  else if op = 0x3F then all (gbFields f.word).descD
  else if op = 0x38 then
    (let x := txFields f.word
     if x.dva = 0 ∧ x.len = 0 then (s.regions (partOfQ f.q)).map (fun r => (r.base, r.len)) else [(x.dva, x.len)])
  else if 0x50 ≤ op ∧ op ≤ 0x56 then all (coFields f.word).descSrc ++ all (coFields f.word).descDst
  else []

/-- The fence's waits have ended: no command that has started and not completed reads or writes a parameter region. -/
def fenceClear (s : State) (p : Nat) : Bool :=
  ! s.tcs.inflight.any (fun f => partOfQ f.q == p && f.started && ! f.done &&
    (cmdSpans s f).any (fun r => s.touchesParam p r.1 r.2))

/-- A sum of partials in FA40, in order: value, overflow, terms. -/
def sumPartials (ps : List Partial) : FVal × Bool × Nat :=
  match ps.filter (fun x => x.terms != 0) with
  | [] => (FVal.zero, false, 0)
  | x :: rest =>
    let v := x.value
    let r := rest.foldl (fun (acc : FVal × Bool) y =>
      let w := y.value
      let a := fl40 (acc.1.add w.1)
      (a.1, acc.2 || w.2 || a.2)) v
    (r.1, r.2, ((x :: rest).map (fun y => y.terms)).sum)

/-- A sum of several entries' sums in FA40, in order. -/
def sumSums (l : List (FVal × Bool × Nat)) : FVal × Bool × Nat :=
  match l.filter (fun x => x.2.2 != 0) with
  | [] => (FVal.zero, false, 0)
  | x :: rest =>
    rest.foldl (fun acc y =>
      let a := fl40 (acc.1.add y.1)
      (a.1, acc.2.1 || y.2.1 || a.2, acc.2.2 + y.2.2)) x

/-- The norm record of a group (R131–R133); none when no partial of it received a term. -/
def normRecord (v : BitVec 32) (now g : Nat) (es : List GabEntry) : Option (List Byte) :=
  let es := sortBy (fun a b => decide (a.param ≤ b.param)) es
  let ds := es.map (fun e => sumPartials [e.grad])
  let ws := es.map (fun e => sumPartials (e.wgt.map Prod.snd))
  let us := es.map (fun e => sumPartials (e.upd.map Prod.snd))
  let n := ((ds.zip (ws.zip us)).filter (fun x => x.1.2.2 != 0 || x.2.1.2.2 != 0 || x.2.2.2.2 != 0)).length
  if n = 0 then none
  else
    let d := sumSums ds
    let w := sumSums ws
    let u := sumSums us
    let bit (b : Bool) (k : Nat) : Nat := if b then 2 ^ k else 0
    let long := [d, w, u].any (fun x => decide (1048576 < x.2.2))
    let ovf := d.2.1 || w.2.1 || u.2.1
    some (le 32 (now % 2 ^ 64 + (n % 2 ^ 20) * 2 ^ 64 + g * 2 ^ 84 + v.toNat * 2 ^ 96 + bit ovf 128 + bit long 129 +
      bit (d.2.2 != 0) 130 + bit (w.2.2 != 0) 131 + bit (u.2.2 != 0) 132 + (toFa40 d.1).toNat * 2 ^ 136 +
      (toFa40 w.1).toNat * 2 ^ 176 + (toFa40 u.1).toNat * 2 ^ 216))

/-- Writes a record into the norm ring (R132): the state, and the DVA that lay in no region. -/
def putNorm (p : Nat) (rec_ : List Byte) (s : State) : State × Option Nat :=
  let r := tabGet {} s.cnt.norm p
  let size := (s.part p).normRingRecords
  let put (x : NormRing) (s : State) : State := modCnt (fun c => { c with norm := tabPut {} c.norm p x }) s
  if size = 0 || (r.wp + 1) % size = r.rp then (put { r with dropped := satAdd 32 r.dropped 1 } s, none)
  else
    let a := (s.part p).normRingBase + 32 * r.wp
    (memWrite (ringAcc p) a rec_ (put { r with wp := (r.wp + 1) % size } s), s.unmappedIn p a 32)

/-- Forms and writes the norm records of a closing fence, then clears every partial (R132). -/
def writeNorms (p : Nat) (v : BitVec 32) (s : State) : State :=
  let es := tabGet [] s.gab.maps p
  let groups := ((es.map (fun e => e.group)).filter (fun g => decide (g < (s.part p).normGroups))).eraseDups
  let recs := (sortBy (fun a b => decide (a ≤ b)) groups).filterMap (fun g =>
    normRecord v s.now g (es.filter (fun e => e.group == g)))
  let r := recs.foldl (fun (acc : State × Option Nat) x =>
    let o := putNorm p x acc.1
    (o.1, match acc.2 with | some a => some a | none => o.2)) (s, none)
  let s1 := modGab (fun g => { g with maps := tabMod [] g.maps p (fun l => l.map (fun e =>
    { e with grad := {}, wgt := [], upd := [] })) }) r.1
  eventUnmapped (ringAcc p) r.2 s1

/-- Swaps every bolt in state TWO of the partition's two-version regions (R125). -/
def swapSlots (p : Nat) (s : State) : State :=
  modMem (fun m => { m with vers := m.vers.map (fun x =>
    if x.1 / 2 ^ 36 = p ∧ x.2.two then (x.1, { two := false, flip := ! x.2.flip }) else x) }) s

/-- The transitions of a closing fence of step v (R124, R129). -/
def closeFence (p : Nat) (v : BitVec 32) (s : State) : State :=
  let es := (tabGet [] s.gab.maps p).filter (fun e => e.wLen != 0)
  if es.any (fun e => decide (v.toNat + 1 ≤ e.version)) then
    modCnt (fun c => { c with late := tabMod {} c.late p (fun x => { x with staleFences := satAdd 12 x.staleFences 1 }) }) s
  else
    modGab (fun g => { g with maps := tabMod [] g.maps p (fun l => l.map (fun e =>
      { e with version := max e.version (v.toNat + 1) })) }) (swapSlots p s)

/-- EPOCH_FENCE_CLOSE; an armed swap holds the partition at the close of a fence of its step or later (R385). -/
def execEpochFenceClose (q : QIdx) (pos : BitVec 32) (s : State) : Host.Outcome State Fault Refusal :=
  .next (
    match s.running (isOp 0x64) q pos with
    | none => s
    | some f =>
      let p := partOfQ f.q
      let v := kpX f.word
      if fenceClear s p then
        let s1 := markDone q pos (writeNorms p v (closeFence p v s))
        if (s.wmc.armed.map (fun a => decide (a.step ≤ v.toNat))).getD false then holdPart p s1 else s1
      else s)

end Sys2Proof.Machine
end

