-- ==== Sys2Proof/Machine/Admission.lean ====
section
/-! DEFINITION. Envelope commands and the admission unit (R178–R193, R220): open, join, close, readiness, evaluation,
projection and completion. -/

namespace Sys2Proof.Machine

/-! ### Markers (R178–R180) -/

/-- The envelope that an env.open opens. -/
def openEnvelope (f : Inflight) (uid : Nat) : Envelope where
  uid := uid
  part := partOfQ f.q
  envId := f.word.extractLsb' 48 16
  members := f.word.extractLsb' 64 32
  deadline := fld f.word 96 32
  seed := f.word.extractLsb' 128 64
  step := f.word.extractLsb' 192 32
  update := fld f.word 224 1 == 1
  onRefuse := fld f.word 225 2
  openQ := f.q
  parts := [{ q := f.q, first := f.pos, close := none }]
  status := .opening
  tA := 0
  w := 0
  m := 0
  bound := 0
  admSeq := 0
  turn := 0
  booked := []
  fences := []
  ext := []
  kpAt := []
  usesT1 := false
  usesLink := false
  bytesT1 := 0
  bytesT2r := 0
  bytesT2w := 0
  bytesLink := 0
  late := false
  drew := false
  counted := false
  revoked := false
  dead := false
  warned := false

/-- ENV_OPEN: the envelope is opened and its queue stays held until the admission unit answers. -/
def execEnvOpen (q : QIdx) (pos : BitVec 32) (s : State) : Host.Outcome State Fault Refusal :=
  .next (
    match (s.inflight q pos).filter (fun f => isOp 0x61 f.word && ! f.started && s.inOrder f) with
    | none => s
    | some f =>
      let uid := s.tcs.nextUid
      let s1 := modTcs (fun t => { t with envs := t.envs ++ [openEnvelope f uid], nextUid := uid + 1 }) (markStarted q pos s)
      modInflight q pos (fun g => { g with env := some uid }) s1)

/-- The envelope that an env.join attaches to: the earliest of its partition with its env_id that names the queue and
has no part from it (R179). -/
def joinTarget (s : State) (f : Inflight) : Option Envelope :=
  s.tcs.envs.find? (fun e =>
    e.part == partOfQ f.q && e.envId == f.word.extractLsb' 48 16 && e.members.getLsbD (f.q % 32) && e.status != .ended &&
    ! e.parts.any (fun x => x.q == f.q))

/-- ENV_JOIN: attaches its queue, or leaves it held. A queue that joins an envelope already answered enters or skips its
part at once. -/
def execEnvJoin (q : QIdx) (pos : BitVec 32) (s : State) : Host.Outcome State Fault Refusal :=
  .next (
    match (s.inflight q pos).filter (fun f => isOp 0x62 f.word && ! f.started && s.inOrder f) with
    | none => s
    | some f =>
      match joinTarget s f with
      | none => s
      | some e =>
        let s1 := modInflight q pos (fun g => { g with env := some e.uid }) (markStarted q pos s)
        let s2 := modEnv e.uid (fun x => { x with parts := x.parts ++ [{ q := f.q, first := f.pos, close := none }] }) s1
        match e.status with
        | .admitted => modQueue q (fun k => { k with wait := none }) (enterPart e q s2)
        | .unguaranteed => modQueue q (fun k => { k with wait := none }) (enterPart e q s2)
        | .skipping =>
          match s2.env e.uid with
          | some e2 =>
            purgeEnvs (modEnv e.uid (fun x => { x with status := if x.allJoined then .ended else .skipping }) (skipPart e2 q s2))
          | none => s2
        | _ => s2)

/-- ENV_CLOSE: ends the queue's part, or records 0x0304 when no part of its env_id is open. -/
def execEnvClose (q : QIdx) (pos : BitVec 32) (s : State) : Host.Outcome State Fault Refusal :=
  .next (
    match (s.inflight q pos).filter (fun f => isOp 0x63 f.word && ! f.started && s.inOrder f) with
    | none => s
    | some f =>
      let s1 := releaseWait f s
      match (((s.queue q).env).bind s.env).filter (fun e => e.envId == f.word.extractLsb' 48 16) with
      | none =>
        markDone q pos (eventP 0x0304 2 (partOfQ q) (le 2 q.val ++ le 4 pos.toNat ++ le 2 (fld f.word 48 16)) s1)
      | some e =>
        let s2 := modEnv e.uid (fun x => { x with
          parts := x.parts.map (fun y => if y.q = f.q ∧ y.close.isNone then { y with close := some f.pos } else y) }) s1
        modQueue q (fun k => { k with env := none }) (markStarted q pos s2))

/-! ### Readiness (R181) -/

/-- An envelope is complete and its external waits hold (R181, R186). -/
def envReady (s : State) (e : Envelope) : Bool :=
  e.status == .opening &&
  (match allPartsOf s e with
    | none => false
    | some ps =>
      let ns := ((ps.map (fun x => x.1)).flatten).filter (fun n => ! isMarker (opcodeOf n.w))
      (externalWaits s e.part ns).all (fun n =>
        match nodeKeeper s e.part n with
        | some k => nodeHolds n (s.keeper k)
        | none => true))

/-- ENVELOPE_READY: a ready envelope enters its partition's admission queue; t_a is when it reaches the head. -/
def execEnvelopeReady (p : Part) (uid : Nat) (s : State) (errs : List ReadError := []) : Host.Outcome State Fault Refusal :=
  .next (
    match (s.env uid).filter (fun e => e.part == p.val && envReady (keepStored (planAcc p) errs s) e) with
    | none => s
    | some _ => meetErrors (planAcc p) errs (fun s =>
      let l := tabGet [] s.tcs.admQueue p
      let s1 := modEnv uid (fun e => { e with status := .queued }) s
      let s2 := modTcs (fun t => { t with admQueue := tabPut [] t.admQueue p (l ++ [uid]) }) s1
      if l.isEmpty then stampHead p s2 else s2) s)

/-! ### Evaluation (R182–R184, R187, R188) -/

/-- The member queues held at the envelope's markers. -/
def heldQueues (e : Envelope) : List (Nat × BitVec 32) := e.parts.map (fun x => (x.q, x.first))

/-- An accepted envelope, or one that runs without guarantee: the held queues enter their parts. -/
def enterParts (uid : Nat) (s : State) : State :=
  match s.env uid with
  | none => s
  | some e =>
    (heldQueues e).foldl (fun s x => modQueue x.1 (fun k => { k with wait := none }) (enterPart e x.1 s)) s

/-- External waits of an envelope (R186), as queue and ring index. -/
def extWaits (s : State) (e : Envelope) : List (Nat × BitVec 32) :=
  match allPartsOf s e with
  | none => []
  | some ps =>
    let ns := ((ps.map (fun x => x.1)).flatten).filter (fun n => ! isMarker (opcodeOf n.w))
    (externalWaits s e.part ns).map (fun n => (n.q, n.pos))

/-- Acceptance (R184, R188). -/
def acceptEnvelope (e : Envelope) (v : Evaluation) (s : State) : State :=
  let s1 := modEnv e.uid (fun x => { x with
    status := .admitted
    w := v.w
    m := v.m
    bound := x.deadline
    admSeq := s.nextAnswer
    turn := s.nextTurn
    booked := v.booked
    fences := v.fences
    ext := extWaits s e
    usesT1 := v.rates.contains .t1
    usesLink := v.rates.contains .link
    bytesT1 := v.bytes.1
    bytesT2r := v.bytes.2.1
    bytesT2w := v.bytes.2.2.1
    bytesLink := v.bytes.2.2.2 }) s
  let s2 := enterParts e.uid (leaveQueue e.part e.uid (numberAnswer s1))
  respond { e with admSeq := s.nextAnswer } 1 v.w v.m 0 (countAdm e.part (fun c => { c with admitted := satAdd 20 c.admitted 1 }) s2)

/-- Refusal as on_refuse directs (R183). -/
def refuseEnvelope (e : Envelope) (v : Evaluation) (s : State) : State :=
  let s1 := numberAnswer (modEnv e.uid (fun x => { x with admSeq := s.nextAnswer }) (leaveQueue e.part e.uid s))
  let s2 :=
    match e.onRefuse with
    | 1 => enterParts e.uid (modEnv e.uid (fun x => { x with status := .unguaranteed }) s1)
    | 2 => skipEnvelope e.uid none s1
    | _ =>
      modEnv e.uid (fun x => { x with status := .ended })
        ((heldQueues e).foldl (fun s x => modQueue x.1 (fun k => { k with state := 3, wait := none }) (dropMarker x.1 x.2 s)) s1)
  let s3 := countAdm e.part (fun c => { c with refused := satAdd 20 c.refused 1 }) s2
  purgeEnvs (respond { e with admSeq := s.nextAnswer } 2 (if v.reason = 1 then v.w + v.m else 0) v.m v.reason s3)

/-- ADMISSION_EVALUATE: the unit answers the envelope at the head of the admission queue. -/
def execAdmissionEvaluate (p : Part) (s : State) (errs : List ReadError := []) : Host.Outcome State Fault Refusal :=
  .next (
    match ((tabGet [] s.tcs.admQueue p).head?).bind s.env with
    | none => s
    | some e =>
      if s.wmc.held.contains p.val then s
      else
        meetErrors (planAcc p) errs (fun s =>
          let v := evaluate s e
          if v.reason = 0 then acceptEnvelope e v s else refuseEnvelope e v s) s)

/-! ### Projection (R189–R191) -/

/-- An internal kp.wait is left unsatisfied after every command that writes its keeper has completed (R191). -/
def interfered (s : State) (e : Envelope) : Bool :=
  let rest := remainingNodes s e
  s.tcs.inflight.any (fun f =>
    f.env == some e.uid && opcodeOf f.word == 0x40 && f.started && ! f.done && ! e.ext.contains (f.q, f.pos) &&
    (match s.keeperOf e.part (fld f.word 48 16) with
      | some k => ! rest.any (fun n =>
          (n.q != f.q || decide ((n.pos - f.pos).toNat ≥ 2 ^ 31)) && writesKeeper s e.part n k) &&
        ! waitHolds (fld f.word 96 2) (s.keeper k) (kpX f.word)
      | none => false))

/-- t_retry of a matrix command in ns, costed at 1.8 GHz (R90, R188). -/
def retryNs (s : State) (p : Nat) (w : CmdWord) : Nat :=
  let acc := planAcc p
  let x := (mxClamp s acc (mxFields w)).1
  match (s.desc acc x.descA).bind (fun d => d.format), (s.desc acc x.descB).bind (fun d => d.format) with
  | some fa, some fb =>
    let cls := rateClass fa fb
    let flow := dataflow x x.m x.n
    let blk := (foldBlocks flow x.m x.n).headD (0, x.m, 0, x.n)
    if flow = 2 then cyclesNs (startOs + blockCycles flow x.k cls fa fb blk)
    else cyclesNs (startWs + ceilDiv x.k cls.kp * max (256 * cls.perRow) passMin + pipeCycles)
  | _, _ => 0

/-- What a draw adds to a projection, at most the table's largest draw for its kind (R188, R285). -/
def marginDrawn (s : State) (e : Envelope) : MarginDraw → Nat
  | .overflowRetry q pos ns => min ns (((s.inflight q pos).map (fun f => retryNs s e.part f.word)).getD 0)
  | .storageCorrected => 0
  | .inlineEcc ns => min ns 50
  | .retirement q pos ns =>
    min ns (4000 + ((s.inflight q pos).map (fun f => ((cmdCost s e.part (fun _ => 0) f.word).getD 0).ceil.toNat)).getD 0)
  | .switchIn => 0
  | .linkRetry ns => min ns 4000
  | .retrain ns => min ns 80000
  | .measured ns => ns
  | .member q pos ns =>
    min ns (((s.inflight q pos).map (fun f => (coFields f.word).deadline * 1000)).getD 0 + 5000000)

/-- The draws on an envelope's margin together. -/
def drawSum (s : State) (e : Envelope) (draws : List MarginDraw) : Nat := (draws.map (fun d => marginDrawn s e d)).sum

/-- PROJECTION_EVALUATE: P is recomputed with the draws that the cost tables do not hold (R188, R189). An envelope that
runs on without a guarantee only notes the margin it draws (R191, R437). -/
def execProjectionEvaluate (p : Part) (uid : Nat) (draws : List MarginDraw) (s : State) : Host.Outcome State Fault Refusal :=
  .next (
    match (s.env uid).filter (fun e => e.part == p.val && e.status == .admitted) with
    | none => s
    | some e =>
      let drawNs := drawSum s e draws
      if e.dead then
        match projection s e drawNs with
        | none => s
        | some x => noteDraw uid (marginUsed e x) s
      else if interfered s e then revoke uid 3 drawNs s
      else
        match projection s e drawNs with
        | none => if e.bound = 0xFFFFFFFF then s else revoke uid 2 drawNs s
        | some x =>
          let s1 := noteDraw uid (marginUsed e x) s
          if e.bound != 0xFFFFFFFF && decide (((e.tA + e.bound * 1000 : Nat) : Rat) < x) then revoke uid 1 drawNs s1 else s1)

/-! ### Completion (R184, R193, R220) -/

/-- Every command of every part has completed. -/
def envDone (s : State) (e : Envelope) : Bool :=
  (e.status == .admitted || e.status == .unguaranteed) && e.allJoined && e.parts.all (fun x => x.close.isSome) &&
  ! s.tcs.inflight.any (fun f => f.env == some e.uid && ! isMarker (opcodeOf f.word))

/-- Ends the protection of an envelope's bolts (R220). -/
def releaseProtected (uid : Nat) (s : State) : State :=
  modMem (fun m => { m with bolts := m.bolts.map (fun x =>
    (x.1, { x.2 with
      prot0 := if x.2.prot0 = some uid then none else x.2.prot0
      prot1 := if x.2.prot1 = some uid then none else x.2.prot1 })) }) s

/-- ENVELOPE_COMPLETE: bookings and protection are released, its markers complete, and an admitted envelope's completion
record is written. -/
def execEnvelopeComplete (p : Part) (uid : Nat) (s : State) : Host.Outcome State Fault Refusal :=
  .next (
    match (s.env uid).filter (fun e => e.part == p.val && envDone s e) with
    | none => s
    | some e =>
      let s1 := countDrawn uid s
      let marks := (e.parts.map (fun x => (x.q, x.first))) ++
        e.parts.filterMap (fun x => x.close.map (fun c => (x.q, c)))
      let s2 := marks.foldl (fun s x => markDone x.1 x.2 s) s1
      let s3 := releaseProtected uid s2
      let s4 := modEnv uid (fun x => { x with status := .ended }) s3
      let s5 := if e.status = .admitted then respond e 4 (ceilDiv (s.now - e.tA) 1000) e.m 0 s4 else s4
      purgeEnvs s5)

end Sys2Proof.Machine
end

