-- ==== Sys2Proof/Machine/Tiers.lean ====
section
/-! DEFINITION. Tier-transfer commands and the mailbox (R200–R205, R213, R215, R220), migrations in progress (R206, R207),
the patrol scrubber and the end of a channel's rehash (R230, R231). A transfer moves its bolts in one step; a demand
migration may also stand in progress between two (notes/assumptions/16.md). -/

namespace Sys2Proof.Machine

/-! ### Attributes and refusals (R199, R200, R205) -/

/-- Region attributes (R199). -/
structure Attr where
  two : Bool
  runahead : Bool
  single : Bool
  pin : Nat
  park : Bool
  floor : Nat
  deriving DecidableEq, Repr

/-- Decodes a 12-bit attribute field. -/
def attrOf (n : Nat) : Attr where
  two := n / 128 % 2 == 1
  runahead := n / 64 % 2 == 1
  single := n / 32 % 2 == 1
  pin := n / 8 % 4
  park := n / 4 % 2 == 1
  floor := n % 4

/-- The pin tier of an attribute field: 1 T0, 2 T1, 3 T2. -/
def Attr.pinTier (a : Attr) : Option Tier := if a.pin = 0 then none else tierOf (a.pin - 1)

/-- A combination of floor, pin and mode that R200 refuses. -/
def badCombo (floor : Option Tier) (pin : Option Tier) (single : Bool) : Bool :=
  match floor with
  | none => true
  | some f =>
    match pin with
    | none => false
    | some p => decide (tierRank f < tierRank p) || (single && p != .t0)

/-- Multiples of a page. -/
def pageAligned (n : Nat) : Bool := n % 2097152 == 0
/-- Ranges that overlap. -/
def overlaps (a la b lb : Nat) : Bool := decide (a < b + lb) && decide (b < a + la)
/-- The region that holds a whole range. -/
def State.regionOf (s : State) (p dva len : Nat) : Option Region :=
  (s.regionAt p dva).filter (fun r => decide (dva + len ≤ r.base + r.len))
/-- The region with a base and a length. -/
def State.regionExact (s : State) (p dva len : Nat) : Option Region :=
  (s.regions p).find? (fun r => r.base == dva && r.len == len)
/-- Slots of a region's bolts. -/
def Region.slots (r : Region) : List Nat := if r.twoVer then [0, 1] else [0]
/-- Pages of a range, as page indices of its region. -/
def Region.pagesIn (r : Region) (dva len : Nat) : List Nat :=
  (List.range (len / 2097152)).map (fun i => (dva - r.base) / 2097152 + i)

/-- Bolts that a pin of a range in a tier adds to pinned (R216): those of pages above the floor not pinned there yet. -/
def newlyPinned (r : Region) (dva len : Nat) (x : Tier) : Nat :=
  if tierRank r.floor ≤ tierRank x then 0
  else 32 * r.slots.length * ((r.pagesIn dva len).filter (fun g => ! r.pins.any (fun q => q.1 == g && q.2 == x))).length

/-- A bolt of a range other than a zero bolt has no copy in a tier (R213). -/
def lacksCopy (s : State) (p : Nat) (r : Region) (dva len : Nat) (x : Tier) : Bool :=
  s.mem.bolts.any (fun e =>
    e.1 / 2 ^ 37 == p && r.slots.contains (e.1 / 2 ^ 36 % 2) &&
    decide (dva ≤ e.1 % 2 ^ 36 * 65536) && decide (e.1 % 2 ^ 36 * 65536 < dva + len) && ! e.2.isZero && ! e.2.has x)

/-- Legal tier pairs of R201, by opcode; the code 0b11 is refused in src and in dst of every opcode (R205). -/
def legalPair (op src dst : Nat) : Bool :=
  if op = 0x30 then (src == 0 && dst == 1) || (src == 1 && dst == 0)
  else if op = 0x31 then src == 2 && (dst == 0 || dst == 1)
  else if op = 0x32 then (src == 0 || src == 1) && dst == 2
  else decide (src < 3) && decide (dst < 3)

/-- Refusal of tx.map (R205), in the table's order from 0x01 on. -/
def mapReason (s : State) (p : Nat) (x : TxCmd) : Nat :=
  let a := attrOf x.attr
  let bolts := x.len / 65536 * (if a.two then 2 else 1)
  let fit (t : Tier) (dc dp : Nat) : Bool := s.limitsOk p t dc dp 0
  if ! pageAligned x.dva || ! pageAligned x.len || x.len = 0 then 1
  else if x.dva = 0 || 2 ^ 52 < x.dva + x.len || (s.regions p).any (fun r => overlaps x.dva x.len r.base r.len) then 2
  else if 4096 ≤ (s.regions p).length then 3
  else
    match tierOf a.floor with
    | none => 5
    | some f =>
      if ! fit f bolts 0 then 4
      else if badCombo (some f) a.pinTier a.single then 5
      else if (match a.pinTier with
          | some t => decide (tierRank t < tierRank f) && ! fit t 0 bolts
          | none => false) then 4
      else if f = .t2 && s.writeProtected then 0x0E
      else 0

/-- The refusal reason of a command 0x30–0x37, 0 for none (R205). -/
def txReason (s : State) (p : Nat) (x : TxCmd) : Nat :=
  if ! legalPair x.op x.src x.dst then 9
  else if x.op = 0x36 then mapReason s p x
  else if (x.op = 0x33 || x.op = 0x34) && (! pageAligned x.dva || ! pageAligned x.len || x.len = 0) then 1
  else if x.op = 0x37 then (if (s.regionExact p x.dva x.len).isNone then 7 else 0)
  else if x.op = 0x35 then
    let a := attrOf x.attr
    if badCombo (tierOf a.floor) a.pinTier a.single then 5
    else
      match s.regionExact p x.dva x.len with
      | none => 7
      | some r => if tierOf a.floor ≠ some r.floor || a.pinTier ≠ r.pin || a.single != r.single || a.two != r.twoVer then 8 else 0
  else
    match s.regionOf p x.dva x.len with
    | none => 7
    | some r =>
      match tierOf x.dst with
      | none => 0
      | some d =>
        if x.op = 0x33 then
          (if badCombo (some r.floor) (some d) r.single then 5
           else if lacksCopy s p r x.dva x.len d || ! s.limitsOk p d 0 (newlyPinned r x.dva x.len d) 0 then 6
           else 0)
        else if x.op = 0x34 then 0
        else if tierRank r.floor < tierRank d then 0xF
        else if x.op = 0x32 && s.writeProtected then 0x0E
        else 0

/-! ### Effects -/

/-- Updates the regions of a partition. -/
def modRegions (p : Nat) (f : List Region → List Region) (s : State) : State :=
  modMem (fun m => { m with regions := tabMod [] m.regions p f }) s

/-- Places every zero bolt of a range in a tier as zeros (R213). -/
def placeZeros (p : Nat) (r : Region) (dva len : Nat) (x : Tier) (s : State) : State :=
  (boltsOf dva len).foldl (fun s b => r.slots.foldl (fun s sl =>
    if (s.bolt p sl b).isZero then
      match allocateFor p sl b r x s with
      | some s1 => placeCopy p sl b r x s1
      | none => s
    else s) s) s

/-- Pins of every page of a region in one tier. -/
def pinsOf (len : Nat) (t : Option Tier) : Tab Tier :=
  match t with
  | some t => (List.range (len / 2097152)).map (fun g => (g, t))
  | none => []

/-- A region enters the table: commitment with the evictions it needs (R217), zeros in its pin tier (R202). -/
def addRegion (p : Nat) (r : Region) (s : State) : State :=
  let s1 := modRegions p (fun l => (l.filter (fun y => decide (y.base < r.base))) ++ [r] ++
    l.filter (fun y => decide (r.base < y.base))) s
  let s2 := shrinkTier r.floor (s1.mem.bolts.length + 1) s1
  match r.pin with
  | some t => placeZeros p r r.base r.len t s2
  | none => s2

/-- tx.map (R202). -/
def doMap (p : Nat) (x : TxCmd) (s : State) : State :=
  let a := attrOf x.attr
  match tierOf a.floor with
  | none => s
  | some f =>
    addRegion p
      { base := x.dva, len := x.len, floor := f, pin := a.pinTier, single := a.single, park := a.park,
        runahead := a.runahead, twoVer := a.two, pins := pinsOf x.len a.pinTier } s

/-- tx.unmap (R202): frees every copy and the commitment. -/
def doUnmap (p : Nat) (r : Region) (s : State) : State :=
  let s1 := (boltsOf r.base r.len).foldl (fun s b => setVer p b {} (zeroBolt p 1 b (zeroBolt p 0 b s))) s
  modRegions p (fun l => l.filter (fun y => y.base != r.base)) s1

/-- tx.attr (R203). -/
def doAttr (p : Nat) (x : TxCmd) (s : State) : State :=
  let a := attrOf x.attr
  modRegions p (fun l => l.map (fun r =>
    if r.base = x.dva then { r with park := a.park, runahead := a.runahead } else r)) s

/-- Replaces the pins of a range's pages (R213). -/
def setPins (p dva len : Nat) (t : Option Tier) (s : State) : State :=
  modRegions p (fun l => l.map (fun r =>
    if r.base ≤ dva ∧ dva < r.base + r.len then
      let gs := r.pagesIn dva len
      let kept := r.pins.filter (fun q => ! gs.contains q.1)
      { r with pins := match t with
          | some x => gs.foldl (fun acc g => tabInsert g x acc) kept
          | none => kept }
    else r)) s

/-- tx.pin (R213). -/
def doPin (p : Nat) (x : TxCmd) (s : State) : State :=
  match tierOf x.dst with
  | none => s
  | some t =>
    let s1 := setPins p x.dva x.len (some t) s
    match s1.regionOf p x.dva x.len with
    | some r => placeZeros p r x.dva x.len t s1
    | none => s1

/-! ### Transfers (R215, R220) -/

/-- One bolt copied or moved to a tier (R215): the source copy that is read and the new one are stamped (R219). -/
def moveBolt (p sl b : Nat) (r : Region) (src dst : Tier) (s : State) : State :=
  let s := if src = .t2 then ftlRead p sl b s else s
  let k := s.bolt p sl b
  if r.single then setBolt p sl b ((k.drop src).withCopy dst s.nowUs) s
  else
    let k1 := (k.withCopy src s.nowUs).withCopy dst s.nowUs
    let drop1 (k : Bolt) (y : Tier) : Bolt :=
      if tierRank y < tierRank dst && tierRank src < tierRank dst && r.pinOf b != some y then k.drop y else k
    setBolt p sl b (drop1 (drop1 k1 .t0) .t1) s

/-- What a transfer has come to: the state, bolts that could not be allocated, bolts placed unprotected. -/
structure Moved where
  s : State
  unplaced : Nat
  unprot : Nat
  deriving Repr

/-- Marks a placed copy as protected by an envelope (R220). -/
def protect (p sl b : Nat) (x : Tier) (uid : Nat) (s : State) : State :=
  let k := s.bolt p sl b
  setBolt p sl b (match x with
    | .t0 => { k with prot0 := some uid }
    | .t1 => { k with prot1 := some uid }
    | .t2 => k) s

/-- The envelope that protects a copy which a transfer places above the floor, and 1 when the limit leaves it unprotected
(R220). -/
def protectBy (s : State) (p : Nat) (r : Region) (dst : Tier) (env : Option Nat) : Option Nat × Nat :=
  match env with
  | none => (none, 0)
  | some u => if tierRank r.floor ≤ tierRank dst then (none, 0) else if s.limitsOk p dst 0 0 1 then (some u, 0) else (none, 1)

/-- One bolt of a transfer: skipped, moved, or, as a single-home bolt that leaves or enters T2, under way until its HOME
record is durable (R215, R250). -/
def transferBolt (f : Inflight) (r : Region) (src dst : Tier) (env : Option Nat) (acc : Moved) (b : Nat) : Moved :=
  let p := partOfQ f.q
  let sl := acc.s.readSlot (coreAcc f) (b * 65536)
  let k := acc.s.bolt p sl b
  if ! k.has src || k.has dst || (r.single && r.pinOf b == some src) then acc
  else
    match allocateFor p sl b r dst acc.s with
    | none => { acc with unplaced := acc.unplaced + 1 }
    | some s1 =>
      let u := protectBy s1 p r dst env
      { s := if r.single && (src == .t2 || dst == .t2) then beginMigration p sl b dst (some (f.q, f.pos)) u.1 s1
          else
            let s2 := moveBolt p sl b r src dst s1
            match u.1 with
            | some e => protect p sl b dst e s2
            | none => s2
        unplaced := acc.unplaced, unprot := acc.unprot + u.2 }

/-- tx.move, tx.fetch, tx.spill: the bolts of a range in ascending DVA. -/
def doTransfer (f : Inflight) (x : TxCmd) (s : State) : State :=
  let p := partOfQ f.q
  match s.regionOf p x.dva x.len, tierOf x.src, tierOf x.dst with
  | some r, some src, some dst =>
    let e := (f.env.bind s.env).filter (fun e => e.status == .admitted)
    let m := (boltsOf x.dva x.len).foldl (transferBolt f r src dst (e.map (fun e => e.uid)))
      { s := s, unplaced := 0, unprot := 0 }
    let s1 := m.s
    let s2 := if m.unplaced = 0 then s1
      else eventP 0x0403 2 p (le 1 p ++ le 4 f.pos.toNat ++ le 1 x.dst ++ le 2 m.unplaced) s1
    match e with
    | some e =>
      if m.unprot = 0 || e.warned then s2
      else
        eventP 0x0404 1 p (le 1 p ++ le 2 e.envId.toNat ++ le 1 x.dst ++ le 2 m.unprot)
          (modEnv e.uid (fun y => { y with warned := true }) s2)
    | none => s2
  | _, _, _ => s

/-- Migrations of a transfer are still under way (R215). -/
def State.moving (s : State) (q : Nat) (pos : BitVec 32) : Bool := s.mem.migrations.any (fun m => m.cmd == some (q, pos))

/-! ### Rows of the commands -/

/-- Event 0x0402 (R205, R233). -/
def txRefuse (f : Inflight) (reason : Nat) (s : State) : State :=
  eventP 0x0402 2 (partOfQ f.q) (le 1 (partOfQ f.q) ++ le 2 f.q ++ le 4 f.pos.toNat ++ le 1 (opcodeOf f.word) ++ le 1 reason) s

/-- A migration of a bolt of a range is in progress (R207): what touches the range waits for it. -/
def rangeBusy (s : State) (p dva len : Nat) : Bool :=
  s.mem.migrations.any (fun m => m.part == p && overlaps dva len (m.bolt * 65536) 65536)

/-- A commit has still to read bolts of a region of a range, which tx.unmap waits for (R245). -/
def commitReads (s : State) (p dva len : Nat) : Bool :=
  s.nvt.commits.any (fun c => c.part == p && c.phase == 1 && c.image.regions.any (fun r => overlaps dva len r.base r.len &&
    (c.image.bolts.drop c.bolts).any (fun b => decide (r.base ≤ b.bolt * 65536) && decide (b.bolt * 65536 < r.base + r.len))))

/-- A bolt of a range, or one whose place the range's bolts claim, is in flight: what acts on the range waits (R207,
R217). -/
def txWaits (s : State) (p op dva len : Nat) : Bool :=
  rangeBusy s p dva len || (op == 0x37 && commitReads s p dva len)

/-- A command 0x33–0x37 in its turn: refused, or done. -/
def txRow (op q : Nat) (pos : BitVec 32) (body : Inflight → TxCmd → State → State) (s : State) : State :=
  match s.inflight q pos with
  | none => s
  | some f =>
    let x := txFields f.word
    let r := txReason s (partOfQ f.q) x
    if txWaits s (partOfQ f.q) op x.dva x.len then s
    else if r ≠ 0 then runNow (isOp op) q pos noReads (fun f s => txRefuse f r s) s
    else whenFree (runNow (isOp op) q pos noReads (fun f s => body f x s)) s

/-- The bolts that a transfer could displace are in flight: another migration holds a bolt of the tier it claims in, and
nothing else there can leave (R217). -/
def claimWaits (s : State) (p : Nat) (x : TxCmd) : Bool :=
  match tierOf x.dst, s.regionOf p x.dva x.len with
  | some d, some r =>
    d != .t2 && s.mem.migrations.any (fun m => (s.bolt m.part m.slot m.bolt).has d) &&
    decide (tierRank d < tierRank r.floor) && decide (s.capacity d ≤ s.totalHeld d) &&
    (if s.held p d < s.quota p d then (s.overQuota d).isEmpty else (s.evictable p d).isEmpty)
  | _, _ => false

/-- A transfer in its turn: refused, or begun; it completes when every bolt has been handled and its map entry switched
(R215). A bolt that cannot be allocated because the bolts it could displace are in flight waits for them (R217). -/
def transferRow (op q : Nat) (pos : BitVec 32) (errs : List ReadError) (s : State) : State :=
  match s.inflight q pos with
  | none => s
  | some f =>
    let x := txFields f.word
    let r := txReason s (partOfQ f.q) x
    if txWaits s (partOfQ f.q) op x.dva x.len then s
    else if r ≠ 0 then runNow (isOp op) q pos noReads (fun f s => txRefuse f r s) s
    else if claimWaits s (partOfQ f.q) x then s
    else
      whenFree (runLong (isOp op) q pos noReads (fun f s =>
        let t := meetErrors { coreAcc f with agent := 10 } errs (doTransfer f x) s
        if t.moving f.q f.pos then t else markDone f.q f.pos t)) s

/-- TX_MOVE. -/
def execTxMove (q : QIdx) (pos : BitVec 32) (errs : List ReadError) (s : State) : Host.Outcome State Fault Refusal :=
  .next (transferRow 0x30 q pos errs s)
/-- TX_FETCH. -/
def execTxFetch (q : QIdx) (pos : BitVec 32) (errs : List ReadError) (s : State) : Host.Outcome State Fault Refusal :=
  .next (transferRow 0x31 q pos errs s)
/-- TX_SPILL. -/
def execTxSpill (q : QIdx) (pos : BitVec 32) (s : State) (errs : List ReadError := []) : Host.Outcome State Fault Refusal :=
  .next (transferRow 0x32 q pos errs s)
/-- TX_PIN. -/
def execTxPin (q : QIdx) (pos : BitVec 32) (s : State) : Host.Outcome State Fault Refusal :=
  .next (txRow 0x33 q pos (fun f x s => doPin (partOfQ f.q) x s) s)
/-- TX_UNPIN. -/
def execTxUnpin (q : QIdx) (pos : BitVec 32) (s : State) : Host.Outcome State Fault Refusal :=
  .next (txRow 0x34 q pos (fun f x s => setPins (partOfQ f.q) x.dva x.len none s) s)
/-- TX_ATTR. -/
def execTxAttr (q : QIdx) (pos : BitVec 32) (s : State) : Host.Outcome State Fault Refusal :=
  .next (txRow 0x35 q pos (fun f x s => doAttr (partOfQ f.q) x s) s)
/-- TX_MAP. -/
def execTxMap (q : QIdx) (pos : BitVec 32) (s : State) : Host.Outcome State Fault Refusal :=
  .next (txRow 0x36 q pos (fun f x s => doMap (partOfQ f.q) x s) s)
/-- The region of tx.unmap is freed. -/
def unmapExact (p : Nat) (x : TxCmd) (s : State) : State :=
  match s.regionExact p x.dva x.len with
  | some r => doUnmap p r s
  | none => s
/-- TX_UNMAP. -/
def execTxUnmap (q : QIdx) (pos : BitVec 32) (s : State) : Host.Outcome State Fault Refusal :=
  .next (txRow 0x37 q pos (fun f x s => unmapExact (partOfQ f.q) x s) s)

/-! ### The mailbox (R204) -/

/-- The command in a partition's mailbox. -/
def mboxWord (s : State) (p : Nat) : CmdWord :=
  BitVec.ofNat 256 (unle (((List.range 4).map (fun k => le 8 (tabGet 0 s.mem.mbox (4 * p + k)).toNat)).flatten))

/-- A mailbox command ends with its status. -/
def mailboxDone (p v : Nat) (s : State) : State :=
  modMem (fun m => { m with mboxStatus := tabPut 0 m.mboxStatus p v, mboxBusy := tabDel m.mboxBusy p }) s

/-- The effect of a mailbox command that nothing refuses. -/
def mailboxCmd (p : Nat) (x : TxCmd) (s : State) : State :=
  match x.op with
  | 0x33 => doPin p x s
  | 0x34 => setPins p x.dva x.len none s
  | 0x35 => doAttr p x s
  | 0x36 => doMap p x s
  | _ => unmapExact p x s

/-- A partition's mailbox executes a command: refused, done, or busy while it waits for a migration of its range, for a
victim's HOME record, or, as tx.unmap, for a commit that reads it. -/
def runMailbox (p : Nat) (w : CmdWord) (s : State) : State :=
  let x := txFields w
  let r := if x.op < 0x33 || 0x37 < x.op then 0xA else txReason s p x
  let busy (s : State) : State := modMem (fun m => { m with mboxBusy := tabInsert p w (tabDel m.mboxBusy p) }) s
  if r ≠ 0 then mailboxDone p r s
  else if txWaits s p x.op x.dva x.len then busy s
  else
    let t := mailboxCmd p x s
    if (homesIn s t).isEmpty && ! wroteThrottled s t then mailboxDone p 0 t else busy (beginHomes s t)

/-- The command that a busy mailbox executes (R204). -/
def State.mboxCmd (s : State) (p : Nat) : Option CmdWord := (s.mem.mboxBusy.find? (fun x => x.1 == p)).map (fun x => x.2)

/-- A mailbox command that waits is tried again. -/
def pumpMailbox (p : Nat) (s : State) : State :=
  match s.mboxCmd p with
  | some w => runMailbox p w s
  | none => s

/-- MEM_RGN_GO: the mailbox takes its command as it stands; a go written while busy is ignored. -/
def execMemRgnGo (p : Part) (s : State) : Host.Outcome State Fault Refusal :=
  .next (if (s.mboxCmd p).isSome then s else runMailbox p (mboxWord s p) s)

/-! ### Migrations in progress (R206, R207) -/

/-- The slot that a demand names. -/
def demandSlot (s : State) (p dva : Nat) (pending : Bool) : Nat :=
  let cur := s.curSlot p (dva / 65536)
  if pending then 1 - cur else cur

/-- Room for a demand's copy: in T1, else in T0 (R206), where no victim needs a HOME record and flash takes what is written
down. -/
def demandRoom (s : State) (p sl b : Nat) (r : Region) (tier : Tier) : Option (Tier × State) :=
  match allocateFor p sl b r tier s with
  | some s1 => some (tier, s1)
  | none => if tier = .t1 then (allocateFor p sl b r .t0 s).map (fun s1 => (.t0, s1)) else none

/-- DEMAND_MIGRATION: an agent that needs a bolt in a tier where it has no copy starts its migration. A demand to T1 that
cannot be allocated goes to T0; one that must wait for a victim to leave starts the victim's own migration. -/
def execDemandMigration (p : Part) (dva : BitVec 52) (pendingSlot : Bool) (tier : Tier) (agent : BitVec 8)
    (errs : List ReadError) (s : State) : Host.Outcome State Fault Refusal :=
  .next (
    let sl := demandSlot s p dva.toNat pendingSlot
    let b := dva.toNat / 65536
    match s.regionAt p dva.toNat with
    | none => eventUnmapped { planAcc p with agent := agent.toNat } (some dva.toNat) s
    | some r =>
      let k := s.bolt p sl b
      if k.isZero || k.has tier || tier = .t2 || (tier = .t1 && k.has .t0) || s.migrating p sl b then s
      else
        match demandRoom s p sl b r tier with
        | none => s
        | some (x, s1) =>
          if (homesIn s s1).isEmpty && ! wroteThrottled s s1 then
            meetErrors { planAcc p with agent := 10 } errs (beginMigration p sl b x none none) s1
          else beginHomes s s1)

/-- A migration ends: the map entry switches, the writes held meanwhile are applied at the destination (R207), the copy is
protected where its transfer belongs to an admitted envelope (R220), and a transfer without further migrations completes
(R215). -/
def finishMigration (p sl b : Nat) (s : State) : State :=
  match s.mem.migrations.find? (fun m => m.part == p && m.slot == sl && m.bolt == b) with
  | none => s
  | some m =>
    let s1 := modMem (fun x =>
      { x with migrations := x.migrations.filter (fun y => ! (y.part == p && y.slot == sl && y.bolt == b)) }) s
    let fin (s : State) : State :=
      match m.cmd with
      | some c => if s.moving c.1 c.2 then s else markDone c.1 c.2 s
      | none => s
    match s1.regionAt p (b * 65536) with
    | none => fin s1
    | some r =>
      let s2 := switchCopy p sl b r m.dst s1
      let s3 := match m.prot.filter (fun u => ((s.env u).map (fun e => e.status == .admitted)).getD false) with
        | some u => protect p sl b m.dst u s2
        | none => s2
      let s4 := m.held.foldl (fun s w => modMem (fun x => { x with bytes := rawPut x.bytes (byteKey p sl w.1) w.2 }) s) s3
      fin (if m.held.isEmpty then s4 else setBolt p sl b (writtenBolt (s4.bolt p sl b) (r.pinOf b)) s4)

/-- MIGRATION_COMPLETE: a migration that waits for its HOME record ends when the record is durable instead. A mailbox
command that waited for it runs. -/
def execMigrationComplete (p : Part) (dva : BitVec 52) (pendingSlot : Bool) (s : State) : Host.Outcome State Fault Refusal :=
  .next (
    let sl := demandSlot s p dva.toNat pendingSlot
    let b := dva.toNat / 65536
    if s.nvt.journal.any (fun j => j == .home p sl b) || s.nvt.work.any (fun w => w == .homeCopy p sl b) ||
      ! s.migrating p sl b then s
    else pumpMailbox p (finishMigration p sl b s))

/-! ### T1 maintenance (R226, R230, R231) -/

/-- PATROL_SCRUB: the scrubber's reads, with the errors they meet. -/
def execPatrolScrub (errs : List ReadError) (s : State) : Host.Outcome State Fault Refusal := .next (noteErrors 12 errs s)

/-- T1_REHASH_COMPLETE. -/
def execT1RehashComplete (ch : Fin 192) (s : State) : Host.Outcome State Fault Refusal :=
  .next (
    if s.mem.t1Rehash.contains ch.val then
      eventRetireT1 ch 2 (modMem (fun m => { m with t1Rehash := m.t1Rehash.filter (fun c => c != ch.val) }) s)
    else s)

/-- MEM_RA_CLEAR. -/
def execMemRaClear (p : Part) (s : State) : Host.Outcome State Fault Refusal :=
  .next (modMem (fun m => { m with raDiscarded := tabPut 0 m.raDiscarded p 0, raFetched := tabPut 0 m.raFetched p 0 }) s)

end Sys2Proof.Machine
end

