-- ==== Sys2Proof/Machine/GabRows.lean ====
section
/-! DEFINITION. The GAB commands (R107–R121): tx.gbind, tx.gzero, tx.gflush, contributions at their bands, and the 10 ms
waits. -/

namespace Sys2Proof.Machine

/-! ### Waiting for earlier GAB operations (R111, R118) -/

/-- A GAB operation of a command, by the parameter it names: a contribution, a zeroing or a flush; none for a bind or a
zeroing of all entries. -/
def gabParam (w : CmdWord) : Option (Option Nat) :=
  match contribOf w with
  | some c => some (some c.1)
  | none =>
    if opcodeOf w = 0x3D then some none
    else if opcodeOf w = 0x3E then some (if fld w 47 1 = 1 then none else some (fld w 120 16))
    else if opcodeOf w = 0x3F then some (some (fld w 120 16))
    else none

/-- Earlier commands of the partition, on any queue, that a predicate names have not completed. -/
def State.earlierOpen (s : State) (f : Inflight) (k : CmdWord → Bool) : Bool :=
  (s.earlier f).any (fun g => partOfQ g.q == partOfQ f.q && k g.word && ! g.done)

/-- A discarded contribution, issued before a command, to a parameter (all parameters: none) still advances its bands
(R118, R127). -/
def State.advancing (s : State) (f : Inflight) (param : Option Nat) : Bool :=
  s.gab.contribs.any (fun c => c.part == partOfQ f.q && c.discarded && decide (c.ord < f.ord) &&
    (match param with
      | some x => c.param == x
      | none => true))

/-! ### tx.gbind (R107–R111, R124) -/

/-- A GAB map entry as it stands in memory (R108). -/
structure MapEntry where
  group : Nat
  home : Nat
  wLen : Nat
  wBase : Nat
  msBase : Nat
  cols : Nat
  rows : Nat
  wdesc : Nat
  param : Nat
  deriving DecidableEq, Repr

/-- Decodes the 32 bytes of a map entry (R108). -/
def mapEntryOf (n : Nat) : MapEntry where
  group := n / 2 ^ 244 % 4096
  home := n / 2 ^ 242 % 4
  wLen := n / 2 ^ 200 % 2 ^ 40
  wBase := n / 2 ^ 148 % 2 ^ 52
  msBase := n / 2 ^ 96 % 2 ^ 52
  cols := n / 2 ^ 72 % 2 ^ 24
  rows := n / 2 ^ 48 % 2 ^ 24
  wdesc := n / 2 ^ 32 % 65536
  param := n % 65536

/-- A range lies wholly within another; an empty range does. -/
def within (a la b lb : Nat) : Bool := la == 0 || (decide (b ≤ a) && decide (a + la ≤ b + lb))

/-- Length from the first to the last byte of n rows of `rb` bytes at a stride. -/
def rowsExtent (n rb stride : Nat) : Nat := if n = 0 || rb = 0 then 0 else (n - 1) * stride + rb

/-- The element and scale bytes that a descriptor names lie within a range (R111). -/
def Desc.inside (d : Desc) (base len : Nat) : Bool :=
  match d.format with
  | none => false
  | some f =>
    within d.base (rowsExtent d.rows (rowBytes f.width d.cols) d.rowStride) base len &&
    (! f.blocked ||
      (if d.blockAxis then within d.scaleBase (rowsExtent (ceilDiv d.rows 32) d.cols d.scaleStride) base len
       else within d.scaleBase (rowsExtent d.rows (ceilDiv d.cols 32) d.scaleStride) base len))

/-- A range lies wholly in pages mapped in T1 and pinned there (R111). -/
def State.pinnedT1 (s : State) (p dva len : Nat) : Bool :=
  (List.range ((dva + len + 2097151) / 2097152 - dva / 2097152)).all (fun i =>
    let b := (dva / 2097152 + i) * 32
    match s.regionAt p (b * 65536) with
    | some r => r.pinOf b == some .t1
    | none => false)

/-- Units of 64 KiB that an entry takes in the GAB (R109). -/
def entryUnits (rows cols : Nat) : Nat := ceilDiv (entryBytes rows cols) 65536

/-- A bind in progress: entries bound so far and units taken. -/
structure Binding where
  bound : List GabEntry
  used : Nat
  deriving Repr

/-- Why a map entry is not bound (R111): 0 when it is. Where several conditions hold, the reason is the first of 1, 2, 3, 4,
5 and 7 in this order, the spec giving none (DESIGN CHOICE, notes/assumptions/69.md). -/
def bindReason (s : State) (p quota : Nat) (m : MapEntry) (d : Option Desc) (b : Binding) : Nat :=
  let fits := decide (b.used + entryUnits m.rows m.cols ≤ quota)
  let ms := m.home == 1 || (m.home == 2 && ! fits)
  if b.bound.any (fun e => e.param == m.param) then 1
  else if m.rows = 0 || m.cols = 0 then 2
  else if m.home = 0 && ! fits then 3
  else if ms && ! s.pinnedT1 p m.msBase (entryBytes m.rows m.cols) then 4
  else if m.wLen ≠ 0 && b.bound.any (fun e => decide (e.wLen ≠ 0) && overlaps m.wBase m.wLen e.wBase e.wLen) then 5
  else if m.group < (s.part p).normGroups &&
      (match d with
        | none => true
        | some d => decide (10 ≤ d.fmt) || ! d.inside m.wBase m.wLen) then 7
  else 0

/-- The entry that a map entry binds, at +0 (R111). -/
def boundEntry (s : State) (p quota step : Nat) (m : MapEntry) (d : Option Desc) (b : Binding) : GabEntry where
  param := m.param
  ms := m.home == 1 || (m.home == 2 && ! decide (b.used + entryUnits m.rows m.cols ≤ quota))
  rows := m.rows
  cols := m.cols
  group := m.group
  wBase := m.wBase
  wLen := m.wLen
  msBase := m.msBase
  wDesc := if m.group < (s.part p).normGroups then d else none
  unit0 := b.used
  units := entryUnits m.rows m.cols
  version := step
  bands := []
  elems := []
  grad := {}
  wgt := []
  upd := []

/-- Event 0x0440 (R107, R111). -/
def notBoundReq (p idx param reason : Nat) : EvReq where
  code := 0x0440
  sev := 2
  part := some p
  parts := [p]
  data := le 1 p ++ le 2 idx ++ le 2 param ++ le 1 reason

/-- One entry of the map, in order: the entries that are not bound, and the binding. `s0` is the state the command
reads. -/
def bindOne (f : Inflight) (s0 : State) (mapBase : Nat) (acc : List EvReq × Binding) (i : Nat) :
    List EvReq × Binding :=
  let p := partOfQ f.q
  let quota := tabGet 0 s0.gab.quota p
  let m := mapEntryOf (unle (s0.readBytes (coreAcc f) (mapBase + 32 * i) 32))
  if m.home = 3 then acc
  else
    let d := s0.desc (coreAcc f) m.wdesc
    let r := bindReason s0 p quota m d acc.2
    if r ≠ 0 then (acc.1 ++ [notBoundReq p i m.param r], acc.2)
    else
      let e := boundEntry s0 p quota f.step.toNat m d acc.2
      (acc.1, { bound := acc.2.bound ++ [e], used := if e.ms then acc.2.used else acc.2.used + e.units })

/-- Descriptors that the entries of a map make the device read. -/
def bindDescs (f : Inflight) (s : State) (mapBase count : Nat) : List (Nat × Nat) :=
  let p := partOfQ f.q
  ((List.range count).map (fun i => mapEntryOf (unle (s.readBytes (coreAcc f) (mapBase + 32 * i) 32)))).filterMap (fun m =>
    if m.home ≠ 3 && decide (m.group < (s.part p).normGroups) && decide (m.wdesc < (s.part p).descCount) then
      some (s.descDva p m.wdesc, 64) else none)

/-- The ranges that a bind reads: its map, and the descriptors that the map's entries name. -/
def bindSpans (f : Inflight) (s : State) : List (Nat × Nat) :=
  let base := fld f.word 64 52
  let count := fld f.word 48 16
  (base, 32 * count) :: bindDescs f s base count

/-- Binds a map (R111): entries in ascending index, the earlier binding replaced, every bolt of the partition's
two-version regions in state ONE (R124), memory-side storage zeroed. -/
def doBind (f : Inflight) (s : State) : State :=
  let p := partOfQ f.q
  let base := fld f.word 64 52
  let count := fld f.word 48 16
  let spans := bindSpans f s
  let s1 := spans.foldl (fun s r => touchRead (coreAcc f) false r.1 r.2 s) s
  let r := (List.range count).foldl (bindOne f s base) ([], { bound := [], used := 0 })
  let s2 := modGab (fun g => { g with maps := tabPut [] g.maps p r.2.bound }) s1
  let s3 := modMem (fun m => { m with vers := (m.vers.map (fun x =>
    if x.1 / 2 ^ 36 = p then (x.1, { x.2 with two := false }) else x)).filter (fun x => x.2 != {}) }) s2
  let s4 := (r.2.bound.filter (fun e => e.ms)).foldl (fun s e => zeroEntry p e s) s3
  eventBatch (unmappedReqs (coreAcc f) (s.firstUnmapped p spans) ++ r.1) s4

/-- TX_GBIND: first waits until every GAB operation of the partition issued before it has completed. -/
def execTxGbind (q : QIdx) (pos : BitVec 32) (s : State) (errs : List ReadError := []) : Host.Outcome State Fault Refusal :=
  .next (
    match s.inflight q pos with
    | none => s
    | some f =>
      if s.earlierOpen f (fun w => (gabParam w).isSome) || s.advancing f none then s
      else
        runNowAt (isOp 0x3D) q pos (fun f _ => [(fld f.word 64 52, 32 * fld f.word 48 16)])
          (fun f s => readsOf (coreAcc f) (bindSpans f s)) (fun f => meetErrors (coreAcc f) errs (doBind f)) s)

/-! ### tx.gzero (R118) -/

/-- The contributions, issued before a command, that it waits for before it zeroes an entry (none: all entries) have
neither completed nor been discarded (R118). -/
def State.addsBefore (s : State) (f : Inflight) (param : Option Nat) : Bool :=
  s.earlierOpen f (fun w =>
    match contribOf w, param with
    | some c, some x => c.1 == x
    | some _, none => true
    | none, _ => false) || s.advancing f param

/-- Zeroes the entry named, or every bound entry. A reference that fails records 0x0443 with origin 0 and size 0 × 0: the
command carries neither, and the spec does not say what stands there (DESIGN CHOICE, notes/assumptions/21.md). -/
def doZero (f : Inflight) (s : State) : State :=
  let p := partOfQ f.q
  let x := gbFields f.word
  if x.zeroAfter then (tabGet [] s.gab.maps p).foldl (fun s e => zeroEntry p e s) s
  else
    match s.gabEntry p x.param with
    | some e => zeroEntry p e s
    | none => eventGabRef p x.param f.pos 0 0 0 s

/-- TX_GZERO: first waits for every contribution to the entries that was issued before it. -/
def execTxGzero (q : QIdx) (pos : BitVec 32) (s : State) : Host.Outcome State Fault Refusal :=
  .next (
    match s.inflight q pos with
    | none => s
    | some f =>
      if s.addsBefore f (if (gbFields f.word).zeroAfter then none else some (gbFields f.word).param) then s
      else runNow (isOp 0x3E) q pos noReads doZero s)

/-! ### tx.gflush (R119) -/

/-- The GAB engine's access (R206, R474). -/
def flushAcc (f : Inflight) : Acc := { coreAcc f with agent := 11 }

/-- The first band whose next_seq is not the awaited number. -/
def GabEntry.unmet (e : GabEntry) (expect : Nat) : Option Nat :=
  (List.range e.nBands).find? (fun b => (tabGet {} e.bands b).nextSeq != expect)

/-- The ranges that a flush writes: scales and elements of the entry's size, and the flag bytes. -/
def flushDests (e : GabEntry) (d : Desc) (fm : Fmt) : List (Nat × Nat) :=
  let r := d.ranges fm e.rows e.cols
  r.drop e.rows ++ r.take e.rows ++
  (if d.flagBase = 0 then [] else (List.range e.nBands).map (fun bi => (d.flagBase + bi * ceilDiv e.cols 256, ceilDiv e.cols 256)))

/-- Steps 2 to 4 of a flush. -/
def flushEntry (f : Inflight) (x : GbCmd) (e : GabEntry) (d : Desc) (fm : Fmt) (told : Bool) (s : State) : State :=
  let p := partOfQ f.q
  let a := flushAcc f
  let vals := (List.range e.rows).map (fun i => (List.range e.cols).map (fun j =>
    (ofFa40 (s.gabElem p e i j)).scale2 x.expAdj))
  let rnd : RndCtx := { sr := x.rnd == 1, seed := f.seed, step := f.step, tensor := x.tensor, origin := x.origin }
  let c := convertRows fm d.blockAxis none rnd (if d.idxPitch = 0 then e.cols else d.idxPitch) vals
  let tj := ceilDiv e.cols 256
  let ovfIn (bi bj : Nat) : Bool := ((c.ovf.drop (256 * bi)).take 256).any (fun r => ((r.drop (256 * bj)).take 256).any id)
  let flags : List (Nat × List Byte) :=
    if d.flagBase = 0 then []
    else (List.range e.nBands).map (fun bi =>
      let b := tabGet {} e.bands bi
      (d.flagBase + bi * tj, (List.range tj).map (fun bj => flagByte (b.ovf || ovfIn bi bj) b.long)))
  let ws := tensorWrites (destByte s a) d fm c ++ flags
  let um := s.firstUnmapped p (flushDests e d fm)
  let src := if e.ms then s.firstUnmapped p [(e.elemDva 0 0, 5 * e.rows * e.cols)] else none
  let s1 := cmdWrites a ws s
  let s2 := if x.norm then modEntry p e.param (fun y => { y with grad := vals.flatten.foldl Partial.push y.grad }) s1 else s1
  if told then s2
  else eventUnmapped a (match src with | some d => some d | none => um) s2

/-- The destination of a flush, none when the flush does nothing (R119). -/
def flushTarget (s : State) (f : Inflight) (x : GbCmd) : Option (GabEntry × Desc × Fmt) :=
  match s.gabEntry (partOfQ f.q) x.param, s.desc (coreAcc f) x.descD with
  | some e, some d =>
    match d.format with
    | some fm => if e.rows ≤ d.rows ∧ e.cols ≤ d.cols then some (e, d, fm) else none
    | none => none
  | _, _ => none

/-- A flush's fields with rnd clamped (R120). -/
def flushCmd (f : Inflight) : GbCmd :=
  let x := gbFields f.word
  { x with rnd := if 2 ≤ x.rnd then 0 else x.rnd }

/-- A flush past its checks. -/
def State.flush (s : State) (f : Inflight) : Option Flush := s.gab.flushes.find? (fun x => x.q == f.q && x.pos == f.pos)
/-- Ends a flush. -/
def endFlush (f : Inflight) (s : State) : State :=
  markDone f.q f.pos (modGab (fun g => { g with flushes := g.flushes.filter (fun x => ! (x.q == f.q && x.pos == f.pos)) }) s)

/-- Step 5 of a flush that has written its tensor: with zero_after it acts as tx.gzero, waiting as tx.gzero does (R118,
R119). -/
def flushZero (f : Inflight) (s : State) : State :=
  let p := partOfQ f.q
  let x := gbFields f.word
  if ! x.zeroAfter then endFlush f s
  else if s.addsBefore f (some x.param) then s
  else
    endFlush f (match s.gabEntry p x.param with
      | some e => zeroEntry p e s
      | none => s)

/-- A flush has taken its steps 2 to 4. -/
def flushWritten (f : Inflight) (s : State) : State :=
  modGab (fun g => { g with flushes := g.flushes.map (fun x => if x.q = f.q ∧ x.pos = f.pos then { x with written := true } else x) }) s

/-- Event 0x0442: a flush goes on although a band has not reached expect. -/
def eventUnmet (p : Nat) (x : GbCmd) (e : GabEntry) (band : Option Nat) (s : State) : State :=
  match band with
  | none => s
  | some b => eventP 0x0442 2 p (le 1 p ++ le 2 x.param ++ le 2 b ++ le 2 (tabGet {} e.bands b).nextSeq ++ le 2 x.expect) s

/-- What a flush does once it need not wait: the event of an unmet band, its reads and writes, and the zeroing after. -/
def flushNow (f : Inflight) (h : Flush) (e : GabEntry) (fm : Fmt) (errs : List ReadError) (band : Option Nat) (s : State) : State :=
  let p := partOfQ f.q
  let x := flushCmd f
  whenReached (writesOf (flushAcc f) (flushDests e h.desc fm)) (fun s =>
    flushZero f (flushWritten f (meetErrors (flushAcc f) errs (fun s =>
      flushEntry f x ((s.gabEntry p x.param).getD e) h.desc fm h.told s) (eventUnmet p x e band s)))) s

/-- A started flush's turn, into the tensor it found at its start: it reads and writes when every band has reached expect,
when expect is 0, or after 10 ms. -/
def flushTurn (f : Inflight) (timeout : Bool) (errs : List ReadError) (s : State) : State :=
  let p := partOfQ f.q
  let x := flushCmd f
  match s.flush f with
  | none => s
  | some h =>
    match h.written, s.gabEntry p x.param, h.desc.format with
    | false, some e, some fm =>
      match (if x.expect = 0 then none else e.unmet x.expect) with
      | none => flushNow f h e fm errs none s
      | some b => if timeout && decide (f.since + 10000000 ≤ s.now) then flushNow f h e fm errs (some b) s else s
    | true, _, _ => flushZero f s
    | false, _, _ => endFlush f s

/-- A flush's start: clamp, checks, and its first turn. A reference that fails records 0x0443 with the command's
index_origin and the entry's size, 0 × 0 when it is unbound (DESIGN CHOICE, notes/assumptions/21.md). -/
def flushStart (errs : List ReadError) (f : Inflight) (s : State) : State :=
  let p := partOfQ f.q
  let x := gbFields f.word
  let s := clampPart p (if 2 ≤ x.rnd then [7] else []) s
  let ds := descSpans s p [x.descD]
  let s1 := ds.foldl (fun s r => touchRead (coreAcc f) false r.1 r.2 s) s
  let s2 := eventUnmapped (coreAcc f) (s.firstUnmapped p ds) s1
  match flushTarget s2 f x with
  | some t =>
    let h : Flush :=
      { q := f.q, pos := f.pos, ord := f.ord, part := p, param := x.param, desc := t.2.1,
        told := (s.firstUnmapped p ds).isSome, written := false }
    flushTurn f false errs (modGab (fun g => { g with flushes := g.flushes ++ [h] }) s2)
  | none =>
    let e := s2.gabEntry p x.param
    markDone f.q f.pos (eventGabRef p x.param f.pos x.origin ((e.map (fun e => e.rows)).getD 0)
      ((e.map (fun e => e.cols)).getD 0) s2)

/-- TX_GFLUSH: starts, or goes on when what it waits for has come. -/
def execTxGflush (q : QIdx) (pos : BitVec 32) (s : State) (errs : List ReadError := []) : Host.Outcome State Fault Refusal :=
  .next (
    match s.running (isOp 0x3F) q pos with
    | some f => flushTurn f false errs s
    | none => runLongAt (isOp 0x3F) q pos noReads (fun f s =>
        readsOf (coreAcc f) (descSpans s (partOfQ f.q) [(gbFields f.word).descD])) (flushStart errs) s)

/-- GFLUSH_WAIT_TIMEOUT. -/
def execGflushWaitTimeout (q : QIdx) (pos : BitVec 32) (s : State) (errs : List ReadError := []) :
    Host.Outcome State Fault Refusal :=
  .next (
    match s.running (isOp 0x3F) q pos with
    | some f => flushTurn f true errs s
    | none => s)

/-! ### Contributions (R113–R115, R127) -/

/-- A contribution's turn at a band has come: it reads the elements that it adds to (R113, R114). -/
def contribReads (c : Contribution) (band : Nat) (s : State) : Bool :=
  match s.gabEntry c.part c.param with
  | none => false
  | some e => c.todo.contains band && ! s.zeroPending c && ! c.discarded &&
      seqAhead c.seq (tabGet {} e.bands band).nextSeq == 0

/-- GAB_CONTRIBUTION_ADD. -/
def execGabContributionAdd (q : QIdx) (pos : BitVec 32) (band : Nat) (s : State) (errs : List ReadError := []) :
    Host.Outcome State Fault Refusal :=
  .next (
    match s.contrib q pos with
    | some c => if contribReads c band s then meetErrors (adderAcc c.part c.q c.pos) errs (contribStep c band) s else contribStep c band s
    | none => s)

/-- GAB_WAIT_TIMEOUT. -/
def execGabWaitTimeout (q : QIdx) (pos : BitVec 32) (band : Nat) (s : State) : Host.Outcome State Fault Refusal :=
  .next (
    match s.contrib q pos with
    | some c => contribTimeout c band s
    | none => s)

end Sys2Proof.Machine
end

