-- ==== Sys2Proof/Machine/Flash.lean ====
section
/-! DEFINITION. The flash tier's commands and its own work (R234–R258): checkpoints under journal records, and media
maintenance. A commit takes its snapshot when BEGIN is durable (R245), so its bolts are held from then on; each
FLASH_PROGRAM_COMPLETE and JOURNAL_RECORD_DURABLE does the piece of work at the front of its list, and each TX_RESTORE
after the first places the next bolt of its restore (notes/assumptions/81.md). -/

namespace Sys2Proof.Machine

/-! ### Checkpoints: what a commit records (R244) -/

/-- The parts of a partition's regions that a range covers; the whole regions for dva 0 and len 0. -/
def ckptRegions (s : State) (p dva len : Nat) : List Region :=
  if dva = 0 ∧ len = 0 then s.regions p
  else (s.regions p).filterMap (fun r =>
    let lo := max dva r.base
    let hi := min (dva + len) (r.base + r.len)
    if lo < hi then some { r with base := lo, len := hi - lo, pins := pinsOf (hi - lo) r.pin } else none)

/-- Slots of a bolt that a commit reads: those a read of its own step would choose (R214, R244). -/
def ckptSlots (s : State) (a : Acc) (r : Region) (b : Nat) : List Nat :=
  [0, 1].filter (fun sl =>
    if r.twoVer then (List.range 65536).any (fun i => s.readSlot a (b * 65536 + i) == sl) else sl == 0)

/-- One bolt of a commit: its bytes when it is not a zero bolt. -/
def ckptBoltOf (s : State) (a : Acc) (r : Region) (b : Nat) : CkptBolt :=
  let slots := ckptSlots s a r b
  let bytes := (slots.map (fun sl =>
    let lo := byteKey a.part sl (b * 65536)
    ((tabSlice s.mem.bytes lo (lo + 65536)).map (fun c => (c.1 - lo, c.2))).filter (fun c =>
      ! r.twoVer || s.readSlot a (b * 65536 + c.1) == sl))).flatten
  let nz := slots.any (fun sl => ! (s.bolt a.part sl b).isZero)
  { bolt := b, nonzero := nz, bytes := if nz then sortBy (fun x y => decide (x.1 ≤ y.1)) bytes else [] }

/-- The image of a commit as the partition stands now. -/
def ckptImage (s : State) (f : Inflight) (gen : Nat) : Ckpt :=
  let x := txFields f.word
  let p := partOfQ f.q
  let rs := ckptRegions s p x.dva x.len
  let whole := x.dva = 0 && x.len = 0
  { gen := gen, keyId := (s.part p).keyId % 256, step := f.step.toNat, tag := x.tag, dva := x.dva,
    len := if whole then (rs.map (fun r => r.len)).sum else x.len, regions := rs,
    bolts := (rs.map (fun r => (boltsOf r.base r.len).map (ckptBoltOf s { coreAcc f with agent := 9 } r))).flatten }

/-! ### Refusals (R205, R248) -/

/-- Whole pages within mapped regions. -/
def pagesMapped (s : State) (p dva len : Nat) : Bool :=
  len != 0 && pageAligned dva && pageAligned len &&
  (List.range (len / 2097152)).all (fun i => (s.regionAt p (dva + 2097152 * i)).isSome)

/-- Regions a restore maps first would overlap one, or be too many (0x02, 0x03), or break a limit of R216 (0x04). -/
def fullRestoreReason (s : State) (p : Nat) (rs : List Region) : Nat :=
  let dc (t : Tier) : Nat := ((rs.filter (fun r => r.floor == t)).map (fun r => r.bolts * r.slots.length)).sum
  let dp (t : Tier) : Nat :=
    ((rs.filter (fun r => r.pin == some t && tierRank t < tierRank r.floor)).map (fun r => r.bolts * r.slots.length)).sum
  if rs.any (fun r => (s.regions p).any (fun y => overlaps r.base r.len y.base y.len)) then 2
  else if 4096 < (s.regions p).length + rs.length then 3
  else if [Tier.t0, .t1, .t2].any (fun t => ! s.limitsOk p t (dc t) (dp t) 0) then 4
  else 0

/-- Floors of the regions that a restore fills. -/
def restoreFloors (s : State) (p : Nat) (x : TxCmd) (c : Ckpt) : List Tier :=
  if x.dva = 0 ∧ x.len = 0 then c.regions.map (fun r => r.floor)
  else ((s.regions p).filter (fun r => overlaps x.dva x.len r.base r.len)).map (fun r => r.floor)

/-- The refusal reason of a checkpoint command, 0 for none. -/
def ckptReason (s : State) (f : Inflight) : Nat :=
  let x := txFields f.word
  let p := partOfQ f.q
  let full := x.dva = 0 && x.len = 0
  if x.op = 0x3B || x.op = 0x3C then 0xB
  else if x.op = 0x38 then
    if ! full && ! pagesMapped s p x.dva x.len then 7
    else if ! s.limitsOk p .t2 ((ckptImage s f 0).bolts.filter (fun b => b.nonzero)).length 0 0 then 4
    else if s.writeProtected then 0xE
    else 0
  else if x.op = 0x39 then
    if x.dst = 3 then 9
    else if ! full && ! pagesMapped s p x.dva x.len then 7
    else
      match s.ckpt p x.slot with
      | none => 0xC
      | some c =>
        let m := if full then fullRestoreReason s p c.regions else 0
        if ! full && c.len ≠ x.len then 7
        else if m ≠ 0 then m
        else if c.keyId ≠ (s.part p).keyId % 256 then 0xD
        else if (tierOf x.dst).any (fun d => (restoreFloors s p x c).any (fun t => decide (tierRank t < tierRank d))) then 0xF
        else 0
  else if (s.ckpt p x.slot).isNone then 0xC
  else 0

/-! ### Commits (R244–R246, R249, R253) -/

/-- Updates the commit of a partition. -/
def modCommit (p : Nat) (g : Commit → Commit) (s : State) : State :=
  modNvt (fun n => { n with commits := n.commits.map (fun c => if c.part = p then g c else c) }) s
/-- The commit of a partition. -/
def State.commit (s : State) (p : Nat) : Option Commit := s.nvt.commits.find? (fun c => c.part == p)
/-- The commit of a partition ends. -/
def dropCommit (p : Nat) (s : State) : State :=
  modNvt (fun n => { n with commits := n.commits.filter (fun c => c.part != p) }) s
/-- Issues a journal record. -/
def journal (r : JRec) (s : State) : State := modNvt (fun n => { n with journal := n.journal ++ [r] }) s
/-- Makes a flash program due. -/
def flashWork (w : FlashWork) (s : State) : State := modNvt (fun n => { n with work := n.work ++ [w] }) s
/-- Where the pages of a commit in progress belong until it is valid. -/
def commitOrigin (slot : Nat) : Nat := 17 + slot
/-- Frees the pages of a checkpoint image. -/
def freeImage (p origin : Nat) (s : State) : State := ftlFree (fun g => g.part == p && g.origin == origin) s

/-- Ranges that a tx.ckpt reads (R124, R187): those of its regions; none when it is refused. -/
def ckptReads (f : Inflight) (s : State) : List (Nat × Nat) :=
  let x := txFields f.word
  if ckptReason s f ≠ 0 then [] else (ckptRegions s (partOfQ f.q) x.dva x.len).map (fun r => (r.base, r.len))

/-- How a checkpoint command reads and writes memory. -/
def ckptAcc (f : Inflight) : Acc := { coreAcc f with agent := 9 }

/-- TX_CKPT: issues BEGIN. The errors are those that its reads of the map and the directory meet. -/
def execTxCkpt (q : QIdx) (pos : BitVec 32) (s : State) (errs : List ReadError := []) : Host.Outcome State Fault Refusal :=
  .next (runLong (isOp 0x38) q pos ckptReads (fun f s =>
    let r := ckptReason s f
    let p := partOfQ f.q
    let x := txFields f.word
    if r ≠ 0 then markDone f.q f.pos (txRefuse f r s)
    else
      let gen := tabGet 0 s.nvt.gens (p * 16 + x.slot) + 1
      meetErrors (ckptAcc f) errs (fun s => journal (.begin_ p) (modNvt (fun n => { n with commits := n.commits ++
        [{ part := p, slot := x.slot, q := f.q, pos := f.pos, phase := 1, image := ckptImage s f gen, begun := false,
           bolts := 0 }] }) s)) s) s)

/-- BEGIN is durable: the snapshot, in a stream of its own. -/
def beginDurable (c : Commit) (s : State) : State :=
  match s.inflight c.q c.pos with
  | none => s
  | some f =>
    let s1 := modNvt (fun n => { n with open_ := tabClear n.open_ ((2 + c.part) * 16) ((2 + c.part) * 16 + 16) }) s
    flashWork (.ckptBolts c.part) (modCommit c.part (fun y => { y with begun := true, image := ckptImage s f c.image.gen }) s1)

/-- The bolt of an image as its read finds it: uncorrectable errors give bytes in place of the stored ones (R228, R229,
R239). -/
def CkptBolt.met (k : CkptBolt) (p : Nat) (errs : List ReadError) : CkptBolt :=
  let put (addr : BitVec 52) (q : Part) (stored : List Byte) (t : Tab Byte) : Tab Byte :=
    (stored.zipIdx).foldl (fun t x =>
      let at_ := addr.toNat + x.2
      if q.val = p ∧ at_ / 65536 = k.bolt then tabPut 0#8 t (at_ % 65536) x.1 else t) t
  { k with bytes := errs.foldl (fun t e =>
      match e with
      | .t0Uncorrectable _ addr q stored => put addr q stored t
      | .t1Uncorrectable _ _ _ addr q stored => put addr q stored t
      | .flashUncorrectable _ _ _ addr q stored => put addr q stored t
      | _ => t) k.bytes }

/-- A commit reads one bolt from its top copy: a T2 copy's pages count the read, and bytes that the memory still holds are
found as the read gave them. -/
def commitRead (f : Inflight) (k : CkptBolt) (errs : List ReadError) (s : State) : State :=
  let a := ckptAcc f
  match s.regionAt a.part (k.bolt * 65536) with
  | none => s
  | some r =>
    let s1 := (ckptSlots s a r k.bolt).foldl (fun s sl =>
      if (s.bolt a.part sl k.bolt).top = some .t2 then ftlRead a.part sl k.bolt s else s) s
    if ckptBoltOf s a r k.bolt = k then keepStored a errs s1 else s1

/-- A commit has programmed its last bolt: DIR is issued, and an unmapping that waited for its reads goes on (R245). -/
def commitCopied (c : Commit) (s : State) : State :=
  pumpMailbox c.part (journal (.dir c.part) (modCommit c.part (fun y => { y with bolts := c.image.bolts.length }) s))

/-- The program of a commit's next non-zero bolt completes, in ascending DVA (R244, R245). -/
def commitStep (c : Commit) (errs : List ReadError) (s : State) : State :=
  let rest := c.image.bolts.drop c.bolts
  let zeros := (rest.takeWhile (fun b => ! b.nonzero)).length
  match rest.drop zeros with
  | [] => commitCopied c s
  | k :: more =>
    let i := c.bolts + zeros
    let s1 := match s.inflight c.q c.pos with
      | some f => commitRead f k errs s
      | none => s
    let s2 := ftlPlace c.part (commitOrigin c.slot) 0 k.bolt (2 + c.part) s1
    let s3 := modCommit c.part (fun y =>
      { y with bolts := i + 1, image := { y.image with bolts := y.image.bolts.set i (k.met c.part errs) } }) s2
    noteErrors 9 errs (if more.any (fun b => b.nonzero) then flashWork (.ckptBolts c.part) s3
      else
        match s3.commit c.part with
        | some y => commitCopied y s3
        | none => s3)

/-- COMMIT is durable: the new image is the slot's checkpoint, the old one's blocks return to free space. -/
def commitDurable (c : Commit) (s : State) : State :=
  let s1 := freeImage c.part (c.slot + 1) s
  let s2 := modNvt (fun n =>
    { n with
      blocks := n.blocks.map (fun x => (x.1, { x.2 with pages := x.2.pages.map (fun g =>
        if g.part = c.part ∧ g.origin = commitOrigin c.slot then { g with origin := c.slot + 1 } else g) }))
      ckpts := tabInsert (c.part * 16 + c.slot) c.image (tabDel n.ckpts (c.part * 16 + c.slot))
      gens := tabPut 0 n.gens (c.part * 16 + c.slot) c.image.gen }) s1
  journal (.released c.part) (modCommit c.part (fun y => { y with phase := 3 }) s2)

/-! ### Restore and drop (R247) -/

/-- The copies a restored bolt has: in dst and in a pin tier; a single-home bolt's one home is its pin tier when its page
is pinned (R212, R213); a zero bolt keeps only its pin copy. -/
def restoredCopies (r : Region) (b : Nat) (dst : Tier) (nonzero : Bool) : List Tier :=
  match r.pinOf b with
  | some t => if nonzero && ! r.single && t != dst then [dst, t] else if nonzero && ! r.single then [dst] else [t]
  | none => if nonzero then [dst] else []

/-- Adds a copy in a tier, in T0 when T1 cannot take it (R206, R217), in the floor tier when neither can. -/
def addCopy (p sl b : Nat) (r : Region) (s : State) (x : Tier) : State :=
  match allocate p r x true s with
  | some s1 => setBolt p sl b ((s1.bolt p sl b).withCopy x s1.nowUs) s1
  | none =>
    match (if x = .t1 then allocate p r .t0 true s else none) with
    | some s1 => setBolt p sl b ((s1.bolt p sl b).withCopy .t0 s1.nowUs) s1
    | none => setBolt p sl b ((s.bolt p sl b).withCopy r.floor s.nowUs) s

/-- Replaces a target bolt by a bolt of the checkpoint. -/
def restoreBolt (a : Acc) (dst : Tier) (b : Nat) (k : CkptBolt) (s : State) : State :=
  match s.regionAt a.part (b * 65536) with
  | none => s
  | some r =>
    let p := a.part
    let par := s.touchesParam p (b * 65536) 65536
    let s1 := if r.twoVer && par then openPending p b s else s
    let slots := [0, 1].filter (fun sl =>
      if r.twoVer then (List.range 65536).any (fun i => s1.writeSlot a (b * 65536 + i) == sl) else sl == 0)
    let s2 := slots.foldl (fun s sl => (restoredCopies r b dst k.nonzero).foldl (addCopy p sl b r) (setBolt p sl b {} s)) s1
    let keep (c : Host.Cell) : Bool :=
      ! slots.any (fun sl =>
        let lo := byteKey p sl (b * 65536)
        decide (lo ≤ c.1) && decide (c.1 < lo + 65536) && s1.writeSlot a (b * 65536 + (c.1 - lo)) == sl)
    let s3 := modMem (fun m =>
      { m with bytes := k.bytes.foldl (fun acc c =>
          rawPut acc (byteKey p (s1.writeSlot a (b * 65536 + c.1)) (b * 65536 + c.1)) c.2) (m.bytes.filter keep) }) s2
    match a.cmd with
    | some (_, true) => if par then normTerms a s (b * 65536) 65536 s3 else s3
    | _ => s3

/-- Bolts that a restore replaces, in the checkpoint's order. -/
def restoreTargets (x : TxCmd) (c : Ckpt) : List (Nat × CkptBolt) :=
  if x.dva = 0 ∧ x.len = 0 then c.bolts.map (fun k => (k.bolt, k))
  else (boltsOf x.dva x.len).zip c.bolts

/-- A restore that no reason refuses begins: a full one maps the recorded regions; it shows as phase 4 (R247, R257). -/
def beginRestore (f : Inflight) (s : State) : State :=
  let x := txFields f.word
  let p := partOfQ f.q
  match s.ckpt p x.slot with
  | some c =>
    let s1 := if x.dva = 0 ∧ x.len = 0 then
        c.regions.foldl (fun s r => addRegion p { r with pins := pinsOf r.len r.pin } s) s
      else s
    modNvt (fun n => { n with commits := n.commits ++
      [{ part := p, slot := x.slot, q := f.q, pos := f.pos, phase := 4, image := c, begun := true, bolts := 0 }] }) s1
  | none => s

/-- A restore that has placed its last bolt completes. -/
def endRestore (f : Inflight) (s : State) : State :=
  match s.commit (partOfQ f.q) with
  | some c => if c.image.bolts.length ≤ c.bolts then markDone f.q f.pos (dropCommit (partOfQ f.q) s) else s
  | none => s

/-- The restore of a bolt switches the one home of a single-home bolt into or out of T2, which takes a HOME record (R249;
notes/assumptions/80.md). -/
def restoresHome (s : State) (p : Nat) (dst : Tier) (b : Nat) : Bool :=
  match s.regionAt p (b * 65536) with
  | some r => r.single && r.slots.any (fun sl =>
      (s.bolt p sl b).has .t2 != ((restoredCopies r b dst true).contains .t2))
  | none => false

/-- The next bolt of a restore: the checkpoint's pages are read, the target replaced, and the bytes found as the read gave
them; a target that migrates is waited for (R207). -/
def restoreNext (f : Inflight) (errs : List ReadError) (c : Commit) (s : State) : State :=
  let p := partOfQ f.q
  let x := txFields f.word
  match (restoreTargets x c.image)[c.bolts]?, tierOf x.dst with
  | some t, some dst =>
    if rangeBusy s p (t.1 * 65536) 65536 then s
    else
      whenFree (fun s =>
        let s1 := if t.2.nonzero then
            ftlReadPages (fun g => g.part == p && g.origin == c.slot + 1 && g.bolt == t.2.bolt) s
          else s
        let s2 := keepStored (ckptAcc f) errs (restoreBolt (ckptAcc f) dst t.1 t.2 s1)
        noteErrors 9 errs (endRestore f (modCommit p (fun y => { y with bolts := y.bolts + 1 }) s2))) s
  | _, _ => s

/-- A restore in its turn: refused, or begun. -/
def restoreStart (q : Nat) (pos : BitVec 32) (s : State) : State :=
  runLong (isOp 0x39) q pos noReads (fun f s =>
    let r := ckptReason s f
    if r ≠ 0 then markDone f.q f.pos (txRefuse f r s) else endRestore f (beginRestore f s)) s

/-- TX_RESTORE: refused, or begun, and from then on the next bolt placed. -/
def execTxRestore (q : QIdx) (pos : BitVec 32) (errs : List ReadError) (s : State) : Host.Outcome State Fault Refusal :=
  .next (
    match s.running (isOp 0x39) q pos, s.commit (partOfQ q.val) with
    | some f, some c =>
      let home := match (restoreTargets (txFields f.word) c.image)[c.bolts]?, tierOf (txFields f.word).dst with
        | some t, some dst => t.2.nonzero && restoresHome s (partOfQ f.q) dst t.1
        | _, _ => false
      let t := restoreNext f errs c s
      match (restoreTargets (txFields f.word) c.image)[c.bolts]? with
      | some k => if home && t.commit (partOfQ f.q) != some c then homeRecord (partOfQ f.q) 0 k.1 t else t
      | none => t
    | _, _ =>
      if ((s.inflight q pos).map (ckptReason s)).getD 0 ≠ 0 then restoreStart q pos s else whenFree (restoreStart q pos) s)

/-- TX_CKDROP. Opcodes 0x3B and 0x3C take this row too and are refused with reason 0x0B (R243). -/
def execTxCkdrop (q : QIdx) (pos : BitVec 32) (s : State) : Host.Outcome State Fault Refusal :=
  .next (runNow (fun w => 0x3A ≤ opcodeOf w && opcodeOf w ≤ 0x3C) q pos noReads (fun f s =>
    let r := ckptReason s f
    let p := partOfQ f.q
    let slot := (txFields f.word).slot
    if r ≠ 0 then txRefuse f r s
    else modNvt (fun n => { n with ckpts := tabDel n.ckpts (p * 16 + slot) }) (freeImage p (slot + 1) s)) s)

/-! ### Relocation inside T2 (R238, R250) -/

/-- A block has a relocation pending. -/
def relocating (s : State) (block : Nat) : Bool :=
  s.nvt.work.any (fun w =>
    match w with
    | .relocCopy _ b => b == block
    | _ => false) ||
  s.nvt.journal.any (fun j =>
    match j with
    | .reloc _ b => b == block
    | _ => false)

/-- Throttle episodes end on channels that have their free blocks again (R242). -/
def endThrottle (s : State) : State :=
  modNvt (fun n => { n with throttled := n.throttled.filter (fun ch => decide (freeBlocks s ch < 64)) }) s

/-- Erases a block left empty; a retired block is never used again. -/
def eraseEmpty (block : Nat) (s : State) : State :=
  let k := s.fblock block
  if k.pages.isEmpty && ! k.bad && k.used ≠ 0 then endThrottle (modBlock block FBlock.erase s) else s

/-- Relocates every valid copy in a block (R238). -/
def relocate (block : Nat) (s : State) : State :=
  if relocating s block then s
  else eraseEmpty block ((s.fblock block).pages.foldl (fun s g => flashWork (.relocCopy g block) s) s)

/-- RELOC is durable: the location switches and the old copy is freed. -/
def relocDurable (g : FlashPage) (block : Nat) (s : State) : State :=
  let s1 := modBlock block (fun k => { k with pages := k.pages.erase g }) s
  if relocating s1 block then s1 else eraseEmpty block s1

/-! ### Journal and programs (R249, R250) -/

/-- JOURNAL_RECORD_DURABLE: the oldest record's program completes. -/
def execJournalRecordDurable (s : State) : Host.Outcome State Fault Refusal :=
  .next (
    match s.nvt.journal with
    | [] => s
    | j :: rest =>
      let s1 := modNvt (fun n => { n with journal := rest }) s
      match j with
      | .begin_ p => ((s1.commit p).map (fun c => beginDurable c s1)).getD s1
      | .dir p => flashWork (.ckptDir p) (modCommit p (fun c => { c with phase := 2 }) s1)
      | .commit p => ((s1.commit p).map (fun c => commitDurable c s1)).getD s1
      | .released p =>
        match s1.commit p with
        | some c => markDone c.q c.pos (dropCommit p s1)
        | none => s1
      | .home p sl b => pumpMailbox p (finishMigration p sl b s1)
      | .reloc g b => relocDurable g b s1)

/-- A program completes and makes the next record due (R249, R250); what garbage collection, refresh and levelling program
they have read (R238, R239). -/
def programDone (w : FlashWork) (errs : List ReadError) (s : State) : State :=
  match w with
  | .ckptBolts p =>
    match s.commit p with
    | none => s
    | some c => commitStep c errs s
  | .ckptDir p => if (s.commit p).isSome then journal (.commit p) s else s
  | .homeCopy p sl b => if s.migrating p sl b then homeRecord p sl b s else s
  | .relocCopy g b =>
    if (s.fblock b).pages.contains g then
      meetErrors { planAcc g.part with agent := 9 } errs
        (fun s => journal (.reloc g b) (programPage 1 ((4 * g.bolt + g.quarter) % 16) g (ftlReadPages (fun h => h == g) s))) s
    else if relocating s b then s else eraseEmpty b s

/-- FLASH_PROGRAM_COMPLETE, with the errors that the read of what was programmed met. A user write to a channel that waits
for garbage collection does not complete (R242): the program stays the oldest but for those of the relocation stream. -/
def execFlashProgramComplete (s : State) (errs : List ReadError := []) : Host.Outcome State Fault Refusal :=
  .next (
    match s.nvt.work with
    | [] => s
    | w :: rest =>
      let t := programDone w errs (modNvt (fun n => { n with work := rest }) s)
      if wroteThrottled s t then modNvt (fun n => { n with work := rest ++ [w] }) s else t)

/-! ### Media maintenance (R238–R242) -/

/-- Blocks that hold data. -/
def dataBlocks (s : State) : List (Nat × FBlock) := s.nvt.blocks.filter (fun x => ! x.2.pages.isEmpty)

/-- The block with the fewest erases of those that hold data, ties to the lower index. -/
def leastErased (s : State) : Option (Nat × FBlock) :=
  (dataBlocks s).foldl (fun acc x =>
    match acc with
    | none => some x
    | some y => if x.2.erases < y.2.erases then some x else some y) none

/-- STATIC_WEAR_LEVELLING into a worn block of the same channel, which becomes the open block of relocations. -/
def execStaticWearLevelling (worn : Nat) (s : State) : Host.Outcome State Fault Refusal :=
  .next (
    match leastErased s with
    | none => s
    | some x =>
      let w := s.fblock worn
      if x.2.erases + 400 < w.erases && w.isFree && worn % 16 == x.1 % 16 then
        relocate x.1 (modNvt (fun n => { n with open_ := tabPut 0 n.open_ (16 + worn % 16) (worn + 1) }) s)
      else s)

/-- READ_DISTURB_REFRESH. -/
def execReadDisturbRefresh (block : Nat) (s : State) : Host.Outcome State Fault Refusal :=
  .next (if 60000 ≤ (s.fblock block).reads then relocate block s else s)

/-- RETENTION_SCAN: reads a block that holds data and measures its corrected bits; its reads may need retries (R239). -/
def execRetentionScan (block : Nat) (correctedPct : Nat) (s : State) (errs : List ReadError := []) :
    Host.Outcome State Fault Refusal :=
  .next (
    if (s.fblock block).pages.isEmpty then s
    else meetErrors { planAcc 0 with agent := 9 } errs
      (modBlock block (fun k => { k with reads := k.reads + k.used, correctedPct := correctedPct })) s)

/-- RETENTION_REFRESH: at 70 %, at 180 days, or scheduled by a soft decode (R239). -/
def execRetentionRefresh (block : Nat) (s : State) : Host.Outcome State Fault Refusal :=
  .next (
    let k := s.fblock block
    if ! k.pages.isEmpty && (decide (70 ≤ k.correctedPct) || decide (k.at_ + 180 * 86400 * 1000000000 ≤ s.now) || ! k.soft.isEmpty)
    then relocate block s else s)

/-- The spare pool after a retirement: events 0x0503 and 0x0504, write protection, exhaustion (R240). -/
def spareEvents (old : Nat) (s : State) : State :=
  let h := s.mxa.hw
  let s1 := if 50 ≤ h.spareUsed && ! s.nvt.halfTold then
      eventD 0x0503 1 (le 1 h.spareUsed ++ le 3 h.grownBad) (modNvt (fun n => { n with halfTold := true }) s)
    else s
  if old = 0 && h.nvtMode = 1 then eventD 0x0504 1 (le 1 h.spareUsed ++ le 1 1) s1
  else if old ≠ 2 && h.nvtMode = 2 then eventD 0x0504 3 (le 1 h.spareUsed ++ le 1 2) s1
  else s1

/-- Reads needed soft decoding twice in a block within 24 hours (R238). -/
def FBlock.softTwice (k : FBlock) : Bool :=
  (k.soft.zip (k.soft.drop 1)).any (fun x => decide (x.2 < x.1 + 24 * 3600 * 1000000000))

/-- BAD_BLOCK_RETIRE: after a program or erase failure, or two soft decodes. -/
def execBadBlockRetire (block : Nat) (s : State) (failed : Bool := false) : Host.Outcome State Fault Refusal :=
  .next (
    if (s.fblock block).bad || ! (failed || (s.fblock block).softTwice) then s
    else
      let old := s.mxa.hw.nvtMode
      let s1 := modHw (fun h =>
        let g := h.grownBad + 1
        let u := spareUsed g
        { h with grownBad := g, spareUsed := u, nvtMode := max h.nvtMode (if 100 ≤ u then 2 else if 95 ≤ u then 1 else 0) })
        (modBlock block (fun k => { k with bad := true }) s)
      spareEvents old (relocate block s1))

/-- The victim of garbage collection: the closed block of the spill or relocation stream with the fewest valid pages,
ties to the lower index (R241). -/
def gcVictim (s : State) : Option Nat :=
  (((s.nvt.blocks.filter (fun x =>
      decide (x.2.stream < 2) && decide (pagesPerBlock ≤ x.2.used) && ! x.2.bad && ! relocating s x.1)).foldl
    (fun (acc : Option (Nat × FBlock)) x =>
      match acc with
      | none => some x
      | some y => if x.2.pages.length < y.2.pages.length then some x else some y) none)).map (fun x => x.1)

/-- GARBAGE_COLLECTION. -/
def execGarbageCollection (s : State) : Host.Outcome State Fault Refusal :=
  .next (
    match gcVictim s with
    | some b => relocate b s
    | none => s)

/-- GC_THROTTLE: user writes to a channel below 64 free blocks, at a write amplification above the limit, have waited;
0x0505 once per episode, and the engines that waited count tier_wait. -/
def execGcThrottle (ch : Fin 16) (us : Nat) (waiting : List StallEngine) (s : State) : Host.Outcome State Fault Refusal :=
  .next (
    let free := freeBlocks s ch.val
    if ! s.throttles ch.val then s
    else
      let s := waiting.foldl (noteTierWait us) s
      let fresh := ! s.nvt.throttled.contains ch.val
      let s1 := modNvt (fun n =>
        { n with
          throttleUs := satAdd 24 n.throttleUs us
          episodes := if fresh then satAdd 20 n.episodes 1 else n.episodes
          throttled := if fresh then n.throttled ++ [ch.val] else n.throttled }) s
      if fresh then eventD 0x0505 1 (le 2 ch.val ++ le 2 free ++ le 2 s.waMilli) s1 else s1)

/-- NVT_GC_CLEAR. -/
def execNvtGcClear (s : State) : Host.Outcome State Fault Refusal :=
  .next (modNvt (fun n => { n with throttleUs := 0, episodes := 0 }) s)

/-! ### Resets (R253) -/

/-- Event 0x0507. -/
def eventDiscarded (resetType : Nat) (c : Commit) (s : State) : State :=
  eventP 0x0507 2 c.part (le 1 c.part ++ le 1 c.slot ++ le 2 c.image.gen ++ le 1 c.phase ++ le 1 resetType) s

/-- Discards a commit whose COMMIT record is not durable: its pages and records go, the old image stays valid. -/
def discardCommit (c : Commit) (s : State) : State :=
  let s1 := dropCommit c.part (freeImage c.part (commitOrigin c.slot) s)
  modNvt (fun n =>
    { n with
      journal := n.journal.filter (fun j => j != .begin_ c.part && j != .dir c.part && j != .commit c.part)
      work := n.work.filter (fun w => w != .ckptBolts c.part && w != .ckptDir c.part) }) s1

end Sys2Proof.Machine
end

