-- ==== Sys2Proof/Machine/Special.lean ====
section
/-! DEFINITION. The special functions of the vector unit (R144), computed in fixed point to 320 fraction bits and rounded
once. The results of exp, log and tanh at other than the tabled operands are transcendental, so they are never ties; the
precision exceeds by far what the hardest cases of FP32 need (notes/assumptions/14.md). -/

namespace Sys2Proof.Machine

/-- Fraction bits of the fixed-point work. -/
def spBits : Nat := 320
/-- One in fixed point. -/
def spOne : Nat := 2 ^ spBits

/-- Σ p × t2^i / (2 (k + i) + 1) over the fuel. -/
def atanhGo (t2 : Nat) : Nat → Nat → Nat → Nat
  | 0, _, _ => 0
  | fuel + 1, p, k => p / (2 * k + 1) + atanhGo t2 fuel (p * t2 / spOne) (k + 1)

/-- atanh of t in [0, 1/3], in fixed point. -/
def atanhFix (t : Nat) : Nat := atanhGo (t * t / spOne) 120 t 0

/-- ln 2 in fixed point. -/
def ln2Fix : Nat := 2 * atanhFix (spOne / 3)

/-- Σ of the exponential series from a term on. -/
def expGo (r : Nat) : Nat → Nat → Nat → Nat
  | 0, _, _ => 0
  | fuel + 1, term, n => term + expGo r fuel (term * r / spOne / n) (n + 1)

/-- e^r for r in [0, ln 2), in fixed point. -/
def expFix (r : Nat) : Nat := expGo r 90 spOne 1

/-- e^x as a mantissa in fixed point and a power of two, for x given in fixed point. -/
def expParts (x : Int) : Nat × Int :=
  let k := x / (ln2Fix : Int)
  (expFix (x - k * ln2Fix).toNat, k)

/-- A finite value in fixed point. -/
def toFix (s : Bool) (m : Nat) (e : Int) : Int :=
  let a : Nat := if 0 ≤ e then m * 2 ^ (e.toNat + spBits) else m * spOne / 2 ^ (-e).toNat
  if s then -(a : Int) else a

/-- vx.exp before its one rounding. -/
def vExp : FVal → FVal
  | .nan => .nan
  | .inf s => if s then FVal.zero else .inf false
  | .fin s m e =>
    if m = 0 then .fin false 1 0
    else if 128 ≤ (Nat.log2 m : Int) + e || magGt m e 128 0 then (if s then .fin false 1 (-400) else .fin false 1 400)
    else
      let p := expParts (toFix s m e)
      .fin false (2 * p.1 + 1) (p.2 - spBits - 1)

/-- vx.log before its one rounding. -/
def vLog : FVal → FVal
  | .nan => .nan
  | .inf s => if s then .nan else .inf false
  | .fin s m e =>
    if m = 0 then .inf true
    else if s then .nan
    else
      let l := Nat.log2 m
      -- f in [1, 2) × 2^k, moved to [3/4, 3/2)
      let big := decide (3 * 2 ^ l ≤ 2 * m)
      let k : Int := (l : Int) + e + (if big then 1 else 0)
      let one := if big then 2 ^ (l + 1) else 2 ^ l
      let neg := decide (m < one)
      let num := if neg then one - m else m - one
      let t := num * spOne / (m + one)
      let a : Int := 2 * (atanhFix t : Int)
      let v : Int := k * ln2Fix + (if neg then -a else a)
      if k = 0 && num = 0 then FVal.zero
      else .fin (decide (v < 0)) (2 * v.natAbs + 1) (-(spBits : Int) - 1)

/-- vx.rcp before its one rounding. -/
def vRcp : FVal → FVal
  | .nan => .nan
  | .inf s => .fin s 0 0
  | .fin s m e => if m = 0 then .inf s else (FVal.fin false 1 0).div (.fin s m e)

/-- Integer square root by bits, from bit `fuel` down. -/
def isqrtGo (n : Nat) : Nat → Nat → Nat
  | 0, r => if (r + 1) * (r + 1) ≤ n then r + 1 else r
  | b + 1, r =>
    let c := r + 2 ^ (b + 1)
    isqrtGo n b (if c * c ≤ n then c else r)

/-- vx.rsqrt before its one rounding: floor(√(2^(2 F) / x)) with a last bit that says "inexact". -/
def vRsqrt : FVal → FVal
  | .nan => .nan
  | .inf s => if s then .nan else FVal.zero
  | .fin s m e =>
    if m = 0 then .inf s
    else if s then .nan
    else
      -- x = m' × 2^(2 h)
      let odd := e % 2 = 1
      let m' := if odd then 2 * m else m
      let h : Int := if odd then (e - 1) / 2 else e / 2
      let n := 2 ^ 400 / m'
      let r := isqrtGo n 200 0
      let exact := r * r * m' = 2 ^ 400
      .fin false (2 * r + (if exact then 0 else 1)) (-h - 201)

/-- vx.tanh before its one rounding. -/
def vTanh : FVal → FVal
  | .nan => .nan
  | .inf s => .fin s 1 0
  | .fin s m e =>
    if m = 0 then .fin s 0 0
    else if magGt m e 32 0 then .fin s (2 ^ 40 - 1) (-40)
    else
      let p := expParts (2 * toFix false m e)
      let E : Nat := p.1 * 2 ^ p.2.toNat
      .fin s (2 * ((E - spOne) * spOne / (E + spOne)) + 1) (-(spBits : Int) - 1)

end Sys2Proof.Machine
end

