-- ==== Sys2Proof/Machine/Vector.lean ====
section
/-! DEFINITION. Vector instructions (R136–R159): checks, lane arithmetic vector by vector (R138), conversion, reductions,
permutation, compress and expand, loads and stores. -/

namespace Sys2Proof.Machine

/-! ### Clamps and checks (R33, R137, R141) -/

/-- Lanes of a packed vector (R153). -/
def State.packLanes (s : State) (p : Nat) : Nat := s.vlMax p

/-- An instruction that ignores vl_src (R154). -/
def VxCmd.ownsCount (x : VxCmd) : Bool := (x.op == 0x25 && decide (1 ≤ x.fn)) || (x.op == 0x26 && x.fn == 2)
/-- compress or expand. -/
def VxCmd.packs (x : VxCmd) : Bool := x.op == 0x25 && decide (1 ≤ x.fn)
/-- Sources b and c that the operation reads as data. -/
def VxCmd.usesB (x : VxCmd) : Bool := (x.op == 0x20 && (decide (x.fn ≤ 5) || x.fn == 9)) || x.op == 0x21
/-- vx.fma reads c. -/
def VxCmd.usesC (x : VxCmd) : Bool := x.op == 0x20 && x.fn == 3
/-- Reads a mask operand. -/
def VxCmd.usesMask (x : VxCmd) : Bool :=
  (x.op == 0x20 && x.fn == 9) || x.packs ||
  (x.maskEn && (x.op == 0x20 || x.op == 0x21 || x.op == 0x23 || x.op == 0x24 || (x.op == 0x25 && x.fn == 0)))
/-- A code names a block-scaled format. -/
def blockedCode (c : Nat) : Bool := ((fmtOf c).map Fmt.blocked).getD false
/-- scale_mode and out_scale of vx.cvt (R139). -/
def VxCmd.scaleMode (x : VxCmd) : Bool := x.mask / 256 % 2 == 1
/-- out_scale of vx.cvt. -/
def VxCmd.outScale (x : VxCmd) : Nat := x.mask % 256

/-- What an instruction runs with after the clamps: vl, lane0, out_scale and rnd, and the ids counted (R33). -/
structure VxClamped where
  vl : Nat
  lane0 : Nat
  outScale : Nat
  rnd : Nat
  ids : List Nat
  deriving DecidableEq, Repr

/-- Clamps the fields that the instruction uses. -/
def vxClamp (s : State) (p : Nat) (x : VxCmd) : VxClamped :=
  let vl := clampRange 1 (s.vlMax p) x.vl
  let usesVl := ! (x.op == 0x26 && x.fn == 2) && (! x.vlSrc || x.packs)
  let l0 := x.srcc % 256
  let lane := clampRange 0 (vl.1 - 1) l0
  let sc := x.op == 0x22 && blockedCode x.fmtD && x.scaleMode && x.outScale == 0xFF
  let rn := (x.op == 0x20 || (0x22 ≤ x.op && x.op ≤ 0x25)) && x.fmtD != 9 && x.fmtD != 10 && decide (2 ≤ x.rnd)
  { vl := vl.1
    lane0 := lane.1
    outScale := if sc then 0xFE else x.outScale
    rnd := if 2 ≤ x.rnd then 0 else x.rnd
    ids := (if sc then [1] else []) ++ (if usesVl && vl.2 then [5] else []) ++ (if x.packs && lane.2 then [6] else []) ++
      (if rn then [7] else []) }

/-- FP32, BF16 or FP16. -/
def laneFmt (c : Nat) : Bool := c == 7 || c == 8 || c == 9
/-- A data operand is well formed: its format, and FP32 in an accumulator (R137). -/
def dataOk (ok : Nat → Bool) (o : Nat) (c : Nat) : Bool := ok c && ((vop o).isTile || c == 9)
/-- Any of the eleven formats. -/
def anyFmt (c : Nat) : Bool := decide (c ≤ 10)

/-- The rejection reason of a vector instruction, 0 for none (R141). Where several conditions hold, the table gives no
order: the lowest reason is recorded (DESIGN CHOICE, notes/assumptions/69.md). -/
def vxReason (s : State) (p : Nat) (x : VxCmd) : Nat :=
  let tile (o : Nat) : Bool := (vop o).isTile
  let fmts : Bool :=
    if x.op = 0x26 then
      (if x.fn = 0 then dataOk anyFmt x.dst x.fmtD else if x.fn = 1 then dataOk anyFmt x.srca x.fmtA else true)
    else if x.op = 0x22 then dataOk anyFmt x.srca x.fmtA && dataOk anyFmt x.dst x.fmtD
    else
      dataOk laneFmt x.srca x.fmtA && (! x.usesB || dataOk laneFmt x.srcb x.fmtB) &&
      (! x.usesC || dataOk laneFmt x.srcc x.fmtB) && (x.op == 0x21 || dataOk laneFmt x.dst x.fmtD)
  if (vxTiming x.op x.fn).isNone then 1
  else if s.arrayOwner x.array != some p || s.offline x.array then 2
  else if (x.usesMask && ! tile x.mask) || (x.op == 0x25 && x.fn == 0 && ! tile x.srcb) || (x.op == 0x21 && ! tile x.dst) ||
      (x.op == 0x22 && ((blockedCode x.fmtA && ! tile x.srcb) || (blockedCode x.fmtD && ! tile x.srcc))) then 3
  else if ! fmts then 4
  else if x.op == 0x24 && (x.fn == 0x24 || x.fn == 0x34) && (s.part p).vecMode then 5
  else 0

/-! ### Lanes (R142, R143, R146) -/

/-- The unit's view of an instruction: its fields after the clamps and how its results round. -/
structure VxRun where
  x : VxCmd
  c : VxClamped
  f : Inflight
  compat : Bool
  deriving DecidableEq, Repr

/-- A format of a code; FP32 where the code names none. -/
def fmtD (c : Nat) : Fmt := (fmtOf c).getD .fp32
/-- Rounding of the destination element in lane i of vector j (R147): to nearest even into FP32 and FA40 whatever rnd
holds (R27, R28). The index of a reduction's or vx.compress's element is that of its destination lane and vector, which
R147 leaves open (DESIGN CHOICE, notes/assumptions/73.md). -/
def VxRun.rnd (r : VxRun) (j i : Nat) : Rnd :=
  if r.c.rnd = 1 && fmtD r.x.fmtD != .fp32 && fmtD r.x.fmtD != .fa40 then
    .sr (srWord r.f.seed r.f.step r.x.tensor (BitVec.ofNat 48 (r.x.origin + j * r.x.stride + i)))
  else .rne
/-- The value in lane i of vector j of a data operand. -/
def laneVal (a : ArrayL) (o c j i : Nat) : FVal := decodeFmt (fmtD c) (vcode a (vop o) (fmtD c) j i)
/-- Source b or c, broadcast from the instruction's start. -/
def srcVal (a0 a : ArrayL) (bc : Bool) (o c j i : Nat) : FVal := if bc then laneVal a0 o c 0 0 else laneVal a o c j i
/-- A lane is computed (R146). -/
def VxRun.active (r : VxRun) (a : ArrayL) (j i : Nat) : Bool := ! r.x.maskEn || maskBit a (vop r.x.mask) j i

/-- The code that an FP32 or FA40 value takes in a lane of the destination, and whether the conversion saturated, which
R26 then flags (R142, R143). -/
def VxRun.conv (r : VxRun) (j i : Nat) (v : FVal) : Nat × Bool :=
  let o := roundTo (fmtD r.x.fmtD) (r.rnd j i) v
  (encodeFmt (fmtD r.x.fmtD) o.1, o.2)

/-- Codes to write into lanes of the destination, with the overflow recorded. -/
structure LaneOut where
  lane : Nat
  vec : Nat
  code : Nat
  ovf : Bool
  deriving DecidableEq, Repr

/-- A value rounded once to FP32 and converted into a destination lane. -/
def VxRun.result (r : VxRun) (j i : Nat) (v : FVal) : LaneOut :=
  let o := fl32 v
  let c := r.conv j i o.1
  { lane := i, vec := j, code := c.1, ovf := o.2 || c.2 }
/-- +0 in a destination lane (R146). -/
def zeroLane (j i : Nat) : LaneOut := { lane := i, vec := j, code := 0, ovf := false }

/-- Writes lanes of the destination. -/
def VxRun.put (r : VxRun) (a : ArrayL) (ls : List LaneOut) : ArrayL :=
  ls.foldl (fun a l => vput (vop r.x.dst) (fmtD r.x.fmtD) l.vec l.lane l.code a) a

/-- What running an instruction leaves: the array, whether an overflow was recorded, whether a lane index clamped. -/
structure VxOut where
  a : ArrayL
  ovf : Bool
  clamped : Bool
  deriving DecidableEq, Repr

/-- Runs vectors one at a time (R138): `lanes` gives what a vector writes from the array as it stands. -/
def VxRun.vectors (r : VxRun) (a0 : ArrayL) (vls : List Nat) (lanes : ArrayL → Nat → Nat → List LaneOut) : VxOut :=
  (vls.zipIdx).foldl (fun acc v =>
    let ls := lanes acc.a v.2 v.1
    { a := r.put acc.a ls, ovf := acc.ovf || ls.any (fun l => l.ovf), clamped := acc.clamped })
    { a := a0, ovf := false, clamped := false }

/-- The larger of two values, +0 above −0 (R140). -/
def vmax (a b : FVal) : FVal :=
  if a.isNan || b.isNan then .nan
  else if a.lt b then b else if b.lt a then a
  else match a with
    | .fin true 0 _ => b
    | _ => a
/-- The smaller of two values, −0 below +0 (R140). -/
def vmin (a b : FVal) : FVal := (vmax a.neg b.neg).neg

/-- Lanes of an element-wise operation (R140, R146). -/
def VxRun.elementwise (r : VxRun) (op : FVal → FVal → FVal → FVal) (a0 : ArrayL) (vls : List Nat) : VxOut :=
  r.vectors a0 vls (fun a j vl => ((List.range vl).map (fun i =>
    if r.active a j i then
      [r.result j i (op (laneVal a r.x.srca r.x.fmtA j i)
        (if r.x.usesB then srcVal a0 a r.x.bcastB r.x.srcb r.x.fmtB j i else FVal.zero)
        (if r.x.usesC then srcVal a0 a r.x.bcastC r.x.srcc r.x.fmtB j i else FVal.zero))]
    else if r.x.zeroMasked then [zeroLane j i] else [])).flatten)

/-- vx.sel (R140, R146): the mask operand selects between a and b whatever mask_en holds, and with mask_en also the lanes
computed. -/
def VxRun.select (r : VxRun) (a0 : ArrayL) (vls : List Nat) : VxOut :=
  r.vectors a0 vls (fun a j vl => ((List.range vl).map (fun i =>
    if r.active a j i then
      [r.result j i (if maskBit a (vop r.x.mask) j i then laneVal a r.x.srca r.x.fmtA j i
        else srcVal a0 a r.x.bcastB r.x.srcb r.x.fmtB j i)]
    else if r.x.zeroMasked then [zeroLane j i] else [])).flatten)

/-- Compares (R145): lanes at or above vl, and lanes masked off, write 0. -/
def VxRun.compare (r : VxRun) (op : FVal → FVal → Bool) (a0 : ArrayL) (vls : List Nat) : VxOut :=
  (vls.zipIdx).foldl (fun acc v =>
    let bits := (List.range 256).map (fun i =>
      decide (i < v.1) && r.active acc.a v.2 i &&
        op (laneVal acc.a r.x.srca r.x.fmtA v.2 i) (srcVal a0 acc.a r.x.bcastB r.x.srcb r.x.fmtB v.2 i))
    { acc with a := (bits.zipIdx).foldl (fun a b => putMaskBit (vop r.x.dst) v.2 b.2 b.1 a) acc.a })
    { a := a0, ovf := false, clamped := false }

/-! ### vx.cvt (R147) -/

/-- The scale byte of block b of vector j of an operand. -/
def scaleByte (a : ArrayL) (o j b : Nat) : Byte := (a.tile (vop o).reg).get ((vop o).scaleStart j + b)
/-- A source lane of vx.cvt, with its block scale. -/
def cvtSrc (r : VxRun) (a : ArrayL) (j i : Nat) : FVal :=
  let f := fmtD r.x.fmtA
  let c := vcode a (vop r.x.srca) f j i
  if f.blocked then blockValue f (scaleByte a r.x.srcb j (i / 32)) c else decodeFmt f c

/-- A saturation is an overflow where the source is FP32 or FA40, or the target decodes into FP32 or FA40 (R26). -/
def saturationFlags (src dst : Fmt) : Bool := [src, dst].any (fun f => f == .fp32 || f == .fa40)

/-- One vector converted. A block's elements are written before its scale, block by block: the spec gives no order where
dst and srcc overlap (DESIGN CHOICE, notes/assumptions/74.md). -/
def cvtVector (r : VxRun) (a : ArrayL) (j vl : Nat) : ArrayL × Bool :=
  let f := fmtD r.x.fmtD
  let vals := (List.range vl).map (cvtSrc r a j)
  if f.blocked then
    let blocks := (List.range (ceilDiv vl 32)).map (fun b =>
      let vs := (vals.drop (32 * b)).take 32
      let sc := blockScale f (if r.x.scaleMode then some r.c.outScale else none) vs
      (b, sc, (vs.zipIdx).map (fun v =>
        let e := encodeElem f sc.1 (r.rnd j (32 * b + v.2)) v.1
        (e.1, e.2 && sc.2))))
    let a1 := blocks.foldl (fun a b =>
      let a := (b.2.2.zipIdx).foldl (fun a e => vput (vop r.x.dst) f j (32 * b.1 + e.2) e.1.1 a) a
      a.setTile (vop r.x.srcc).reg ((a.tile (vop r.x.srcc).reg).put ((vop r.x.srcc).scaleStart j + b.1) b.2.1.1)) a
    (a1, blocks.any (fun b => b.2.2.any (fun e => e.2)))
  else
    let ls : List LaneOut := (vals.zipIdx).map (fun v =>
      let o := r.conv j v.2 v.1
      { lane := v.2, vec := j, code := o.1, ovf := o.2 && saturationFlags (fmtD r.x.fmtA) f })
    (r.put a ls, ls.any (fun l => l.ovf))

/-- vx.cvt. -/
def VxRun.convert (r : VxRun) (a0 : ArrayL) (vls : List Nat) : VxOut :=
  (vls.zipIdx).foldl (fun acc v =>
    let o := cvtVector r acc.a v.2 v.1
    { a := o.1, ovf := acc.ovf || o.2, clamped := false }) { a := a0, ovf := false, clamped := false }

/-! ### Reductions (R148, R149, R159) -/

/-- Active lanes of a vector of srca, ascending. -/
def VxRun.lanes (r : VxRun) (a : ArrayL) (j vl : Nat) : List FVal :=
  ((List.range vl).filter (fun i => r.active a j i)).map (fun i => laneVal a r.x.srca r.x.fmtA j i)
/-- The 64 lane positions of a vector in SKG2 compatibility mode, absent where inactive. -/
def VxRun.lanes64 (r : VxRun) (a : ArrayL) (j vl : Nat) : List (Option FVal) :=
  (List.range 64).map (fun i => if i < vl && r.active a j i then some (laneVal a r.x.srca r.x.fmtA j i) else none)

/-- A reduction result converted into a lane of dst, with the overflow of its operations. -/
def VxRun.reduced (r : VxRun) (j i : Nat) (v : FVal) (ovf : Bool) : LaneOut :=
  let c := r.conv j i v
  { lane := i, vec := j, code := c.1, ovf := ovf || c.2 }

/-- vx.rsum and vx.rsumsq: `sq` forms each term exactly (R79, R94); in SKG2 compatibility mode the tree of R159 adds the
terms, and its result is rounded to FP32 where it passed a single term through. The result of vector j goes to lane j of
dst counted from vector 0: where vl_src covers more than 256 vectors, lane j lies beyond vector 0, which R148 leaves open
(DESIGN CHOICE, notes/assumptions/75.md). -/
def VxRun.rsum (r : VxRun) (sq : FVal → FVal) (a0 : ArrayL) (vls : List Nat) : VxOut :=
  r.vectors a0 vls (fun a j vl =>
    if r.compat then
      let s := pairwise 7 ((r.lanes64 a j vl).map (fun o => o.map sq))
      let v := fl32 s.1
      [r.reduced 0 j v.1 (s.2 || v.2)]
    else
      let ts := (r.lanes a j vl).map sq
      if 0x20 ≤ r.x.fn then
        (if ts.isEmpty then [] else
          let c := chain (some (laneVal a r.x.dst r.x.fmtD 0 j)) ts
          [r.reduced 0 j c.v c.ovf])
      else let c := chain none ts; [r.reduced 0 j c.v c.ovf])

/-- vx.rmax and vx.rmin. -/
def VxRun.rpick (r : VxRun) (op : FVal → FVal → FVal) (a0 : ArrayL) (vls : List Nat) : VxOut :=
  r.vectors a0 vls (fun a j vl =>
    match r.lanes a j vl with
    | [] => []
    | v :: rest => [r.reduced 0 j ((rest.foldl op v)) false])

/-- vx.rmv (R149). -/
def VxRun.rmv (r : VxRun) (a0 : ArrayL) (vls : List Nat) : VxOut :=
  let sample := r.x.fn / 16 % 2 == 1
  if vls.isEmpty then { a := a0, ovf := false, clamped := false }
  else if 0x20 ≤ r.x.fn then
    let xs := ((vls.zipIdx).map (fun v => r.lanes a0 v.2 v.1)).flatten
    let m := meanVar sample xs
    let ls := [r.reduced 0 0 m.1 m.2.2, r.reduced 1 0 m.2.1 false]
    { a := r.put a0 ls, ovf := ls.any (fun l => l.ovf), clamped := false }
  else
    r.vectors a0 vls (fun a j vl =>
      let m := if r.compat then twoPass sample (r.lanes64 a j vl) else meanVar sample (r.lanes a j vl)
      [r.reduced 0 j m.1 m.2.2, r.reduced 1 j m.2.1 false])

/-! ### Permutation, compress, expand (R152–R155) -/

/-- vx.perm. -/
def VxRun.perm (r : VxRun) (a0 : ArrayL) (vls : List Nat) : VxOut :=
  (vls.zipIdx).foldl (fun acc v =>
    let o := vop r.x.srcb
    let idx (i : Nat) : Nat := ((acc.a.tile o.reg).get (o.idxStart v.2 + i)).toNat
    let on := (List.range v.1).filter (fun i => r.active acc.a v.2 i)
    let ls := ((List.range v.1).map (fun i =>
      if r.active acc.a v.2 i then [r.result v.2 i (laneVal acc.a r.x.srca r.x.fmtA v.2 (min (idx i) (v.1 - 1)))]
      else if r.x.zeroMasked then [zeroLane v.2 i] else [])).flatten
    { a := r.put acc.a ls, ovf := acc.ovf || ls.any (fun l => l.ovf),
      clamped := acc.clamped || on.any (fun i => decide (v.1 ≤ idx i)) }) { a := a0, ovf := false, clamped := false }

/-- vx.compress: the packed stream starts at lane0 and PC becomes the position after its last element. -/
def VxRun.compress (r : VxRun) (L : Nat) (a0 : ArrayL) (vls : List Nat) : VxOut :=
  let o := (vls.zipIdx).foldl (fun (acc : VxOut × Nat) v =>
    let on := (List.range v.1).filter (fun i => maskBit acc.1.a (vop r.x.mask) v.2 i)
    let ls := (on.zipIdx).map (fun i =>
      let p := acc.2 + i.2
      r.result (p / L) (p % L) (laneVal acc.1.a r.x.srca r.x.fmtA v.2 i.1))
    ({ a := r.put acc.1.a ls, ovf := acc.1.ovf || ls.any (fun l => l.ovf), clamped := false }, acc.2 + on.length))
    ({ a := a0, ovf := false, clamped := false }, r.c.lane0)
  { o.1 with a := { o.1.a with packed := o.2 } }

/-- vx.expand. -/
def VxRun.expand (r : VxRun) (L : Nat) (a0 : ArrayL) (vls : List Nat) : VxOut :=
  ((vls.zipIdx).foldl (fun (acc : VxOut × Nat) v =>
    let on := (List.range v.1).filter (fun i => maskBit acc.1.a (vop r.x.mask) v.2 i)
    let ls := (on.zipIdx).map (fun i =>
      let p := acc.2 + i.2
      r.result v.2 i.1 (laneVal acc.1.a r.x.srca r.x.fmtA (p / L) (p % L)))
    let zs := if r.x.zeroMasked then
        ((List.range v.1).filter (fun i => ! maskBit acc.1.a (vop r.x.mask) v.2 i)).map (zeroLane v.2) else []
    ({ a := r.put acc.1.a (ls ++ zs), ovf := acc.1.ovf || ls.any (fun l => l.ovf), clamped := false }, acc.2 + on.length))
    ({ a := a0, ovf := false, clamped := false }, r.c.lane0)).1

/-! ### The shared run -/

/-- The vectors an instruction covers, each with its vl (R154). -/
def vxVectors (s : State) (p : Nat) (x : VxCmd) (c : VxClamped) : List Nat :=
  if x.vlSrc && ! x.ownsCount then
    let L := s.packLanes p
    let pc := (s.arr x.array).packed
    (List.range (ceilDiv pc L)).map (fun j => min L (pc - L * j))
  else List.replicate x.nr c.vl

/-- Event 0x0201 (R141, R161). -/
def vxReject (f : Inflight) (reason : Nat) (s : State) : State :=
  eventP 0x0201 2 (partOfQ f.q) (le 1 reason ++ le 1 (partOfQ f.q) ++ le 2 f.q ++ le 4 f.pos.toNat) s

/-- Records an overflow at the destination (R143). -/
def vxOverflow (x : VxCmd) (s : State) : State :=
  if (vop x.dst).isTile then vflagOverflow x.array s else accOverflow x.array ((vop x.dst).reg - 6) s

/-- Runs one register-to-register instruction; `errs` are the errors its reads of tile registers and accumulator tiles
met (R41, R161). -/
def vxCompute (errs : List ReadError) (op : VxRun → ArrayL → List Nat → VxOut) (f : Inflight) (s : State) : State :=
  let x := vxFields f.word
  let p := partOfQ f.q
  let c := vxClamp s p x
  let r := vxReason s p x
  if r = 1 then vxReject f r s
  else if r ≠ 0 then vxReject f r (clampPart p c.ids s)
  else
    let run : VxRun := { x := x, c := c, f := f, compat := (s.part p).vecMode }
    let o := op run (s.arr x.array) (vxVectors s p x c)
    let ids := if o.clamped then (c.ids.filter (fun i => decide (i < 6))) ++ [6] ++ c.ids.filter (fun i => decide (6 ≤ i)) else c.ids
    let s1 := modArr x.array (fun _ => o.a) (clampPart p ids s)
    noteErrors 2 errs (if o.ovf then vxOverflow x s1 else s1)

/-- A vector instruction of a named opcode and functions. -/
def isVx (op : Nat) (fns : List Nat) (w : CmdWord) : Bool := opcodeOf w == op && fns.contains (fld w 40 6)
/-- A row of a register-to-register instruction. -/
def vxRow (op : Nat) (fns : List Nat) (q : Nat) (pos : BitVec 32) (errs : List ReadError)
    (g : VxRun → ArrayL → List Nat → VxOut) (s : State) : State :=
  runNow (isVx op fns) q pos noReads (vxCompute errs g) s

/-- Opcodes and functions that R140 does not list (R141, reason 0x01). -/
def vxUnlisted (w : CmdWord) : Bool :=
  0x20 ≤ opcodeOf w && opcodeOf w ≤ 0x2F && (vxTiming (opcodeOf w) (fld w 40 6)).isNone

/-- VX_ADD; the row takes the instructions of unlisted opcode or fn too, which are rejected with reason 0x01. -/
def execVxAdd (q : QIdx) (pos : BitVec 32) (s : State) (errs : List ReadError := []) : Host.Outcome State Fault Refusal :=
  .next (runNow (fun w => isVx 0x20 [0] w || vxUnlisted w) q pos noReads
    (vxCompute errs (fun r => r.elementwise (fun a b _ => a.add b))) s)
/-- VX_SUB. -/
def execVxSub (q : QIdx) (pos : BitVec 32) (s : State) (errs : List ReadError := []) : Host.Outcome State Fault Refusal :=
  .next (vxRow 0x20 [1] q pos errs (fun r => r.elementwise (fun a b _ => a.sub b)) s)
/-- VX_MUL. -/
def execVxMul (q : QIdx) (pos : BitVec 32) (s : State) (errs : List ReadError := []) : Host.Outcome State Fault Refusal :=
  .next (vxRow 0x20 [2] q pos errs (fun r => r.elementwise (fun a b _ => a.mul b)) s)
/-- VX_FMA. -/
def execVxFma (q : QIdx) (pos : BitVec 32) (s : State) (errs : List ReadError := []) : Host.Outcome State Fault Refusal :=
  .next (vxRow 0x20 [3] q pos errs (fun r => r.elementwise (fun a b c => (a.mul b).add c)) s)
/-- VX_MAX. -/
def execVxMax (q : QIdx) (pos : BitVec 32) (s : State) (errs : List ReadError := []) : Host.Outcome State Fault Refusal :=
  .next (vxRow 0x20 [4] q pos errs (fun r => r.elementwise (fun a b _ => vmax a b)) s)
/-- VX_MIN. -/
def execVxMin (q : QIdx) (pos : BitVec 32) (s : State) (errs : List ReadError := []) : Host.Outcome State Fault Refusal :=
  .next (vxRow 0x20 [5] q pos errs (fun r => r.elementwise (fun a b _ => vmin a b)) s)
/-- VX_ABS. -/
def execVxAbs (q : QIdx) (pos : BitVec 32) (s : State) (errs : List ReadError := []) : Host.Outcome State Fault Refusal :=
  .next (vxRow 0x20 [6] q pos errs (fun r => r.elementwise (fun a _ _ => a.abs)) s)
/-- VX_NEG. -/
def execVxNeg (q : QIdx) (pos : BitVec 32) (s : State) (errs : List ReadError := []) : Host.Outcome State Fault Refusal :=
  .next (vxRow 0x20 [7] q pos errs (fun r => r.elementwise (fun a _ _ => a.neg)) s)
/-- VX_MOV. -/
def execVxMov (q : QIdx) (pos : BitVec 32) (s : State) (errs : List ReadError := []) : Host.Outcome State Fault Refusal :=
  .next (vxRow 0x20 [8] q pos errs (fun r => r.elementwise (fun a _ _ => a)) s)
/-- VX_SEL. -/
def execVxSel (q : QIdx) (pos : BitVec 32) (s : State) (errs : List ReadError := []) : Host.Outcome State Fault Refusal :=
  .next (vxRow 0x20 [9] q pos errs (fun r => r.select) s)
/-- VX_CEQ. -/
def execVxCeq (q : QIdx) (pos : BitVec 32) (s : State) (errs : List ReadError := []) : Host.Outcome State Fault Refusal :=
  .next (vxRow 0x21 [0] q pos errs (fun r => r.compare FVal.eqv) s)
/-- VX_CLT. -/
def execVxClt (q : QIdx) (pos : BitVec 32) (s : State) (errs : List ReadError := []) : Host.Outcome State Fault Refusal :=
  .next (vxRow 0x21 [1] q pos errs (fun r => r.compare FVal.lt) s)
/-- VX_CLE. -/
def execVxCle (q : QIdx) (pos : BitVec 32) (s : State) (errs : List ReadError := []) : Host.Outcome State Fault Refusal :=
  .next (vxRow 0x21 [2] q pos errs (fun r => r.compare (fun a b => a.lt b || a.eqv b)) s)
/-- VX_CGT. -/
def execVxCgt (q : QIdx) (pos : BitVec 32) (s : State) (errs : List ReadError := []) : Host.Outcome State Fault Refusal :=
  .next (vxRow 0x21 [3] q pos errs (fun r => r.compare (fun a b => b.lt a)) s)
/-- VX_CGE. -/
def execVxCge (q : QIdx) (pos : BitVec 32) (s : State) (errs : List ReadError := []) : Host.Outcome State Fault Refusal :=
  .next (vxRow 0x21 [4] q pos errs (fun r => r.compare (fun a b => b.lt a || a.eqv b)) s)
/-- VX_CUN. -/
def execVxCun (q : QIdx) (pos : BitVec 32) (s : State) (errs : List ReadError := []) : Host.Outcome State Fault Refusal :=
  .next (vxRow 0x21 [5] q pos errs (fun r => r.compare (fun a b => a.isNan || b.isNan)) s)
/-- VX_CVT. -/
def execVxCvt (q : QIdx) (pos : BitVec 32) (s : State) (errs : List ReadError := []) : Host.Outcome State Fault Refusal :=
  .next (vxRow 0x22 [0] q pos errs (fun r => r.convert) s)
/-- VX_EXP. -/
def execVxExp (q : QIdx) (pos : BitVec 32) (s : State) (errs : List ReadError := []) : Host.Outcome State Fault Refusal :=
  .next (vxRow 0x23 [0] q pos errs (fun r => r.elementwise (fun a _ _ => vExp a)) s)
/-- VX_LOG. -/
def execVxLog (q : QIdx) (pos : BitVec 32) (s : State) (errs : List ReadError := []) : Host.Outcome State Fault Refusal :=
  .next (vxRow 0x23 [1] q pos errs (fun r => r.elementwise (fun a _ _ => vLog a)) s)
/-- VX_RCP. -/
def execVxRcp (q : QIdx) (pos : BitVec 32) (s : State) (errs : List ReadError := []) : Host.Outcome State Fault Refusal :=
  .next (vxRow 0x23 [2] q pos errs (fun r => r.elementwise (fun a _ _ => vRcp a)) s)
/-- VX_RSQRT. -/
def execVxRsqrt (q : QIdx) (pos : BitVec 32) (s : State) (errs : List ReadError := []) : Host.Outcome State Fault Refusal :=
  .next (vxRow 0x23 [3] q pos errs (fun r => r.elementwise (fun a _ _ => vRsqrt a)) s)
/-- VX_TANH. -/
def execVxTanh (q : QIdx) (pos : BitVec 32) (s : State) (errs : List ReadError := []) : Host.Outcome State Fault Refusal :=
  .next (vxRow 0x23 [4] q pos errs (fun r => r.elementwise (fun a _ _ => vTanh a)) s)
/-- VX_RSUM. -/
def execVxRsum (q : QIdx) (pos : BitVec 32) (s : State) (errs : List ReadError := []) : Host.Outcome State Fault Refusal :=
  .next (vxRow 0x24 [0, 0x20] q pos errs (fun r => r.rsum id) s)
/-- VX_RSUMSQ. -/
def execVxRsumsq (q : QIdx) (pos : BitVec 32) (s : State) (errs : List ReadError := []) : Host.Outcome State Fault Refusal :=
  .next (vxRow 0x24 [1, 0x21] q pos errs (fun r => r.rsum (fun x => x.mul x)) s)
/-- VX_RMAX. -/
def execVxRmax (q : QIdx) (pos : BitVec 32) (s : State) (errs : List ReadError := []) : Host.Outcome State Fault Refusal :=
  .next (vxRow 0x24 [2] q pos errs (fun r => r.rpick vmax) s)
/-- VX_RMIN. -/
def execVxRmin (q : QIdx) (pos : BitVec 32) (s : State) (errs : List ReadError := []) : Host.Outcome State Fault Refusal :=
  .next (vxRow 0x24 [3] q pos errs (fun r => r.rpick vmin) s)
/-- VX_RMV. -/
def execVxRmv (q : QIdx) (pos : BitVec 32) (s : State) (errs : List ReadError := []) : Host.Outcome State Fault Refusal :=
  .next (vxRow 0x24 [4, 0x14, 0x24, 0x34] q pos errs (fun r => r.rmv) s)
/-- VX_PERM. -/
def execVxPerm (q : QIdx) (pos : BitVec 32) (s : State) (errs : List ReadError := []) : Host.Outcome State Fault Refusal :=
  .next (vxRow 0x25 [0] q pos errs (fun r => r.perm) s)
/-- VX_COMPRESS. -/
def execVxCompress (q : QIdx) (pos : BitVec 32) (s : State) (errs : List ReadError := []) : Host.Outcome State Fault Refusal :=
  .next (vxRow 0x25 [1] q pos errs (fun r => r.compress (s.packLanes (partOfQ q))) s)
/-- VX_EXPAND. -/
def execVxExpand (q : QIdx) (pos : BitVec 32) (s : State) (errs : List ReadError := []) : Host.Outcome State Fault Refusal :=
  .next (vxRow 0x25 [2] q pos errs (fun r => r.expand (s.packLanes (partOfQ q))) s)

/-! ### Loads and stores (R156, R157) -/

/-- The DVA ranges of the vectors of a load or store: address and bytes. -/
def vxSpans (x : VxCmd) (c : Nat) (vls : List Nat) : List (Nat × Nat) :=
  (vls.zipIdx).map (fun v => (x.dva + v.2 * x.stride, rowBytes (fmtD c).width v.1))

/-- The ranges that vx.ld reads; none when it will be rejected. -/
def vxLdReads (f : Inflight) (s : State) : List (Nat × Nat) :=
  let x := vxFields f.word
  let p := partOfQ f.q
  if vxReason s p x = 0 then vxSpans x x.fmtD (vxVectors s p x (vxClamp s p x)) else []

/-- Puts the bytes of a vector into an operand (R136). -/
def putVector (o : VOp) (f : Fmt) (j : Nat) (bs : List Byte) (a : ArrayL) : ArrayL :=
  if o.isTile then
    a.setTile o.reg ((bs.zipIdx).foldl (fun t b => t.put (o.start f j + b.2) b.1) (a.tile o.reg))
  else
    (List.range (bs.length / 4)).foldl (fun a i =>
      vput o .fp32 j i (unle ((bs.drop (4 * i)).take 4)) a) a

/-- The bytes of a vector of an operand. -/
def getVector (o : VOp) (f : Fmt) (j n : Nat) (a : ArrayL) : List Byte :=
  if o.isTile then (List.range n).map (fun i => (a.tile o.reg).get (o.start f j + i))
  else (((List.range (n / 4)).map (fun i => le 4 (vcode a o .fp32 j i))).flatten)

/-- A load, store or flag store: checked, then run (R141). -/
def vxMemory (f : Inflight) (body : VxCmd → VxClamped → State → State) (s : State) : State :=
  let x := vxFields f.word
  let p := partOfQ f.q
  let c := vxClamp s p x
  let r := vxReason s p x
  let s1 := clampPart p c.ids s
  if r ≠ 0 then vxReject f r s1 else body x c s1

/-- The ranges that vx.st or vx.stf writes; none when it will be rejected. -/
def vxStWrites (f : Inflight) (s : State) : List Access :=
  let x := vxFields f.word
  let p := partOfQ f.q
  if vxReason s p x ≠ 0 then []
  else writesOf (arrayAcc f 2)
    (if x.fn = 2 then [(x.dva, 1)] else vxSpans x x.fmtA (vxVectors s p x (vxClamp s p x)))

/-- VX_LD. -/
def execVxLd (q : QIdx) (pos : BitVec 32) (errs : List ReadError) (s : State) : Host.Outcome State Fault Refusal :=
  .next (runNowAt (isVx 0x26 [0]) q pos vxLdReads (fun f s => readsOf (arrayAcc f 2) (vxLdReads f s)) (fun f s => vxMemory f (fun x c s =>
    let a := arrayAcc f 2
    let vls := vxVectors s (partOfQ f.q) x c
    let spans := vxSpans x x.fmtD vls
    let data := spans.map (fun r => (List.range r.2).map (fun i => rdByte s a errs (r.1 + i)))
    let s1 := touchSpans a spans s
    let s2 := modArr x.array (fun l => (data.zipIdx).foldl (fun l d => putVector (vop x.dst) (fmtD x.fmtD) d.2 d.1 l) l) s1
    noteErrors 2 errs (eventUnmapped a (s.firstUnmapped a.part spans) s2)) s) s)

/-- VX_ST. -/
def execVxSt (q : QIdx) (pos : BitVec 32) (s : State) (errs : List ReadError := []) : Host.Outcome State Fault Refusal :=
  .next (runNowAt (isVx 0x26 [1]) q pos noReads vxStWrites (fun f s => vxMemory f (fun x c s =>
    let a := arrayAcc f 2
    let spans := vxSpans x x.fmtA (vxVectors s (partOfQ f.q) x c)
    let ws := (spans.zipIdx).map (fun r => (r.1.1, getVector (vop x.srca) (fmtD x.fmtA) r.2 r.1.2 (s.arr x.array)))
    noteErrors 2 errs (eventUnmapped a (s.firstUnmapped a.part spans) (cmdWrites a ws s))) s) s)

/-- VX_STF. -/
def execVxStf (q : QIdx) (pos : BitVec 32) (s : State) (errs : List ReadError := []) : Host.Outcome State Fault Refusal :=
  .next (runNowAt (isVx 0x26 [2]) q pos noReads vxStWrites (fun f s => vxMemory f (fun x _ s =>
    let a := arrayAcc f 2
    let s1 := cmdWrite a x.dva [(s.arr x.array).vflag] s
    noteErrors 2 errs (eventUnmapped a (s.unmappedIn a.part x.dva 1) (modArr x.array (fun l => { l with vflag := 0 }) s1))) s) s)

end Sys2Proof.Machine
end

