-- ==== Sys2Proof/Machine/Arrays.lean ====
section
/-! DEFINITION. The physical side of the arrays: current steps (R65–R67), column and array sparing (R69–R73), shadow votes
(R343, R344), known-answer tests (R345) and quarantine (R346). -/

namespace Sys2Proof.Machine

/-! ### Current levels (R65–R67) -/

/-- What a command of an array reads under R125. -/
def arrayReads (f : Inflight) (s : State) : List (Nat × Nat) :=
  if opcodeOf f.word ≤ 0x1F then mxReads f s else if isVx 0x26 [0] f.word then vxLdReads f s else []

/-- A command of an array runs, or could start if the array were at full current: one that an epoch fence holds is not
issuable (R66, R67, R124). -/
def arrayWants (s : State) (l : Nat) : Bool :=
  let s1 := modArr l (fun a => { a with level := .full }) s
  s.tcs.inflight.any (fun f => arrayOf f.word == some l && s.arrayOwner l == some (partOfQ f.q) && ! f.done &&
    (f.started || s1.mayStart f (arrayReads f s1)))

/-- An array runs fill (R65, R67): it draws current above idle and has no command that runs; until a start is granted
it keeps its fill level. -/
def State.runsFill (s : State) (l : Nat) : Bool :=
  match (s.arr l).level with
  | .idle => false
  | .floor => true
  | .full => ! arrayWants s l

/-- The level an array asks for in a window: its start, the step down when its work has ended, or idle after 20 µs. -/
def wantedLevel (s : State) (l : Nat) : Option Level :=
  let a := s.arr l
  let work := arrayWants s l
  match a.level with
  | .full => if work then none else some (if s.dev.fillFloor = 0 then .idle else .floor)
  | .floor => if work then some .full else a.request
  | .idle => if work then some .full else none

/-- Current step of a change, in hundredths of an array's full load. -/
def stepPct (s : State) (a b : Level) : Nat := (s.levelPct a - s.levelPct b) + (s.levelPct b - s.levelPct a)

/-- A granted change of level; fill at the floor starts a fill period (R438). -/
def setLevel (l : Nat) (v : Level) (s : State) : State :=
  let s1 := modArr l (fun a =>
    { a with level := v, request := none, floorSince := if v = .floor then s.now else a.floorSince,
             idleSince := if v = .idle then s.now else a.idleSince }) s
  if v = .floor then modCnt (fun c => { c with fillPeriods := satAdd 20 c.fillPeriods 1 }) s1 else s1

/-- CURRENT_WINDOW_GRANT: requests in ascending index while the granted steps, in 1/120 of device full load, stay within
slew_limit of the present 1 µs window. -/
def execCurrentWindowGrant (s : State) : Host.Outcome State Fault Refusal :=
  .next (
    let used := if s.mxa.windowAt = s.nowUs then s.mxa.windowUsed else 0
    let r := (List.range 120).foldl (fun (acc : State × Nat × Bool) l =>
      match wantedLevel acc.1 l with
      | none => acc
      | some v =>
        let n := acc.2.1 + stepPct acc.1 (acc.1.arr l).level v
        if acc.2.2 || decide (acc.1.dev.slewLimit * 120 < n) then (acc.1, acc.2.1, true)
        else (setLevel l v acc.1, n, false)) (s, used, false)
    modMxa (fun m => { m with windowUsed := r.2.1, windowAt := s.nowUs }) r.1)

/-- FILL_FLOOR_TIMEOUT. -/
def execFillFloorTimeout (l : Arr) (s : State) : Host.Outcome State Fault Refusal :=
  .next (
    let a := s.arr l
    if a.level = .floor && decide (a.floorSince + 20000 ≤ s.now) && ! arrayWants s l then
      modArr l (fun x => { x with request := some .idle }) s
    else s)

/-! ### Sparing (R69–R72, R346) -/

/-- A physical array that still counts: one that carries a logical array, or a free spare. -/
def physLive (s : State) (a : Nat) : Bool := (logicalOf s a).isSome || s.mxa.hw.sparesFree.contains a

/-- A free spare leaves the spares: spares_free falls, retired rises, and the array-map record names it (R69, R73,
R346). -/
def spareLeaves (a : Nat) (s : State) : State :=
  modHw (fun h => { h with sparesFree := h.sparesFree.filter (fun x => x != a), retired := h.retired ++ [a],
                           lastRetired := a }) s

/-- Decides a retirement or quarantine (R346): a free spare leaves at once, an array that carries a logical one at its
next command boundary (R71, ARRAY_RETIRE). -/
def retireDecide (a : Nat) (s : State) : State :=
  if s.mxa.hw.sparesFree.contains a then spareLeaves a s
  else if physLive s a && ! s.mxa.retireDue.contains a then modMxa (fun m => { m with retireDue := m.retireDue ++ [a] }) s else s
/-- Marks a column failed. -/
def columnDecide (a col : Nat) (s : State) : State :=
  if physLive s a then modMxa (fun m => { m with colDue := m.colDue ++ [(a, col)] }) s else s

/-- COLUMN_SPARE: a third failed column retires the array. -/
def execColumnSpare (a : Phys) (col : BitVec 16) (s : State) : Host.Outcome State Fault Refusal :=
  .next (
    if ! s.mxa.colDue.contains (a.val, col.toNat) then s
    else
      let s1 := modMxa (fun m => { m with colDue := m.colDue.filter (fun x => x != (a.val, col.toNat)) }) s
      let old := tabGet [] s.mxa.hw.failedCols a.val
      if old.contains col.toNat || ! physLive s a.val then s1
      else
        let s2 := modHw (fun h => { h with failedCols := tabPut [] h.failedCols a.val (old ++ [col.toNat]) }) s1
        if 2 ≤ old.length then retireDecide a.val s2
        else eventOn 0x0101 1 (physOwner s2 a.val) (le 1 a.val ++ le 2 col.toNat) s2)

/-- What the copy of an array's contents to a spare leaves (R71): stationary buffers, tile registers, accumulator tiles
and flag bytes move with the logical array; the spare's own weight slots, latches and segment store hold nothing of it. -/
def copyToSpare (l : Nat) (s : State) : State :=
  bumpFree 5 (modArr l (fun a =>
    { a with weights := some s.free, weightsShadow := some (s.free + 1), latch0 := some (s.free + 2),
             latch1 := some (s.free + 3), segments := some (s.free + 4) }) s)

/-- The errors that a copy can meet: SECDED of the array's storage (R41, R71). -/
def copyErrors (errs : List ReadError) : List ReadError :=
  errs.filter (fun e =>
    match e with
    | .arrayCorrected _ _ _ => true
    | .arrayUncorrectable _ _ _ => true
    | _ => false)

/-- Records the errors of a copy from physical array a to b: the storage lay in a, and the logical array l, now on b, says
whose it was. -/
def noteCopyErrors (a l : Nat) (errs : List ReadError) (s : State) : State :=
  (copyErrors errs).foldl (fun s e =>
    match e with
    | .arrayCorrected _ res row => eventOn 0x0105 1 (s.arrayOwner l) (le 1 a ++ [res] ++ le 2 row.toNat) s
    | .arrayUncorrectable _ res row =>
      eventOn 0x0106 2 (s.arrayOwner l) (le 1 a ++ [res] ++ le 2 row.toNat ++ le 1 ((s.arrayOwner l).getD 0)) s
    | _ => s) s

/-- ARRAY_RETIRE: the logical array moves to the nearest free spare with its contents, or goes offline; a free spare
leaves the spares. `errs` are the errors that the copy met. The current level stands with the logical index, so the spare
takes over the retired array's level and no window is asked for it, the spec being silent on the current of a spare that
comes into use (DESIGN CHOICE, notes/assumptions/72.md). -/
def execArrayRetire (a : Phys) (errs : List ReadError) (s : State) : Host.Outcome State Fault Refusal :=
  .next (
    if ! s.mxa.retireDue.contains a.val then s
    else
      let s1 := modMxa (fun m => { m with retireDue := m.retireDue.filter (fun x => x != a.val) }) s
      match logicalOf s1 a.val with
      | none => if s1.mxa.hw.sparesFree.contains a.val then spareLeaves a.val s1 else s1
      | some l =>
        match (spareOrder a.val s1.mxa.hw.sparesFree).head? with
        | some b =>
          let s2 := modHw (fun h =>
            { h with
              phys := h.phys.set l b
              sparesFree := h.sparesFree.filter (fun x => x != b)
              retired := h.retired ++ [a.val]
              lastSpare := b
              lastRetired := a.val }) (copyToSpare l s1)
          let s3 := eventOn 0x0102 1 (s2.arrayOwner l) (le 1 l ++ le 1 a.val ++ le 1 b) s2
          noteCopyErrors a.val l errs s3
        | none =>
          let s2 := modHw (fun h =>
            { h with offline := h.offline ++ [l], retired := h.retired ++ [a.val], lastRetired := a.val }) s1
          let s3 := eventOn 0x0104 2 (s2.arrayOwner l) (le 1 l ++ le 1 a.val) s2
          capacityLoss (.arrays l) 0 s3)

/-! ### Shadow votes (R343, R344) -/

/-- Tiles of a bin and signature sampled every 2⁶ tiles for the next 2²⁰ such tiles. -/
def raiseSampling (l : Nat) (bin sig : Byte) (s : State) : State :=
  modArr l (fun a => { a with raised := (a.raised.filter (fun r => ! (r.1 == bin && r.2.1 == sig))) ++ [(bin, sig, 2 ^ 20)] }) s

/-- Event 0x0806: sampled array, shadow spare, the faulty one (0xFF for none or both), the action (1 column marked failed,
2 sampled array quarantined, 3 spare quarantined, 4 both quarantined, 5 sampling raised), bin and signature. -/
def eventShadow (a b faulty action : Nat) (bin sig : Byte) (s : State) : State :=
  eventD 0x0806 1 (le 1 a ++ le 1 b ++ le 1 faulty ++ le 1 action ++ [bin, sig]) s

/-- SHADOW_MISMATCH_VOTE on the tile the array has sampled. The repeated execution writes the bits that are there (R37). -/
def execShadowMismatchVote (l : Arr) (vote : ShadowVote) (s : State) : Host.Outcome State Fault Refusal :=
  .next (
    match (s.arr l).shadow with
    | none => s
    | some x =>
      let a := s.physOf l
      let b := x.spare
      let s1 := modFap (fun f => { f with mismatches := satAdd 8 f.mismatches 1 })
        (modArr l (fun y => { y with shadow := none }) s)
      match vote with
      | .shadow (some c) bin sig => eventShadow a b a 1 bin sig (columnDecide a c.toNat s1)
      | .shadow none bin sig => eventShadow a b a 2 bin sig (retireDecide a s1)
      | .sampled bin sig => eventShadow a b b 3 bin sig (retireDecide b s1)
      | .neither bin sig => eventShadow a b 0xFF 4 bin sig (retireDecide b (retireDecide a s1))
      | .noThird bin sig => eventShadow a b 0xFF 5 bin sig (raiseSampling l bin sig s1))

/-! ### Known-answer tests (R345) -/

/-- Event 0x0807 and its count: trim 1, 2, 3 for 0, −15, −30 mV; action 1 repeated, 2 column marked failed, 3 quarantined,
4 sampling raised. -/
def katFail (a test trim action : Nat) (bin : Byte) (s : State) : State :=
  eventD 0x0807 1 (le 1 a ++ le 2 test ++ le 1 trim ++ [bin] ++ le 1 action)
    (modFap (fun f => { f with katFail := satAdd 8 f.katFail 1 }) s)

/-- A test is due: 100 µs at idle on an array no admitted envelope books, 10 s since the last one on a free spare, or a
changed temperature bin. -/
def katDue (s : State) (a : Nat) (bin : Byte) : Bool :=
  let changed := s.mxa.katBin.any (fun x => x.1 == a && x.2 != bin)
  match logicalOf s a with
  | some l =>
    changed || ((s.arr l).level == .idle && decide ((s.arr l).idleSince + 100000 ≤ s.now) &&
      ! s.tcs.envs.any (fun e => e.status == .admitted && e.booked.any (fun x => x.1 == l)))
  | none => s.mxa.hw.sparesFree.contains a && (changed || decide (tabGet 0 s.mxa.katAt a + 10000000000 ≤ s.now))

/-- What a failure at a lowered trim does. -/
def katLow (a : Nat) (t : Option Byte) (trim : Nat) (o : KatObs) (s : State) : State :=
  match t with
  | none => s
  | some x =>
    let s1 := katFail a x.toNat trim 4 o.bin s
    match logicalOf s a with
    | some l => raiseSampling l o.bin o.sig s1
    | none => s1

/-- KNOWN_ANSWER_TEST. -/
def execKnownAnswerTest (a : Phys) (o : KatObs) (s : State) : Host.Outcome State Fault Refusal :=
  .next (
    if ! katDue s a.val o.bin then s
    else
      let s1 := modMxa (fun m =>
        { m with
          katBin := tabInsert a.val o.bin (tabDel m.katBin a.val)
          katAt := tabPut 0 m.katAt a.val s.now }) s
      let s2 := match o.first with
        | none => s1
        | some t =>
          let s2 := katFail a.val t.toNat 1 1 o.bin s1
          match o.second with
          | none => s2
          | some u =>
            match o.column with
            | some c => columnDecide a.val c.toNat (katFail a.val u.toNat 1 2 o.bin s2)
            | none => retireDecide a.val (katFail a.val u.toNat 1 3 o.bin s2)
      katLow a.val o.low30 3 o (katLow a.val o.low15 2 o s2))

/-- FAP_SHADOW_CNT_CLEAR. -/
def execFapShadowCntClear (s : State) : Host.Outcome State Fault Refusal :=
  .next (modFap (fun f => { f with katFail := 0, mismatches := 0, skipped := 0, samples := 0 }) s)

/-- FAP_ROUND_CNT_CLEAR. -/
def execFapRoundCntClear (s : State) : Host.Outcome State Fault Refusal :=
  .next (modFap (fun f => { f with failed := 0, later := 0, first := 0, called := 0 }) s)

end Sys2Proof.Machine
end

