-- ==== Sys2Proof/Machine/Ports.lean ====
section
/-! DEFINITION. What the collective and agreement engines share with the optical ports: CRC-32C, flits handed to a port
(R267, R268), routes (R299, R300, R305) and streams (R303). -/

namespace Sys2Proof.Machine

/-! ### CRC-32C (R267, R276, R312, R381) -/

/-- One bit of the reflected Castagnoli polynomial. -/
def crcBit (c : BitVec 32) : BitVec 32 := if c.getLsbD 0 then (c >>> 1) ^^^ 0x82F63B78#32 else c >>> 1
/-- One byte. -/
def crcByte (c : BitVec 32) (b : Byte) : BitVec 32 :=
  crcBit (crcBit (crcBit (crcBit (crcBit (crcBit (crcBit (crcBit (c ^^^ b.setWidth 32))))))))
/-- CRC-32C of bytes. -/
def crc32c (l : List Byte) : BitVec 32 := (l.foldl crcByte 0xFFFFFFFF#32) ^^^ 0xFFFFFFFF#32

/-! ### Ports -/

/-- Port e. -/
def State.port (s : State) (e : Nat) : PortSt := tabGet {} s.exo.ports e
/-- Updates port e. -/
def modPort (e : Nat) (f : PortSt → PortSt) (s : State) : State :=
  { s with exo := { s.exo with ports := tabMod {} s.exo.ports e f } }
/-- A port that is up (R291). -/
def State.portUp (s : State) (e : Nat) : Bool := (s.port e).state == 2 || (s.port e).state == 3
/-- Hands a flit to a port's transmitter. -/
def sendFlit (e : Nat) (f : Flit) (s : State) : State := modPort e (fun p => { p with ready := p.ready ++ [f] }) s

/-- Code of a flit class (R268). -/
def FlitClass.code : FlitClass → Nat
  | .collective => 0
  | .control => 1
  | .transit => 2
  | .agreement => 3
  | .management => 4

/-! ### Node addresses and routes (R296–R300) -/

/-- This module's node address; none while COL_COORD is not valid, or in a spare slot (R296). -/
def State.node (s : State) : Option Nat :=
  let c := s.col.coord
  if c.valid && ! c.spare then some (c.rack * 64 + c.z * 16 + c.y * 4 + c.x) else none

/-- Role of a port for a partition (R298). -/
def PartRec.role (r : PartRec) (e : Nat) : Nat := r.roles.toNat / 16 ^ e % 16
/-- Own bit of an axis, 0 x, 1 y, 2 z (R298). -/
def PartRec.owns (r : PartRec) (axis : Nat) : Bool := r.own / 2 ^ axis % 2 == 1

/-- Steps on one axis (R300). -/
def axisHops (own : Bool) (axis a b : Nat) : List Nat :=
  let d := (b + 4 - a) % 4
  if d = 0 then []
  else if own then (if d ≤ 2 then List.replicate d (2 * axis) else List.replicate (4 - d) (2 * axis + 1))
  else if a ≤ b then List.replicate (b - a) (2 * axis)
  else List.replicate (a - b) (2 * axis + 1)

/-- inrack under own bits (R300). -/
def inrackOwn (own : Nat → Bool) (a b : Nat) : List Nat :=
  axisHops (own 0) 0 (a % 4) (b % 4) ++ axisHops (own 1) 1 (a / 4 % 4) (b / 4 % 4) ++
  axisHops (own 2) 2 (a / 16 % 4) (b / 16 % 4)
/-- inrack (R300). -/
def inrack (r : PartRec) (a b : Nat) : List Nat := inrackOwn r.owns a b

/-- The global port of a partition with a role, 7 G0 or 8 G1. -/
def PartRec.globalPort (r : PartRec) (role : Nat) : Option Nat := [6, 7].find? (fun e => r.role e == role)

/-- Route through an entry of the global route table. -/
def globalRoute (r : PartRec) (a b : Nat) (e : BitVec 32) : Option (List Nat) :=
  let n := e.toNat
  (r.globalPort (if n / 2 ^ 12 % 2 = 1 then 8 else 7)).map (fun port =>
    inrack r a (a / 64 * 64 + n % 64) ++ [port] ++ inrack r (b / 64 * 64 + n / 64 % 64) b)

/-- Entries of a partition's global route table that lead to a rack. -/
def routeEntries (s : State) (p rack : Nat) : List (BitVec 32) :=
  (tabGet [] s.wmc.active.routes p).filter (fun e => e.toNat / 2 ^ 16 == rack)

/-- route(a, b) (R300): none when b is unreachable. -/
def route (s : State) (p a b : Nat) : Option (List Nat) :=
  let r := s.part p
  if a / 64 = b / 64 then some (inrack r a b)
  else (routeEntries s p (b / 64)).head?.bind (globalRoute r a b)

/-- The module one hop on a torus port away (R297). -/
def stepNode (n port : Nat) : Nat :=
  let w := 4 ^ (port / 2)
  let c := n / w % 4
  n - c * w + (if port % 2 = 0 then (c + 1) % 4 else (c + 3) % 4) * w

/-- Modules that a run of torus hops passes before its last one. -/
def passed : Nat → List Nat → List Nat
  | _, [] => []
  | _, [_] => []
  | n, e :: r => if 6 ≤ e then [] else stepNode n e :: passed (stepNode n e) r

/-- A node address is withdrawn: its module was decided failed, and no spare answers there yet (R335;
notes/assumptions/31.md). -/
def State.gone (s : State) (n : Nat) : Bool :=
  s.col.withdrawn.any (fun x => x.1 == n && (x.2 == 0 || decide (s.now < x.2)))

/-- A route leaves on a port that is up, passes no withdrawn module (R305, R335), and passes through no module over a port
of version 1.0 (R279). -/
def routeGood (s : State) (a : Nat) (r : List Nat) : Bool :=
  match r with
  | [] => true
  | e :: rest => s.portUp e && (rest.isEmpty || (s.port e).version == 0x12#8) && ! (passed a r).any s.gone

/-- The candidates of R305 for a route, in its order. -/
def detours (s : State) (p a b : Nat) (r : List Nat) : List (List Nat) :=
  match r with
  | [] => []
  | e :: _ =>
    if 6 ≤ e then
      ((routeEntries s p (b / 64)).filterMap (globalRoute (s.part p) a b)).filter (fun x => x.head? != some e)
    else
      let k := (r.takeWhile (fun x => x == e)).length
      let opp := if e % 2 = 0 then e + 1 else e - 1
      let next := 2 * ((e / 2 + 1) % 3)
      [List.replicate (4 - k) opp ++ r.drop k, next :: (r ++ [next + 1])]

/-- The route that a flit takes: the first good one; none when the destination is unreachable. -/
def State.goodRoute (s : State) (p a b : Nat) : Option (List Nat) :=
  if s.gone b then none
  else (route s p a b).bind (fun r => (r :: detours s p a b r).find? (routeGood s a))

/-- The first port of a route has a role for a partition (R298). -/
def hasRole (s : State) (p : Nat) : List Nat → Bool
  | [] => true
  | e :: _ => (s.part p).role e != 0

/-- The route that a stream's data take, and whether it is a detour: collective data leave only on ports with a role (R298),
a detour runs in the transit class over any link (R305). -/
def State.dataRoute (s : State) (p a b : Nat) : Option (List Nat × Bool) :=
  if s.gone b then none
  else
    (route s p a b).bind (fun r =>
      if hasRole s p r && routeGood s a r then some (r, false)
      else ((detours s p a b r).find? (routeGood s a)).map (fun d => (d, true)))

/-! ### Streams (R303) -/

/-- A 25-bit source or destination: partition and node address. -/
def endpoint (p n : Nat) : BitVec 25 := BitVec.ofNat 25 (p % 8 * 2 ^ 22 + n % 2 ^ 22)
/-- Node address of an endpoint. -/
def nodeOf (e : BitVec 25) : Nat := e.toNat % 2 ^ 22
/-- Partition of an endpoint. -/
def partOfEnd (e : BitVec 25) : Nat := e.toNat / 2 ^ 22

/-- Payload of a stream control flit: kind 0 OPEN, 1 ACK, 2 CLOSE, 3 REFUSE. -/
def ctlPayload (kind : Nat) (c : StreamCtl) : List Byte :=
  le 1 kind ++ List.replicate 15 0#8 ++ le 2 c.rev.toNat ++ le 4 c.src.toNat ++ le 4 c.dst.toNat ++ le 2 c.group.toNat ++
  le 4 c.seq.toNat ++ le 4 c.chunk.toNat ++ le 4 c.fp.toNat ++
  le 8 (packCodes 4 (c.route.map (fun e => e.val))) ++ le 8 c.route.length ++ le 8 c.hop ++ List.replicate 186 0#8

/-- A stream control flit. -/
def ctlFlit (cls : FlitClass) (kind : Nat) (tag : BitVec 12) (c : StreamCtl) : Flit :=
  { cls := cls, last := true, tag := tag, payload := ctlPayload kind c, note := .ctl kind c }

/-- The lowest tag that is not used, none when all 4,096 are taken. -/
def lowestTag (used : List Nat) : Option (BitVec 12) :=
  ((List.range (used.length + 1)).find? (fun t => ! used.contains t && decide (t < 4096))).map (fun t => BitVec.ofNat 12 t)
/-- Open streams that leave on a port. -/
def streamsOn (s : State) (port : Nat) : List Stream := s.col.streams.filter (fun x => x.outPort == some port && ! x.waiting)
/-- The lowest free tag of a port direction, none when all 4,096 are taken. -/
def freeTag (s : State) (port : Nat) : Option (BitVec 12) := lowestTag ((streamsOn s port).map (fun x => x.outTag.toNat))
/-- The lowest free tag for what comes back on a port (notes/assumptions/84.md). -/
def freeRev (s : State) (port : Nat) : Option (BitVec 12) := lowestTag ((streamsOn s port).map (fun x => x.revIn.toNat))

/-- Ports of a route as the flit holds them. -/
def packRoute (r : List Nat) : List (Fin 8) := r.map (fun e => ⟨e % 8, Nat.mod_lt _ (by decide)⟩)

/-- Admission sequence of the collective whose data a stream carries, none for open work (R302). -/
def streamWork (s : State) (x : Stream) : Option Nat :=
  (s.col.colls.find? (fun c => c.part == partOfEnd x.ctl.src && c.group == x.ctl.group.toNat && c.seq == x.ctl.seq.toNat)).bind
    (fun c => (s.inflight c.q c.pos).bind s.admRank)

/-- The flits of a chunk: 250 bytes each, zeros after the data, `last` on the one that ends it (R304). They leave in the
collective data class, on a detour in the transit class (R302, R305). -/
def chunkFlits (s : State) (x : Stream) (data : List Byte) : List Flit :=
  let n := max 1 (ceilDiv data.length 250)
  (List.range n).map (fun i =>
    { cls := if x.detour then .transit else .collective
      last := i + 1 == n
      tag := x.outTag
      payload := ((data.drop (250 * i)).take 250 ++ List.replicate 250 0#8).take 250
      note := .data (partOfEnd x.ctl.src) (streamWork s x) })

/-- Hands chunks of an open stream to its port. -/
def sendChunks (x : Stream) (l : List (List Byte)) (s : State) : State :=
  match x.outPort with
  | some e => (l.flatMap (chunkFlits s x)).foldl (fun s f => sendFlit e f s) s
  | none => s

/-- Opens a stream, at its source or for its next hop: free tags on its outgoing port and an OPEN flit, in the transit class
beyond the source (R301, R303); without a free tag it waits. Chunks that it still holds follow (R305). -/
def openStream (x : Stream) (s : State) : State :=
  let put (y : Stream) (s : State) : State := modCol (fun c => { c with streams := c.streams ++ [y] }) s
  match x.outPort, x.outPort.bind (freeTag s), x.outPort.bind (freeRev s) with
  | some e, some t, some v =>
    let y := { x with outTag := t, revIn := v, waiting := false }
    sendChunks y (x.held.map (fun k => k.2))
      (sendFlit e (ctlFlit (if x.inPort.isNone then .control else .transit) 0 t { x.ctl with tag := t, rev := v, hop := x.ctl.hop + 1 })
        (put y s))
  | _, _, _ => put { x with waiting := true } s

/-! ### Flits that a port hands back (R275) -/

/-- Torus port at the other end of a hop; a global link's far port is taken to be the same. -/
def farPort (e : Nat) : Nat := if 6 ≤ e then e else if e % 2 = 0 then e + 1 else e - 1

/-- A payload of the agreement class with a route and the index of its next hop (R327). -/
def withRoute (r : List Nat) (hop : Nat) (payload : List Byte) : List Byte :=
  payload.take 22 ++ le 1 hop ++ le 1 r.length ++ le 8 (packCodes 4 r) ++ payload.drop 32

/-- The way back of a stream from the end or hop that holds it (R303). -/
def wayBack (x : Stream) : List Nat :=
  match x.inPort with
  | none => []
  | some e => e :: ((x.ctl.route.take (x.ctl.hop - 1)).reverse.map (fun y => farPort y.val))

/-- Answers a stream on its way back, under the tag that the hop before gave for it (R303): kind 1 ACK, 3 REFUSE. -/
def answerStream (kind : Nat) (x : Stream) (chunk : Nat) (s : State) : State :=
  let back (r : List Nat) : StreamCtl :=
    { x.ctl with src := x.ctl.dst, dst := x.ctl.src, tag := x.ctl.rev, chunk := BitVec.ofNat 32 chunk, route := packRoute r, hop := 1 }
  let send (r : List Nat) (s : State) : State :=
    match r with
    | e :: _ => sendFlit e (ctlFlit .control kind x.ctl.rev (back r)) s
    | [] => s
  if (wayBack x).head?.any s.portUp then send (wayBack x) s
  else send ((s.node.bind (fun me => s.goodRoute (partOfEnd x.ctl.src) me (nodeOf x.ctl.src))).getD []) s

/-- Hands a flit over to its rerouted path: the answers of streams and the agreement class go on by the first good route;
collective data and OPENs do with their stream, which reopens (R305). -/
def reroute (f : Flit) (s : State) : State :=
  match s.node, f.note with
  | some me, .ctl kind c =>
    if kind = 0 then s
    else
      match s.goodRoute (partOfEnd c.src) me (nodeOf c.dst) with
      | some (e :: rest) => sendFlit e (ctlFlit f.cls kind f.tag { c with route := packRoute (e :: rest), hop := 1 }) s
      | _ => s
  | some me, .message p n =>
    match s.goodRoute p me n with
    | some (e :: rest) => sendFlit e { f with payload := withRoute (e :: rest) 1 f.payload } s
    | _ => s
  | some me, .through _ .agreement =>
    let hop := unle ((f.payload.drop 22).take 1)
    let r := ((List.range (unle ((f.payload.drop 23).take 1))).map (fun h => unle ((f.payload.drop 24).take 8) / 16 ^ h % 16)).drop (hop - 1)
    match (if 6 ≤ r.headD 0 then [] else detours s 0 me 0 r).find? (routeGood s me) with
    | some (e :: rest) => sendFlit e { f with payload := withRoute (e :: rest) 1 f.payload } s
    | _ => s
  | _, _ => s

/-- Event 0x0709. -/
def eventUnreachable (p group dst : Nat) (s : State) : State :=
  eventP 0x0709 2 p (le 1 p ++ le 2 group ++ le 3 dst) s

end Sys2Proof.Machine
end

