-- ==== Sys2Proof/Machine/Agreement.lean ====
section
/-! DEFINITION. The round sequence of the fault agreement protocol (R326–R330), over an item of either domain. What a
decision does is given by the caller, since the two domains apply theirs in different files. A message to another
participant goes to `fap.sentMsgs` and, as flits, to the first port of its route; one to this module itself is handled at
once (notes/assumptions/33.md). -/

namespace Sys2Proof.Machine

/-! ### Participants (R326) -/

/-- A group that this member treats as bound: one it has not been removed from (R332). -/
def State.boundGroup (s : State) (p g : Nat) : Option Group :=
  (s.group p g).filter (fun x => ! x.removed.contains x.rank)

/-- Module index {z, y, x} of this module while it has a node address. -/
def State.moduleIndex (s : State) : Option Nat := s.node.map (fun n => n % 64)

/-- Participants of an item, in ascending rank or module index. -/
def participants (s : State) : CinchItem → List Nat
  | .group p g _ =>
    match s.group p.val g.toNat with
    | some x => (List.range x.p).filter (fun r => ! x.removed.contains r)
    | none => []
  | .rack => (List.range 64).filter (fun i => ! s.gone (s.col.coord.rack * 64 + i))

/-- This module as a participant of an item. -/
def selfOf (s : State) : CinchItem → Option Nat
  | .group p g _ => (s.group p.val g.toNat).map (fun x => x.rank)
  | .rack => s.moduleIndex

/-- This module takes part in an item. -/
def takesPart (s : State) (i : CinchItem) : Bool :=
  match selfOf s i with
  | some me => (participants s i).contains me
  | none => false

/-- Coordinator of a round (R328). -/
def coordinatorOf (s : State) (i : CinchItem) (r : Nat) : Option Nat := (participants s i)[r]?
/-- This module coordinates a round. -/
def coordinates (s : State) (i : CinchItem) (r : Nat) : Bool :=
  match coordinatorOf s i r, selfOf s i with
  | some c, some me => c == me
  | _, _ => false
/-- Quorum of an item (R328). -/
def quorum (s : State) (i : CinchItem) : Nat := (participants s i).length / 2 + 1

/-- Fingerprint that the messages of an item carry (R312, R327). -/
def fpOf (s : State) : CinchItem → BitVec 32
  | .group p g _ => ((s.group p.val g.toNat).map (fun x => x.fp)).getD 0
  | .rack => 0

/-- The endpoint of the coordinator as event 0x0801 records it (R327): partition and node address. -/
def coordEnd (s : State) (i : CinchItem) (r : Nat) : Nat :=
  match coordinatorOf s i r, i with
  | some c, .group p g _ => ((s.group p.val g.toNat).bind (fun x => x.members[c]?)).getD 0
  | some c, .rack => s.col.coord.rack * 64 + c
  | none, _ => 0

/-! ### Rounds -/

/-- The round sequence of an item. -/
def State.roundOf (s : State) (i : CinchItem) : Option Round := s.fap.rounds.find? (fun r => r.item == i)
/-- Updates the round sequence of an item. -/
def modRound (i : CinchItem) (f : Round → Round) (s : State) : State :=
  modFap (fun a => { a with rounds := a.rounds.map (fun r => if r.item = i then f r else r) }) s

/-- Freezes or frees the running collective of a group item (R330). -/
def setFrozen (i : CinchItem) (b : Bool) (s : State) : State :=
  match i with
  | .rack => s
  | .group p g q => modCol (fun c => { c with colls := c.colls.map (fun x =>
      if x.part = p.val ∧ x.group = g.toNat ∧ x.seq = q.toNat ∧ x.running then { x with frozen := b } else x) }) s

/-- The collective of an item at this member's engine. -/
def State.collOf (s : State) (p g q : Nat) : Option Coll :=
  s.col.colls.find? (fun x => x.part == p && x.group == g && x.seq == q)

/-- A message of this module about an item. -/
def msgOf (s : State) (i : CinchItem) (round : Nat) (cause : Byte) (body : CinchBody) : CinchMsg :=
  { item := i, round := round, cause := cause, sender := (selfOf s i).getD 0, fp := fpOf s i, body := body,
    coord := (coordinatorOf s i round).getD 0 }

/-! ### Messages as flits (R327) -/

/-- Kinds of agreement messages, by their code. -/
inductive MsgKind where
  | call | report | propose | accept | decide
  deriving DecidableEq, Repr
/-- Code of a kind. -/
def MsgKind.code : MsgKind → Nat
  | .call => 1
  | .report => 2
  | .propose => 3
  | .accept => 4
  | .decide => 5

/-- The fragments of a bitmap of p ranks. -/
def bitmapFrags (p : Nat) (l : List Nat) : List (List Byte) :=
  (List.range (max 1 (ceilDiv p 1600))).map (fun k =>
    le 200 ((l.filter (fun r => decide (1600 * k ≤ r) && decide (r < 1600 * k + 1600))).foldl (fun n r => n ||| 2 ^ (r - 1600 * k)) 0))
/-- A bitmap of the 64 active slots. -/
def moduleBits (l : List Nat) : List Byte := le 8 ((l.filter (fun m => decide (m < 64))).foldl (fun n m => n ||| 2 ^ m) 0)
/-- A rack proposal as PROPOSE and DECIDE carry it. -/
def rackBytes (r : RackProposal) : List Byte :=
  moduleBits r.failed ++
  ((List.range 8).map (fun k => le 1 (((r.spares.find? (fun x => x.1 == k)).map (fun x => x.2)).getD 0xFF))).flatten ++
  le 1 (r.drain.getD 0xFF)
/-- The fragments of a message's body for a group of p ranks. -/
def bodyFrags (p : Nat) : CinchBody → List (List Byte)
  | .call subject => [le 1 subject]
  | .reportGroup st acc feeder set =>
    (bitmapFrags p set).map (fun b => le 1 st ++ le 1 ((acc.map (fun a => a.1)).getD 0xFF) ++ le 2 (feeder.getD 0xFFFF) ++ b)
  | .reportRack down fatal late acc =>
    [moduleBits down ++ le 1 (if fatal then 1 else 0) ++ le 1 late ++
      ((acc.map (fun a => rackBytes a.2)).getD []).take 8]
  | .proposalGroup g =>
    (bitmapFrags p g.set ++ bitmapFrags p g.removed).map (fun b => le 1 g.outcome ++ le 1 0 ++ le 2 (g.feeder.getD 0xFFFF) ++ b)
  | .proposalRack r => [rackBytes r]
  | .accept => [[]]

/-- Endpoint of a participant of an item: partition and node address, the partition 0 in rack rounds. -/
def memberEnd (s : State) (i : CinchItem) (k : Nat) : Nat :=
  match i with
  | .group p g _ => (((s.group p.val g.toNat).bind (fun x => x.members[k]?)).getD 0) % 2 ^ 25
  | .rack => s.col.coord.rack * 64 + k
/-- Partition whose routes the messages of an item take. -/
def itemPart : CinchItem → Nat
  | .group p _ _ => p.val
  | .rack => 0
/-- Route of a message: that of the partition, or in rack rounds one that closes no ring (R299). -/
def msgRoute (s : State) (i : CinchItem) (me node : Nat) : Option (List Nat) :=
  match i with
  | .group p _ _ => s.goodRoute p.val me node
  | .rack =>
    let r := inrackOwn (fun _ => false) me node
    (r :: detours s 0 me node r).find? (routeGood s me)

/-- Payloads of a message along a route. -/
def msgPayloads (s : State) (k : MsgKind) (m : CinchMsg) (r : List Nat) : List (List Byte) :=
  let ids : Nat × Nat × Nat := match m.item with
    | .group _ g q => (0, q.toNat, g.toNat)
    | .rack => (1, 0, s.col.coord.rack)
  let p := match m.item with
    | .group p g _ => ((s.group p.val g.toNat).map (fun x => x.p)).getD 0
    | .rack => 64
  let fr := bodyFrags p m.body
  (fr.zipIdx).map (fun b =>
    le 1 k.code ++ le 1 ids.1 ++ le 1 m.round ++ [m.cause] ++ le 4 ids.2.1 ++ le 2 ids.2.2 ++ le 4 m.fp.toNat ++
    le 4 (memberEnd s m.item m.sender) ++ le 4 (memberEnd s m.item m.coord) ++
    le 1 1 ++ le 1 r.length ++ le 8 (packCodes 4 r) ++ le 2 b.2 ++ le 2 fr.length ++ (b.1 ++ List.replicate 214 0#8).take 214)

/-- Hands the flits of a message for one participant to the first port of its route. -/
def msgFlits (k : MsgKind) (m : CinchMsg) (dst : Nat) (s : State) : State :=
  match s.node with
  | none => s
  | some me =>
    let node := memberEnd s m.item dst % 2 ^ 22
    match msgRoute s m.item me node with
    | some (e :: rest) =>
      (msgPayloads s k m (e :: rest)).foldl (fun s b =>
        sendFlit e { cls := .agreement, last := true, tag := 0, payload := b, note := .message (itemPart m.item) node } s) s
    | _ => s

/-- Sends a message to other participants. -/
def sendMsgs (k : MsgKind) (dsts : List Nat) (m : CinchMsg) (s : State) : State :=
  dsts.foldl (fun s d => msgFlits k m d s)
    (modFap (fun a => { a with sentMsgs := (dsts.map (fun d => (d, m))).reverse ++ a.sentMsgs }) s)

/-- Modules across a down port of this rack's torus (R327). -/
def downModules (s : State) : List Nat :=
  match s.node with
  | none => []
  | some n => ((List.range 6).filter (fun e => (s.port e).enable && ! s.portUp e)).map (fun e => stepNode n e % 64)

/-- 1 bits in the barrier history (R336, R347). -/
def State.lateCount (s : State) : Nat := ((List.range 64).filter (fun i => s.fap.hist.getLsbD i)).length

/-- The WMC holds a device-fatal event (R327). -/
def State.holdsFatal (s : State) : Bool := s.evt.fatalHeld || s.evt.fatal || s.evt.fatalDue

/-- The REPORT of this module (R327). -/
def reportBody (s : State) (i : CinchItem) : CinchBody :=
  let r := s.roundOf i
  match i with
  | .group p g q =>
    let acc : Option (Nat × GroupProposal) := r.bind (fun x =>
      match x.accepted with
      | some (k, .proposalGroup y) => some (k, y)
      | _ => none)
    let done := (s.group p.val g.toNat).bind (fun x => x.hist.find? (fun h => h.1 == q.toNat))
    match done with
    | some h => .reportGroup 2 acc h.2.2 h.2.1
    | none =>
      let set : Option (List Nat) := acc.map (fun a => a.2.set)
      let status := if (r.bind (fun x => x.decided)).isSome then 3 else if (s.collOf p.val g.toNat q.toNat).any (fun c => c.running) then 1 else 0
      let got := match s.collOf p.val g.toNat q.toNat with
        | some c => if c.running then c.arrived.map (fun a => a.1) else []
        | none => []
      .reportGroup status acc (acc.bind (fun a => a.2.feeder)) (set.getD got)
  | .rack =>
    let acc : Option (Nat × RackProposal) := r.bind (fun x =>
      match x.accepted with
      | some (k, .proposalRack y) => some (k, y)
      | _ => none)
    .reportRack (downModules s) s.holdsFatal s.lateCount acc

/-! ### Proposals (R329, R331, R334) -/

/-- The accepted proposal of the highest round that the reports carry (R329). -/
def highestAccepted (rs : List CinchMsg) : Option CinchBody :=
  let l : List (Nat × CinchBody) := rs.filterMap (fun m =>
    match m.body with
    | .reportGroup _ (some (k, g)) _ _ => some (k, .proposalGroup g)
    | .reportRack _ _ _ (some (k, r)) => some (k, .proposalRack r)
    | _ => none)
  (l.foldl (fun (acc : Option (Nat × CinchBody)) x =>
    match acc with
    | none => some x
    | some y => if y.1 < x.1 then some x else some y) none).map (fun x => x.2)

/-- Sorted union of lists of ranks. -/
def unionOf (l : List (List Nat)) : List Nat := sortBy (fun a b => decide (a ≤ b)) (l.flatten.eraseDups)

/-- A group proposal (R331). A coordinator that has not started the collective does not know its operation and excludes
as for a reduction (notes/assumptions/34.md). -/
def proposeGroup (s : State) (p g q : Nat) (parts : List Nat) (rs : List CinchMsg) : GroupProposal :=
  let info : List (Nat × Nat × Option Nat × List Nat) := rs.filterMap (fun m =>
    match m.body with
    | .reportGroup st _ fd e => some (m.sender, st, fd, e)
    | _ => none)
  let failed := parts.filter (fun r => ! info.any (fun x => x.1 == r))
  let entered := unionOf (info.map (fun x => x.2.2.2))
  match info.find? (fun x => x.2.1 == 2) with
  | some x =>
    let done := ((info.filter (fun y => y.2.1 == 2)).map (fun y => y.1)).filter (fun r => x.2.2.2.contains r)
    { outcome := 1, feeder := done.min?, set := x.2.2.2, removed := failed }
  | none =>
    if failed.isEmpty && parts.all (fun r => entered.contains r) then
      { outcome := 0, feeder := none, set := parts, removed := [] }
    else
      let byteColl := match s.collOf p g q with
        | some c => decide (0x52 ≤ opcodeOf c.word)
        | none => false
      let set := parts.filter (fun r => ! failed.contains r && (byteColl || entered.contains r))
      { outcome := 2, feeder := set.head?, set := set, removed := failed }

/-- The free spare slot that R334 gives a module outside a whole-row assignment. -/
def pickSlot (used : List Nat) : Option Nat :=
  let free := (List.range 8).filter (fun k => ! used.contains k)
  match free.find? (fun k => used.any (fun u => u / 4 == k / 4)) with
  | some k => some k
  | none => free.head?

/-- Assigns spare slots to failed modules in ascending index (R334): (slot, module) pairs. -/
def assignSpares (bad : List Nat) : List Nat → List Nat → List (Nat × Nat) → List (Nat × Nat)
  | [], _, acc => acc
  | m :: rest, used, acc =>
    if acc.any (fun a => a.2 == m) then assignSpares bad rest used acc
    else
      let row := (List.range 4).map (fun x => m / 4 * 4 + x)
      match [0, 1].find? (fun k => ! used.any (fun u => u / 4 == k)) with
      | some k =>
        if 2 ≤ (row.filter (fun x => bad.contains x)).length then
          let l := (row.zipIdx).map (fun x => (4 * k + x.2, x.1))
          assignSpares bad rest (used ++ l.map (fun x => x.1)) (acc ++ l)
        else
          match pickSlot used with
          | some t => assignSpares bad rest (used ++ [t]) (acc ++ [(t, m)])
          | none => assignSpares bad rest used acc
      | none =>
        match pickSlot used with
        | some t => assignSpares bad rest (used ++ [t]) (acc ++ [(t, m)])
        | none => assignSpares bad rest used acc

/-- A rack proposal (R334). -/
def proposeRack (s : State) (parts : List Nat) (rs : List CinchMsg) : RackProposal :=
  let info : List (Nat × Bool × Nat) := rs.filterMap (fun m =>
    match m.body with
    | .reportRack _ fatal late _ => some (m.sender, fatal, late)
    | _ => none)
  let failed := parts.filter (fun m => ! info.any (fun x => x.1 == m && ! x.2.1))
  let suspects := info.filter (fun x => decide (s.dev.suspectCount ≤ x.2.2) && ! failed.contains x.1)
  let spares := assignSpares (failed ++ suspects.map (fun x => x.1)) failed s.fap.usedSlots []
  let busy := match s.fap.draining with
    | some d => suspects.any (fun x => x.1 == d)
    | none => false
  let worst := suspects.foldl (fun (acc : Option (Nat × Nat)) x =>
    match acc with
    | none => some (x.1, x.2.2)
    | some y => if y.2 < x.2.2 || (y.2 == x.2.2 && decide (x.1 < y.1)) then some (x.1, x.2.2) else some y) none
  match worst, pickSlot (s.fap.usedSlots ++ spares.map (fun x => x.1)) with
  | some w, some t =>
    if busy || ! failed.all (fun m => spares.any (fun x => x.2 == m)) || spares.any (fun x => x.2 == w.1) then
      { failed := failed, spares := spares, drain := none }
    else { failed := failed, spares := spares ++ [(t, w.1)], drain := some w.1 }
  | _, _ => { failed := failed, spares := spares, drain := none }

/-! ### The steps of a round (R328) -/

/-- Reports of the present round that a coordinator holds. -/
def Round.held (r : Round) : List CinchMsg := r.reports.filter (fun m => m.round == r.round)

/-- Start of a round at this participant. -/
def Round.begin_ (r : Round) : Nat := r.start + 1200000 * r.round

/-- The coordinator holds a quorum of ACCEPTs before 1,000 µs of the round: it sends DECIDE and applies it. -/
def checkQuorum (apply : CinchItem → Nat → CinchBody → State → State) (i : CinchItem) (s : State) : State :=
  match s.roundOf i with
  | none => s
  | some r =>
    match r.proposed with
    | none => s
    | some b =>
      if ! r.deciding || r.decided.isSome || r.accepts.length < quorum s i || r.begin_ + 1000000 ≤ s.now then s
      else
        let others := (participants s i).filter (fun x => some x != selfOf s i)
        apply i r.round b (sendMsgs .decide others (msgOf s i r.round r.cause b) s)

/-- The coordinator proposes, and accepts its own proposal. -/
def propose (apply : CinchItem → Nat → CinchBody → State → State) (i : CinchItem) (s : State) : State :=
  match s.roundOf i, selfOf s i with
  | some r, some me =>
    let parts := participants s i
    let body := match highestAccepted r.held with
      | some b => b
      | none =>
        match i with
        | .group p g q => .proposalGroup (proposeGroup s p.val g.toNat q.toNat parts r.held)
        | .rack => .proposalRack (proposeRack s parts r.held)
    let s := sendMsgs .propose (parts.filter (fun x => x != me)) (msgOf s i r.round r.cause body) s
    checkQuorum apply i (modRound i (fun x =>
      { x with proposed := some body, accepts := [me], accepted := some (x.round, body), deciding := true }) s)
  | _, _ => s

/-- The coordinator proposes once it holds a REPORT from every participant, within the first 600 µs of the round; `enough`
reports at that time limit. -/
def tryPropose (apply : CinchItem → Nat → CinchBody → State → State) (i : CinchItem) (enough : Option Nat) (s : State) :
    State :=
  match s.roundOf i with
  | none => s
  | some r =>
    let n := ((participants s i).filter (fun x => r.held.any (fun m => m.sender == x))).length
    if r.proposed.isSome || r.decided.isSome || ! coordinates s i r.round ||
        (enough.isNone && decide (r.begin_ + 600000 < s.now)) then s
    else if enough.getD (participants s i).length ≤ n then propose apply i s else s

/-- Round r starts here: this module sends its REPORT to the coordinator. -/
def startRound (apply : CinchItem → Nat → CinchBody → State → State) (i : CinchItem) (r : Nat) (s : State) : State :=
  match s.roundOf i, coordinatorOf s i r with
  | some x, some c =>
    let m := msgOf s i r x.cause (reportBody s i)
    let s := modRound i (fun y => { y with round := r, proposed := none, accepts := [], deciding := false }) s
    if some c = selfOf s i then
      tryPropose apply i none (modRound i (fun y =>
        { y with reports := (y.reports.filter (fun z => ! (z.sender == m.sender && z.round == m.round))) ++ [m] }) s)
    else sendMsgs .report [c] m s
  | some _, none => modRound i (fun y => { y with round := r, proposed := none, accepts := [], deciding := false }) s
  | none, _ => s

/-- This module enters the round sequence of an item: the collective freezes (R330) and round 0 starts. -/
def enterRounds (apply : CinchItem → Nat → CinchBody → State → State) (i : CinchItem) (cause : Byte) (s : State) : State :=
  if (s.roundOf i).isSome || ! takesPart s i then s
  else
    let r : Round :=
      { item := i, start := s.now, round := 0, cause := cause, reports := [], proposed := none, accepts := [],
        accepted := none, decided := none, deciding := false }
    startRound apply i 0 (setFrozen i true (modFap (fun a => { a with rounds := a.rounds ++ [r] }) s))

/-- A rack round sequence that has ended makes way for the next (R326: at most one in progress). -/
def dropEnded (i : CinchItem) (s : State) : State :=
  if i = .rack then
    modFap (fun a => { a with rounds := a.rounds.filter (fun r => ! (r.item == i && r.decided.isSome)) }) s
  else s

/-- This module calls a round (R326): CALL to every other participant, once for an item. -/
def callRound (apply : CinchItem → Nat → CinchBody → State → State) (i : CinchItem) (cause : Byte) (subject : Nat)
    (s : State) : State :=
  let s := dropEnded i s
  if (s.roundOf i).isSome || ! takesPart s i then s
  else
    let others := (participants s i).filter (fun x => some x != selfOf s i)
    let s := sendMsgs .call others (msgOf s i 0 cause (.call subject)) s
    let s := modFap (fun a => { a with called := satAdd 15 a.called 1 }) s
    enterRounds apply i cause s

/-- Counts a decided item and records event 0x0801 when its round is not round 0. -/
def countDecided (i : CinchItem) (round : Nat) (s : State) : State :=
  if round = 0 then modFap (fun a => { a with first := satAdd 15 a.first 1 }) s
  else
    let item := match i with
      | .group _ g q => le 2 g.toNat ++ le 4 q.toNat
      | .rack => le 2 s.col.coord.rack ++ le 4 0
    eventD 0x0801 1 (le 1 (if i = .rack then 1 else 0) ++ item ++ le 1 round ++ le 4 (coordEnd s i round))
      (modFap (fun a => { a with later := satAdd 15 a.later 1 }) s)

/-- The decision of an item is taken once: the round sequence keeps it and the freeze ends. -/
def noteDecided (i : CinchItem) (round : Nat) (b : CinchBody) (s : State) : State :=
  let s := countDecided i round s
  let s := if (s.roundOf i).isSome then s
    else
      let r : Round :=
        { item := i, start := s.now, round := round, cause := 0, reports := [], proposed := none, accepts := [],
          accepted := none, decided := none, deciding := false }
      modFap (fun a => { a with rounds := a.rounds ++ [r] }) s
  setFrozen i false (modRound i (fun r =>
    { r with decided := some b, accepted := some (round, b), deciding := false }) s)

end Sys2Proof.Machine
end

