-- ==== Sys2Proof/Machine/Collective.lean ====
section
/-! DEFINITION. Collectives (R307–R325): commands, groups, the order of every addition, contribution sets, feeds, carries
and chunks. A chunk carries the contribution of the member it names: accumulation-format values for a reduction, the flat
bytes of the source for a byte collective, the measured wait for a barrier (notes/assumptions/30.md). -/

namespace Sys2Proof.Machine

/-! ### Commands (R307–R310) -/

/-- A reduction. -/
def isReduction (op : Nat) : Bool := op == 0x50 || op == 0x51

/-- Clamped fields with the clamp ids (R33): rnd of a reduction. -/
def coClamp (w : CmdWord) : CoCmd × List Nat :=
  let x := coFields w
  if isReduction x.op && decide (2 ≤ x.rnd) then ({ x with rnd := 0 }, [7]) else (x, [])

/-- The collective engine's access (R206, R474). -/
def collAcc (f : Inflight) : Acc := { coreAcc f with agent := 3 }

/-- Elements of a tensor. -/
def Desc.elements (d : Desc) : Nat := d.rows * d.cols
/-- Bytes of one unit of the flat sequence: an element, or a 32-element block followed by its scale (R307). -/
def unitBytes (f : Fmt) : Nat := if f.blocked then 4 * f.width + 1 else f.width / 8
/-- Units of n elements. -/
def unitsOf (f : Fmt) (n : Nat) : Nat := if f.blocked then n / 32 else n

/-- Where byte n of a tensor's flat sequence lies. -/
def flatDva (d : Desc) (f : Fmt) (n : Nat) : Nat :=
  let u := n / unitBytes f
  let o := n % unitBytes f
  let e := if f.blocked then 32 * u else u
  let i := e / d.cols
  let j := e % d.cols
  if f.blocked && o == 4 * f.width then d.scaleDva i j else d.base + i * d.rowStride + f.width * j / 8 + o

/-- Bytes [off, off + len) of a tensor's flat sequence. -/
def flatBytes (s : State) (a : Acc) (d : Desc) (f : Fmt) (off len : Nat) : List Byte :=
  (List.range len).map (fun k => if off + k < unitsOf f d.elements * unitBytes f then s.readByte a (flatDva d f (off + k)) else 0#8)

/-- Joins bytes at consecutive addresses. -/
def mergeRuns : List (Nat × Byte) → List (Nat × List Byte)
  | [] => []
  | (a, b) :: r =>
    match mergeRuns r with
    | (d, bs) :: t => if d = a + 1 then (a, b :: bs) :: t else (a, [b]) :: (d, bs) :: t
    | [] => [(a, [b])]

/-- Writes of bytes into a tensor's flat sequence from a flat offset; what lies beyond the tensor is not written. -/
def flatWrites (d : Desc) (f : Fmt) (off : Nat) (bytes : List Byte) : List (Nat × List Byte) :=
  mergeRuns ((bytes.zipIdx).filterMap (fun b =>
    if off + b.2 < unitsOf f d.elements * unitBytes f then some (flatDva d f (off + b.2), b.1) else none))

/-- Byte ranges of a tensor. -/
def Desc.all (d : Desc) : List (Nat × Nat) := d.spans d.rows d.cols

/-- Any byte of one list of ranges lies in another (R310). -/
def rangesMeet (a b : List (Nat × Nat)) : Bool :=
  a.any (fun x => b.any (fun y => decide (0 < x.2) && decide (0 < y.2) && overlaps x.1 x.2 y.1 y.2))

/-- Elements of one block of co.rscat. -/
def blockElems (e p : Nat) : Nat := ceilDiv e p

/-- The destination holds what R308 requires. -/
def dstHolds (s : State) (a : Acc) (x : CoCmd) (g : Group) (e : Nat) (d : Desc) (f : Fmt) : Bool :=
  if x.op = 0x51 then decide (blockElems e g.p ≤ d.elements)
  else if x.op = 0x52 then decide (g.p * e ≤ d.elements)
  else if x.op = 0x56 then
    ((sizeTable s a x.szBase (2 * g.p)).drop g.p).all (fun t => decide (t.1 + t.2 ≤ unitsOf f d.elements * unitBytes f))
  else decide (e ≤ d.elements)

/-- Reason 0x09 (R307, R310). -/
def badBlocks (s : State) (a : Acc) (x : CoCmd) (g : Group) (src dst : Desc) (f : Fmt) : Bool :=
  let e := src.elements
  let odd (n : Nat) : Bool := n % 32 != 0
  (x.op == 0x55 && e % g.p != 0) ||
  (f.blocked && (src.blockAxis || dst.blockAxis || odd src.cols || odd dst.cols ||
    (x.op == 0x55 && odd (e / g.p)) ||
    (x.op == 0x56 && (sizeTable s a x.szBase (2 * g.p)).any (fun t => t.1 % unitBytes f != 0 || t.2 % unitBytes f != 0))))

/-- Why a collective command is rejected, 0 when it is not (R310). -/
def coReason (s : State) (f : Inflight) (x : CoCmd) : Nat :=
  let p := partOfQ f.q
  let a := collAcc f
  if 0x58 ≤ x.op then 1
  else
    match s.boundGroup p x.group with
    | none => 2
    | some g =>
      if x.seq < g.nextSeq || g.done.contains x.seq then 3
      else if x.op = 0x54 then 0
      else
        match s.desc a x.descSrc, s.desc a x.descDst with
        | some src, some dst =>
          match src.format, dst.format with
          | some fs, some fd =>
            if (if isReduction x.op then fs.blocked || fd.blocked else fs != fd) then 5
            else if ! dstHolds s a x g src.elements dst fd then 6
            else if rangesMeet src.all dst.all then 7
            else if x.op = 0x53 ∧ g.p ≤ x.root then 8
            else if ! isReduction x.op && badBlocks s a x g src dst fs then 9
            else 0
          | _, _ => 5
        | _, _ => 4

/-- Ranges that a collective command reads (R125). -/
def coReads (f : Inflight) (s : State) : List (Nat × Nat) :=
  let x := (coClamp f.word).1
  if x.op = 0x54 ∨ coReason s f x ≠ 0 then []
  else
    (match s.desc (collAcc f) x.descSrc with
      | some d => d.all
      | none => []) ++
    (if x.op = 0x56 then [(x.szBase, 16 * ((s.boundGroup (partOfQ f.q) x.group).map (fun g => g.p)).getD 0)] else [])

/-! ### Groups (R311–R313) -/

/-- Updates a group. -/
def modGroup (p g : Nat) (f : Group → Group) (s : State) : State :=
  modCol (fun c => { c with groups := c.groups.map (fun x => if x.1 = groupKey p g then (x.1, f x.2) else x) }) s

/-- Advances next_seq over the sequence numbers that are passed. -/
def runSeq : Nat → Group → Group
  | 0, g => g
  | n + 1, g =>
    if g.done.contains g.nextSeq then
      runSeq n { g with nextSeq := (g.nextSeq + 1) % 2 ^ 32, done := g.done.filter (fun k => k != g.nextSeq) }
    else g

/-- next_seq advances past a sequence number (R310, R313). -/
def passSeq (p g seq : Nat) (s : State) : State :=
  modGroup p g (fun x => if seq < x.nextSeq then x
    else runSeq (x.done.length + 1) { x with done := if x.done.contains seq then x.done else x.done ++ [seq] }) s

/-- Coordinates of a rank on the group's axes (R311). -/
def coordsOf : Nat → List (Nat × Nat × Bool) → List Nat
  | _, [] => []
  | r, a :: rest => r % max 1 a.1 :: coordsOf (r / max 1 a.1) rest
/-- Rank of coordinates. -/
def rankAt : List Nat → List (Nat × Nat × Bool) → Nat
  | c :: cs, a :: rest => c + max 1 a.1 * rankAt cs rest
  | _, _ => 0

/-! ### The order of additions (R316, R317, R319) -/

/-- fl of a sum in the accumulation format, with the overflow seen (R309). -/
def joinRuns (f : Fmt) (a b : Run) : Run :=
  let r := Run.step f a b.v
  { r with ovf := r.ovf || b.ovf }

/-- The latency algorithm (R316): the aligned binary tree over the set. -/
def treeSum (f : Fmt) (set : List Nat) (t : Nat → Run) : Nat → Nat → Option Run
  | 0, start => if set.contains start then some (t start) else none
  | k + 1, start =>
    match treeSum f set t k start, treeSum f set t k (start + 2 ^ k) with
    | some a, some b => some (joinRuns f a b)
    | some a, none => some a
    | none, b => b

/-- A run of additions in order. -/
def sumList (f : Fmt) : List Run → Option Run
  | [] => none
  | r :: rest => some (rest.foldl (joinRuns f) r)

/-- Ring sum of the block that coordinate j owns (R317). -/
def ringSum (f : Fmt) (e : Nat) (plus : Bool) (j : Nat) (t : Nat → Run) : Run :=
  let at_ (i : Nat) : Nat := if plus then (j + i) % e else (j + e * (i / e + 1) - i) % e
  (sumList f ((List.range e).map (fun i => t (at_ (i + 1))))).getD { v := FVal.zero, ovf := false }

/-- Line sum of the block that coordinate j owns (R317). -/
def lineSum (f : Fmt) (e j : Nat) (t : Nat → Run) : Run :=
  let l := sumList f ((List.range j).map t)
  let r := sumList f (((List.range (e - 1 - j)).map (fun i => t (e - 1 - i))))
  let m := match l with
    | some x => joinRuns f x (t j)
    | none => t j
  match r with
  | some y => joinRuns f m y
  | none => m

/-- Part or block of n things that holds index u when they are cut into k by R317, with its first index and size. -/
def partAt (n k u : Nat) : Nat × Nat × Nat :=
  let q := n / k
  let r := n % k
  let big := r * (q + 1)
  if u < big then (u / (q + 1), u / (q + 1) * (q + 1), q + 1)
  else
    let i := (u - big) / max 1 q
    (r + i, big + i * q, q)

/-- The streams of a group (R317): (axis, + direction) in order. -/
def groupStreams (axes : List (Nat × Nat × Bool)) : List (Nat × Bool) :=
  ((axes.zipIdx).map (fun a =>
    if a.1.1 ≤ 1 then [] else if a.1.2.2 then [(a.2, true)] else [(a.2, true), (a.2, false)])).flatten

/-- Axes of a stream in its order: (axis, extent, line). -/
def streamAxes (axes : List (Nat × Nat × Bool)) (a : Nat) : List (Nat × Nat × Bool) :=
  (((List.range axes.length).map (fun i => (a + i) % axes.length)).map (fun k =>
    (k, (axes.getD k (0, 0, false)).1, (axes.getD k (0, 0, false)).2.2))).filter (fun x => decide (1 < x.2.1))

/-- Owner coordinates of a unit within a part, along a stream's axes: (axis, extent, line, coordinate). -/
def ownersOn : List (Nat × Nat × Bool) → Nat → Nat → List (Nat × Nat × Bool × Nat)
  | [], _, _ => []
  | x :: rest, n, u =>
    let b := partAt n x.2.1 u
    (x.1, x.2.1, x.2.2, b.1) :: ownersOn rest b.2.2 (u - b.2.1)

/-- Where a unit of E goes under the bandwidth algorithm: its stream's direction and its owner on each axis. -/
def unitPath (axes : List (Nat × Nat × Bool)) (e u : Nat) : Bool × List (Nat × Nat × Bool × Nat) :=
  let st := groupStreams axes
  if st.isEmpty then (true, [])
  else
    let b := partAt e st.length u
    let k := st.getD b.1 (0, true)
    (k.2, ownersOn (streamAxes axes k.1) b.2.2 (u - b.2.1))

/-- Sum along axes, the last first (R317). -/
def sumAxes (f : Fmt) (plus : Bool) (t : List Nat → Run) : List (Nat × Nat × Bool × Nat) → List Nat → Run
  | [], c => t c
  | x :: rest, c =>
    let at_ (k : Nat) : Run := sumAxes f plus t rest (c.set x.1 k)
    if x.2.2.1 then lineSum f x.2.1 x.2.2.2 at_ else ringSum f x.2.1 plus x.2.2.2 at_

/-- Element u of E under the bandwidth algorithm over the whole group (R317). -/
def bandwidthSum (f : Fmt) (g : Group) (e : Nat) (t : Nat → Run) (u : Nat) : Run :=
  let pt := unitPath g.axes e u
  sumAxes f pt.1 (fun c => t (rankAt c g.axes)) pt.2.reverse (List.replicate g.axes.length 0)

/-- Owner of a block in a restarted data phase (R319). -/
def restartOwner (set : List Nat) (b : Nat) : Nat := if set.contains b then b else set.headD 0

/-- Element u of E in a restarted data phase (R319). -/
def restartSum (f : Fmt) (set : List Nat) (p e : Nat) (t : Nat → Run) (u : Nat) : Run :=
  let b := u / max 1 (blockElems e p)
  let j := set.findIdx (fun r => r == restartOwner set b)
  ringSum f set.length (b % 2 == 0) j (fun i => t (set.getD i 0))

/-- Rank that owns element u of a reduction under the bandwidth algorithm. -/
def ownerRank (g : Group) (set : List Nat) (e u : Nat) : Nat :=
  if set.length < g.p then restartOwner set (u / max 1 (blockElems e g.p))
  else rankAt ((unitPath g.axes e u).2.foldl (fun c x => c.set x.1 x.2.2.2) (List.replicate g.axes.length 0)) g.axes

/-! ### Contributions -/

/-- Accumulation format of a reduction. -/
def CoCmd.acc (x : CoCmd) : Fmt := if x.acc40 then .fa40 else .fp32

/-- Source element i of a reduction in the accumulation format: its code and whether the decoding saturates (R26, R309). -/
def srcCode (s : State) (a : Acc) (x : CoCmd) (d : Desc) (f : Fmt) (i : Nat) : Nat × Bool :=
  let o := roundTo x.acc .rne (d.value f (s.readByte a) (i / d.cols) (i % d.cols))
  (encodeFmt x.acc o.1, o.2)

/-- This member's own contribution, read at its start: its bytes and the elements that saturated. -/
def ownData (s : State) (f : Inflight) (g : Group) : List Byte × List Nat :=
  let x := (coClamp f.word).1
  let a := collAcc f
  match s.desc a x.descSrc with
  | none => ([], [])
  | some d =>
    match d.format with
    | none => ([], [])
    | some fm =>
      if isReduction x.op then
        let cs := (List.range d.elements).map (srcCode s a x d fm)
        ((cs.map (fun c => le (x.acc.width / 8) c.1)).flatten,
          (cs.zipIdx).filterMap (fun c => if c.1.2 then some c.2 else none))
      else if x.op = 0x52 ∨ (x.op = 0x53 ∧ x.root = g.rank) then
        (flatBytes s a d fm 0 (unitsOf fm d.elements * unitBytes fm), [])
      else if x.op = 0x55 then
        let n := unitsOf fm (d.elements / g.p) * unitBytes fm
        (flatBytes s a d fm (g.rank * n) n, [])
      else if x.op = 0x56 then
        let t := (sizeTable s a x.szBase (2 * g.p)).getD g.rank (0, 0)
        (flatBytes s a d fm t.1 t.2, [])
      else ([], [])

/-- The whole contribution of a rank, once its chunks have all arrived. -/
def assemble (l : List (Nat × Bool × List Byte)) : Option (List Byte) :=
  let o := sortBy (fun a b => decide (a.1 ≤ b.1)) l
  if (o.zipIdx).all (fun x => x.1.1 == x.2) && o.getLast?.any (fun x => x.2.1) then some (o.map (fun x => x.2.2)).flatten
  else none

/-- What a rank has contributed so far. -/
def Coll.from_ (c : Coll) (r : Nat) : List (Nat × Bool × List Byte) := tabGet [] c.arrived r
/-- A collective that has its whole set's data. -/
def Coll.ready (c : Coll) (set : List Nat) : Bool :=
  let op := opcodeOf c.word
  let need := if op = 0x53 then set.filter (fun r => r == (coFields c.word).root) else set
  need.all (fun r => (assemble (c.from_ r)).isSome)

/-! ### What a member sends (R304, R316, R317, R319) -/

/-- Value of element i of a contribution's bytes. -/
def contribValue (f : Fmt) (data : List Byte) (i : Nat) : FVal :=
  decodeFmt f (unle ((data.drop (i * (f.width / 8))).take (f.width / 8)))

/-- The carry that joins this reduction (R320): one of the same E and acc. -/
def carryFor (g : Group) (x : CoCmd) (e : Nat) : Option (List (BitVec 40)) :=
  match g.carry with
  | some (n, w, l) => if n = e ∧ w = x.acc40 then some l else none
  | none => none

/-- What rank r contributes to element u of a reduction, a carry of this member included. -/
def contribRun (g : Group) (x : CoCmd) (c : Coll) (e u r : Nat) : Run :=
  let fm := x.acc
  let v := contribValue fm ((assemble (c.from_ r)).getD []) u
  if r = g.rank then
    match carryFor g x e with
    | some l => Run.step fm { v := v, ovf := c.ownOvf.contains u } (decodeFmt fm ((l.getD u 0).toNat % 2 ^ fm.width))
    | none => { v := v, ovf := c.ownOvf.contains u }
  else { v := v, ovf := (tabGet [] c.ovfs r).contains u }

/-- Value of element u of a reduction over its set, in the accumulation format. -/
def reduceElem (s : State) (f : Inflight) (g : Group) (x : CoCmd) (c : Coll) (set : List Nat) (e u : Nat) : Run :=
  let fm := x.acc
  let t := contribRun g x c e u
  if usesLatency s (partOfQ f.q) x (collSize s (collAcc f) x g) then
    (treeSum fm set t (log2Ceil g.p) 0).getD { v := FVal.zero, ovf := false }
  else if set.length < g.p then restartSum fm set g.p e t u
  else bandwidthSum fm g e t u

/-- How the member that converts element u does so (R309): each member its own under the latency algorithm, the element's
owner under the bandwidth algorithm. -/
def convOf (s : State) (f : Inflight) (g : Group) (x : CoCmd) (c : Coll) (set : List Nat) (e u : Nat) : RndCtx :=
  let own : RndCtx := { sr := x.rnd == 1, seed := f.seed, step := f.step, tensor := x.tensor, origin := x.origin }
  let r := ownerRank g set e u
  if r = g.rank || usesLatency s (partOfQ f.q) x (collSize s (collAcc f) x g) then own
  else ((c.convs.find? (fun k => k.1 == r)).map (fun k => k.2)).getD own

/-- Element u of a reduction, converted at position k of a destination: its code, and whether it overflowed. -/
def convElem (s : State) (f : Inflight) (g : Group) (x : CoCmd) (c : Coll) (set : List Nat) (fd : Fmt) (e u k : Nat) :
    Nat × Bool :=
  let r := reduceElem s f g x c set e u
  let o := roundTo fd (if fd = .fp32 ∨ fd = .fa40 then .rne else (convOf s f g x c set e u).at_ k) r.v
  (encodeFmt fd o.1, r.ovf || o.2)

/-- One transfer of a member: its destination, the ranks whose contributions it needs, and its bytes. -/
structure Move where
  dst : Nat
  needs : List Nat
  data : List Byte

/-- Block j of n things cut into k by R317: its first index and its size. -/
def blockAt (n k j : Nat) : Nat × Nat := (j * (n / k) + min j (n % k), n / k + if j < n % k then 1 else 0)

/-- Coordinate i steps from c on an axis of extent e. -/
def stepOn (e : Nat) (plus : Bool) (c i : Nat) : Nat := if plus then (c + i) % e else (c + e * (i / e + 1) - i) % e

/-- A reduce-scatter's partial sums on one axis (R317): (destination coordinate, block, the coordinates summed, in order). -/
def scatterSteps (e : Nat) (line plus : Bool) (c : Nat) : List (Nat × Nat × List Nat) :=
  if line then
    ((List.range e).filter (fun j => j != c)).map (fun j =>
      if c < j then (c + 1, j, List.range (c + 1)) else (c - 1, j, (List.range (e - c)).map (fun i => e - 1 - i)))
  else
    (List.range (e - 1)).map (fun i =>
      let j := stepOn e (! plus) c (i + 1)
      (stepOn e plus c 1, j, (List.range (i + 1)).map (fun k => stepOn e plus j (k + 1))))

/-- An all-gather's blocks on one axis: (destination coordinate, block). -/
def gatherSteps (e : Nat) (line plus : Bool) (c : Nat) : List (Nat × Nat) :=
  if line then
    (List.range e).flatMap (fun j =>
      (if j ≤ c ∧ c + 1 < e then [(c + 1, j)] else []) ++ (if c ≤ j ∧ 1 ≤ c then [(c - 1, j)] else []))
  else (List.range (e - 1)).map (fun i => (stepOn e plus c 1, stepOn e (! plus) c i))

/-- Ranks whose coordinates a predicate takes, axis by axis. -/
def ranksWhere (g : Group) (ok : Nat → Nat → Bool) : List Nat :=
  (List.range g.p).filter (fun r => ((coordsOf r g.axes).zipIdx).all (fun c => ok c.2 c.1))

/-- Codes of sums in an accumulation format. -/
def sumBytes (f : Fmt) (l : List (Option Run)) : List Byte :=
  l.flatMap (fun r => le (f.width / 8) ((r.map (fun y => encodeFmt f y.v)).getD 0))

/-- Partial sums that a member sends in the reduce-scatter of one part (R317): over the axes left, after those in `done`, the
last first. -/
def scatterMoves (f : Fmt) (g : Group) (plus : Bool) (t : Nat → Nat → Run) :
    List (Nat × Nat × Bool) → List (Nat × Nat × Bool × Nat) → Nat → Nat → List Move
  | [], _, _, _ => []
  | x :: rest, done, lo, n =>
    let me := coordsOf g.rank g.axes
    let c := me.getD x.1 0
    (scatterSteps x.2.1 x.2.2 plus c).map (fun m =>
      let b := blockAt n x.2.1 m.2.1
      { dst := rankAt (me.set x.1 m.1) g.axes
        needs := ranksWhere g (fun a k => done.any (fun d => d.1 == a) || (if a = x.1 then m.2.2.contains k else k == me.getD a 0))
        data := sumBytes f ((List.range b.2).map (fun i =>
          sumList f (m.2.2.map (fun k => sumAxes f plus (fun co => t (lo + b.1 + i) (rankAt co g.axes)) done (me.set x.1 k))))) }) ++
    scatterMoves f g plus t rest ((x.1, x.2.1, x.2.2, c) :: done) (lo + (blockAt n x.2.1 c).1) (blockAt n x.2.1 c).2

/-- Converted bytes that a member sends in the all-gather of one part, the last axis first (R317). -/
def gatherMoves (g : Group) (plus : Bool) (all : List Nat) (bytes : Nat → Nat → List Byte) :
    List (Nat × Nat × Bool) → Nat → Nat → List Move
  | [], _, _ => []
  | x :: rest, lo, n =>
    let me := coordsOf g.rank g.axes
    let c := me.getD x.1 0
    gatherMoves g plus all bytes rest (lo + (blockAt n x.2.1 c).1) (blockAt n x.2.1 c).2 ++
    (gatherSteps x.2.1 x.2.2 plus c).map (fun m =>
      let b := blockAt n x.2.1 m.2
      { dst := rankAt (me.set x.1 m.1) g.axes, needs := all, data := bytes (lo + b.1) b.2 })

/-- Pieces of the members' sources that a member passes on in a byte all-gather (R317), over axes in the order given;
`have_` tells the axes gathered already. -/
def passMoves (g : Group) (plus : Bool) (from_ : List Nat) (piece : Nat → List Byte) :
    List (Nat × Nat × Bool) → List Nat → List Move
  | [], _ => []
  | x :: rest, have_ =>
    let me := coordsOf g.rank g.axes
    let l := (gatherSteps x.2.1 x.2.2 plus (me.getD x.1 0)).map (fun m =>
      let rs := (ranksWhere g (fun a k => have_.contains a || k == (if a = x.1 then m.2 else me.getD a 0))).filter (from_.contains ·)
      ({ dst := rankAt (me.set x.1 m.1) g.axes, needs := rs, data := rs.flatMap piece } : Move))
    l.filter (fun m => ! m.needs.isEmpty) ++ passMoves g plus from_ piece rest (x.1 :: have_)

/-- The parts of n units, one per stream of the group: (axis, + direction, first unit, units). -/
def streamParts (g : Group) (n : Nat) : List (Nat × Bool × Nat × Nat) :=
  let st := groupStreams g.axes
  (st.zipIdx).map (fun x => (x.1.1, x.1.2, blockAt n st.length x.2))

/-- What a member sends of a collective to the others of the set, in its order (R316, R317, R319). -/
def collMoves (s : State) (f : Inflight) (g : Group) (c : Coll) (set : List Nat) : List Move :=
  let x := (coClamp f.word).1
  let a := collAcc f
  let me := g.rank
  let fm := x.acc
  let suppliers (k : Nat) : List Nat := set.filter (fun r => r / 2 ^ k == me / 2 ^ k)
  let takers (k : Nat) : List Nat :=
    (set.filter (fun r => r / 2 ^ (k + 1) == me / 2 ^ (k + 1) && r / 2 ^ k != me / 2 ^ k)).filter (fun r =>
      (suppliers k).getD (r % max 1 (suppliers k).length) 0 == me)
  if x.op = 0x54 then
    (List.range (log2Ceil g.p)).flatMap (fun k => (takers k).map (fun r =>
      { dst := r, needs := suppliers k, data := le 8 (s.now - c.since) }))
  else
  match s.desc a x.descSrc, s.desc a x.descDst with
  | some src, some dst =>
    let e := src.elements
    let t := contribRun g x c e
    let fs := src.format.getD .fp32
    let fd := dst.format.getD .fp32
    let ring := set.length
    let pos := set.findIdx (fun r => r == me)
    if usesLatency s (partOfQ f.q) x (collSize s a x g) then
      (List.range (log2Ceil g.p)).flatMap (fun k => (takers k).map (fun r =>
        { dst := r, needs := suppliers k
          data := sumBytes fm ((List.range e).map (fun u => treeSum fm set (t u) k (me / 2 ^ k * 2 ^ k))) }))
    else if isReduction x.op then
      let bytes (lo n : Nat) : List Byte := (List.range n).flatMap (fun i =>
        le (fd.width / 8) (convElem s f g x c set fd e (lo + i) (if x.op = 0x51 then (lo + i) % max 1 (blockElems e g.p) else lo + i)).1)
      if ring < g.p then
        (List.range g.p).flatMap (fun b =>
          let plus := b % 2 == 0
          let j := set.findIdx (fun r => r == restartOwner set b)
          let i := if plus then (pos + ring - j) % ring else (j + ring - pos) % ring
          let next := set.getD (stepOn ring plus pos 1) 0
          let lo := min (b * blockElems e g.p) e
          let n := min ((b + 1) * blockElems e g.p) e - lo
          let terms := (List.range i).map (fun k => set.getD (stepOn ring plus j (k + 1)) 0)
          (if i = 0 then [] else
            [{ dst := next, needs := terms
               data := sumBytes fm ((List.range n).map (fun u => sumList fm (terms.map (t (lo + u))))) }]) ++
          (if x.op = 0x50 ∧ stepOn ring plus pos 1 ≠ j then [{ dst := next, needs := set, data := bytes lo n }] else []))
      else
        (streamParts g e).flatMap (fun q => scatterMoves fm g q.2.1 t (streamAxes g.axes q.1) [] q.2.2.1 q.2.2.2) ++
        (if x.op = 0x50 then
          (streamParts g e).flatMap (fun q => gatherMoves g q.2.1 set bytes (streamAxes g.axes q.1) q.2.2.1 q.2.2.2)
        else
          ((List.range g.p).map (fun r =>
            { dst := r, needs := set
              data := ((List.range e).filter (fun u => u / max 1 (blockElems e g.p) == r && ownerRank g set e u == me)).flatMap
                (fun u => bytes u 1) })).filter (fun (m : Move) => ! m.data.isEmpty))
    else if x.op = 0x55 then
      let n := unitsOf fs (e / g.p) * unitBytes fs
      set.map (fun r => { dst := r, needs := [], data := flatBytes s a src fs (r * n) n })
    else if x.op = 0x56 then
      set.map (fun r => { dst := r, needs := [], data := flatBytes s a src fs (c.sizes.getD r (0, 0)).1 (c.sizes.getD r (0, 0)).2 })
    else
      let from_ := if x.op = 0x53 then [x.root] else set
      let whole (r : Nat) : List Byte := (assemble (c.from_ r)).getD []
      if ring < g.p then
        ((List.range (ring - 1)).map (fun i =>
          let r := set.getD (stepOn ring false pos i) 0
          ({ dst := set.getD (stepOn ring true pos 1) 0, needs := [r], data := whole r } : Move))).filter (fun m =>
            m.needs.all (from_.contains ·))
      else
        (streamParts g (unitsOf fs e)).flatMap (fun q =>
          passMoves g q.2.1 from_ (fun r => ((whole r).drop (q.2.2.1 * unitBytes fs)).take (q.2.2.2 * unitBytes fs))
            (streamAxes g.axes q.1).reverse [])
  | _, _ => []

/-- Ranks that a member sends streams to. -/
def collDests (s : State) (f : Inflight) (g : Group) (c : Coll) (set : List Nat) : List Nat :=
  (((collMoves s f g c set).map (fun m => m.dst)).filter (fun r => r != g.rank && set.contains r)).eraseDups

/-- Replaces a collective at the engine. -/
def setColl (c : Coll) (s : State) : State :=
  modCol (fun k => { k with colls := k.colls.map (fun x => if x.q = c.q ∧ x.pos = c.pos then c else x) }) s
/-- A collective at the engine. -/
def State.coll (s : State) (q : Nat) (pos : BitVec 32) : Option Coll :=
  s.col.colls.find? (fun c => c.q == q && c.pos == pos)
/-- Removes a collective from the engine. -/
def dropColl (q : Nat) (pos : BitVec 32) (s : State) : State :=
  modCol (fun k => { k with colls := k.colls.filter (fun c => ! (c.q == q && c.pos == pos)) }) s

/-! ### Streams of a collective (R303, R304, R314) -/

/-- Opens the streams of a collective: the new state and the ranks that no route reaches, each recorded as 0x0709. -/
def openAll (p : Nat) (g : Group) (seq : Nat) (dests : List Nat) (s : State) : State × List Nat :=
  match s.node with
  | none => (s, [])
  | some me =>
    dests.foldl (fun acc r =>
      let m := g.members.getD r 0
      match acc.1.dataRoute p me (m % 2 ^ 22) with
      | none => (eventUnreachable p g.id (m % 2 ^ 22) acc.1, acc.2 ++ [r])
      | some ([], _) => acc
      | some (e :: rest, detour) =>
        let ctl : StreamCtl :=
          { tag := 0, rev := 0, src := endpoint p me, dst := BitVec.ofNat 25 m, group := BitVec.ofNat 12 g.id,
            seq := BitVec.ofNat 32 seq, chunk := 0, fp := g.fp, route := packRoute (e :: rest), hop := 0 }
        (openStream { ctl := ctl, inPort := none, outPort := some e, outTag := 0, acked := [], waiting := false, rank := r,
                      detour := detour } acc.1, acc.2)) (s, [])

/-- This module's own streams of a collective. -/
def ownStream (s : State) (p g seq : Nat) (x : Stream) : Bool :=
  x.inPort.isNone && partOfEnd x.ctl.src == p && x.ctl.group.toNat == g && x.ctl.seq.toNat == seq &&
  (match s.node with
    | some n => nodeOf x.ctl.src == n
    | none => true)

/-- Closes a stream at its source (R303): a CLOSE flit, and its tags are free. -/
def closeStream (x : Stream) (s : State) : State :=
  let s := modCol (fun c => { c with streams := c.streams.filter (fun y => y != x) }) s
  match x.outPort with
  | some e => if x.waiting then s else sendFlit e (ctlFlit .control 2 x.outTag { x.ctl with tag := x.outTag, hop := 1 }) s
  | none => s
/-- Closes the streams of a collective. -/
def closeStreams (p g seq : Nat) (s : State) : State :=
  (s.col.streams.filter (ownStream s p g seq)).foldl (fun s x => closeStream x s) s

/-- Data of a transfer in chunks of 64,000 bytes (R304). -/
def streamChunks (l : List Byte) : List (List Byte) :=
  (List.range (ceilDiv l.length 64000)).map (fun i => (l.drop (64000 * i)).take 64000)

/-- Chunks that a sender may have under way on one stream: the receiver's staging region divided equally among the group's
streams, which the sender takes to be as its own (R314; notes/assumptions/82.md). -/
def streamCredits (g : Group) (streams : Nat) : Nat := max 1 (g.stagingBytes / 64000 / max 1 streams)

/-- Sends what a stream may send of its chunks, each kept until it is acknowledged. -/
def pumpStream (credits : Nat) (chunks : List (List Byte)) (x : Stream) (s : State) : State :=
  let l := (chunks.drop x.next).take (credits - x.held.length)
  if x.waiting || l.isEmpty then s
  else
    let y := { x with next := x.next + l.length, held := x.held ++ (l.zipIdx).map (fun k => (x.next + k.2, k.1)) }
    sendChunks x l (modCol (fun c => { c with streams := c.streams.map (fun z => if z = x then y else z) }) s)

/-- Chunks of a collective that a member can send to a rank: those whose contributions it has. -/
def readyChunks (g : Group) (c : Coll) (moves : List Move) (r : Nat) : List (List Byte) :=
  ((moves.filter (fun m => m.dst == r)).takeWhile (fun m =>
    m.needs.all (fun k => k == g.rank || (assemble (c.from_ k)).isSome))).flatMap (fun m => streamChunks m.data)

/-- Sends what the streams of a collective may send; a frozen one sends nothing (R330). A feed sends its own bytes (R320). -/
def pumpStreams (p g seq : Nat) (s : State) : State :=
  match s.group p g with
  | none => s
  | some x =>
    let mine := s.col.streams.filter (ownStream s p g seq)
    let credits := streamCredits x mine.length
    let moves : Option (Coll × List Move) :=
      ((s.collOf p g seq).filter (fun c => c.running && ! c.frozen)).bind (fun c =>
        (s.inflight c.q c.pos).map (fun f => (c, collMoves s f x c (c.set.getD (List.range x.p)))))
    mine.foldl (fun s st =>
      match st.feed, moves with
      | some b, _ => pumpStream credits (streamChunks b) st s
      | none, some m => pumpStream credits (readyChunks x m.1 m.2 st.rank) st s
      | none, none => s) s

/-- Records event 0x0401 of a collective's command, once (R210). -/
def tellUnmapped (q : Nat) (pos : BitVec 32) (a : Acc) (d : Option Nat) (s : State) : State :=
  match s.coll q pos with
  | some c => if c.told || d.isNone then s else setColl { c with told := true } (eventUnmapped a d s)
  | none => eventUnmapped a d s

/-- Records event 0x0701 and completes the command (R310). -/
def coReject (f : Inflight) (x : CoCmd) (reason : Nat) (s : State) : State :=
  let p := partOfQ f.q
  let s := eventP 0x0701 2 p (le 1 reason ++ le 1 p ++ le 2 f.q ++ le 4 f.pos.toNat) s
  let s := if reason = 2 ∨ reason = 3 then s else passSeq p x.group x.seq s
  markDone f.q f.pos (dropColl f.q f.pos s)

/-! ### Chunks (R304, R322, R330) -/

/-- Sends the ACK of a chunk on the way back of the stream that brought it. -/
def sendAck (p g seq rank index : Nat) (s : State) : State :=
  match s.group p g, s.node with
  | some x, some me =>
    match s.col.streams.find? (fun t => t.ctl.src.toNat == x.members.getD rank 0 && t.ctl.group.toNat == g &&
        t.ctl.seq.toNat == seq && t.inPort.isSome && t.outPort.isNone && nodeOf t.ctl.dst == me) with
    | some t => answerStream 1 t index s
    | none => s
  | _, _ => s

/-- Applies a chunk to a running collective, each index at most once, and acknowledges it. -/
def applyChunk (c : Chunk) (s : State) : State :=
  let p := c.p.val
  let g := c.group.toNat
  let q := c.seq.toNat
  match s.collOf p g q with
  | none => s
  | some k =>
    let l := k.from_ c.rank
    let s := if l.any (fun x => x.1 == c.index) || c.rank == ((s.group p g).map (fun x => x.rank)).getD 0 then s
      else setColl { k with
        arrived := tabPut [] k.arrived c.rank (l ++ [(c.index, c.last, c.data)])
        convs := match c.conv with
          | some r => (k.convs.filter (fun y => y.1 != c.rank)) ++ [(c.rank, r)]
          | none => k.convs
        ovfs := tabMod [] k.ovfs c.rank (fun l => l ++ c.ovf) } s
    sendAck p g q c.rank c.index s

/-- A residue mismatch of an adder lane (R322): the chunk is recomputed; the third within 1 s retires the lane, which is out of
use from then on. -/
def laneMismatch (die lane : Nat) (s : State) : State :=
  if (tabGet [] s.mxa.hw.lanesRetired die).contains lane then s
  else
  let keep := (s.col.laneErrors ++ [(die, lane, s.now)]).filter (fun e => decide (s.now < e.2.2 + 1000000000))
  let s := modCol (fun c => { c with mismatches := satAdd 16 c.mismatches 1, laneErrors := keep }) s
  let s := eventD 0x0707 1 (le 1 die ++ le 1 lane) s
  if 3 ≤ (keep.filter (fun e => e.1 == die && e.2.1 == lane)).length then
    let s := modCol (fun c => { c with laneErrors := c.laneErrors.filter (fun e => ! (e.1 == die && e.2.1 == lane)) }) s
    let s := modHw (fun h => { h with lanesRetired := tabMod [] h.lanesRetired die (fun l => l ++ [lane]) }) s
    eventD 0x0708 1 (le 1 die ++ le 1 lane ++ le 2 (8 - (tabGet [] s.mxa.hw.lanesRetired die).length)) s
  else s

/-- CHUNK_RECEIVE: kept in staging before the collective starts and while a round freezes it. -/
def execChunkReceive (c : Chunk) (s : State) : Host.Outcome State Fault Refusal :=
  .next (
    match s.boundGroup c.p.val c.group.toNat with
    | none => s
    | some g =>
      let s := c.lanes.foldl (fun s l => laneMismatch l.1.val l.2.toNat s) s
      match s.collOf c.p.val c.group.toNat c.seq.toNat with
      | some k =>
        if ! k.running then modCol (fun x => { x with early := x.early ++ [c] }) s
        else if k.frozen then setColl { k with staged := k.staged ++ [c] } s
        else pumpStreams c.p.val c.group.toNat c.seq.toNat (applyChunk c s)
      | none =>
        if c.seq.toNat < g.nextSeq ∨ g.done.contains c.seq.toNat then
          sendAck c.p.val c.group.toNat c.seq.toNat c.rank c.index s
        else modCol (fun x => { x with early := x.early ++ [c] }) s)

/-! ### Decisions on a collective (R319, R320, R331, R332) -/

/-- What a decision makes of a running collective: its set, its feeder, and whether its result comes by feed. Members of
the set restart from their own contribution. -/
def decideColl (g : Group) (d : GroupProposal) (c : Coll) : Coll :=
  let op := opcodeOf c.word
  if d.outcome = 0 then c
  else
    let out := ! d.set.contains g.rank
    let feed := (decide (op ≤ 0x53) && (out || d.outcome == 1)) || (d.outcome == 1 && (op == 0x55 || op == 0x56))
    { c with
      set := some d.set
      feeder := d.feeder
      excluded := out
      needFeed := feed || (op == 0x54 && d.outcome == 1)
      fed := op == 0x54 && d.outcome == 1
      arrived := if d.outcome = 2 then c.arrived.filter (fun a => a.1 == g.rank) else c.arrived }

/-- A member of the set reopens its streams for the restarted data phase. -/
def reopenColl (p : Nat) (g : Group) (c : Coll) (s : State) : State :=
  match s.inflight c.q c.pos with
  | none => s
  | some f => pumpStreams p g.id c.seq (openAll p g c.seq (collDests s f g c (c.set.getD [])) (closeStreams p g.id c.seq s)).1

/-- A member that awaits a feed asks its feeder for it (R320). -/
def askFeed (c : Coll) (s : State) : State :=
  if c.needFeed && ! c.fed then
    modCol (fun k => { k with requests := (groupKey c.part c.group, c.seq, c.feeder.getD 0xFFFF) :: k.requests }) s
  else s

/-- The ranks that a decision removes; a member that learns of its own removal records event 0x0803 (R332;
notes/assumptions/36.md). -/
def removeRanks (p g seq : Nat) (removed : List Nat) (s : State) : State :=
  if removed.isEmpty then s
  else
    let low := (sortBy (fun a b => decide (a ≤ b)) removed).take 16
    let s := modGroup p g (fun x => { x with removed := unionOf [x.removed, removed] }) s
    if ! (s.group p g).any (fun x => removed.contains x.rank) then s
    else eventP 0x0803 2 p (le 1 p ++ le 2 g ++ le 4 seq ++ le 2 removed.length ++
      ((low.map (fun r => le 2 r)).flatten ++ List.replicate 32 0xFF#8).take 32) s

/-- Commands of a group that wait for next_seq are rejected once the group is not bound (R313). -/
def rejectWaiting (p g : Nat) (s : State) : State :=
  if (s.boundGroup p g).isSome then s
  else
    (s.col.colls.filter (fun c => c.part == p && c.group == g && ! c.running)).foldl (fun s c =>
      match s.inflight c.q c.pos with
      | some f => coReject f (coFields f.word) 2 s
      | none => s) s

/-- Applies the decision of a group item (R330–R332). -/
def applyGroup (i : CinchItem) (round : Nat) (b : CinchBody) (s : State) : State :=
  match i, b with
  | .group pp gg qq, .proposalGroup d =>
    let p := pp.val
    let g := gg.toNat
    let q := qq.toNat
    if ((s.roundOf i).bind (fun r => r.decided)).isSome then s
    else
      match s.group p g with
      | none => s
      | some x =>
        let s := noteDecided i round b s
        let s := match s.collOf p g q with
          | some c =>
            if c.running then
              let c1 := decideColl x d { c with frozen := false }
              let s := askFeed c1 (setColl { c1 with staged := [] } s)
              if d.outcome = 2 then (if c1.excluded then closeStreams p g q s else reopenColl p x c1 s)
              else pumpStreams p g q (c.staged.foldl (fun s k => applyChunk k s) s)
            else modCol (fun k => { k with decided := k.decided ++ [{ part := p, group := g, seq := q, prop := d }] }) s
          | none =>
            if x.hist.any (fun h => h.1 == q) then s
            else modCol (fun k => { k with decided := k.decided ++ [{ part := p, group := g, seq := q, prop := d }] }) s
        rejectWaiting p g (removeRanks p g q d.removed s)
  | _, _ => s

/-- Calls a round of a group item. -/
def callGroup (p g q : Nat) (cause : Byte) (subject : Nat) (s : State) : State :=
  callRound applyGroup (.group ⟨p % 8, Nat.mod_lt _ (by decide)⟩ (BitVec.ofNat 12 g) (BitVec.ofNat 32 q)) cause subject s

/-! ### Starting (R313, R318) -/

/-- A collective starts: its own contribution is read, a decision taken before applies, chunks that came early apply,
and its streams open. A destination without a route calls a round (R326). -/
def startColl (c : Coll) (s : State) : State :=
  match s.inflight c.q c.pos, s.group c.part c.group with
  | some f, some g =>
    let x := (coClamp f.word).1
    let a := collAcc f
    let p := c.part
    let i : CinchItem := .group ⟨p % 8, Nat.mod_lt _ (by decide)⟩ (BitVec.ofNat 12 c.group) (BitVec.ofNat 32 c.seq)
    let spans := coReads f s
    let own := ownData s f g
    let s1 := spans.foldl (fun s r => touchRead a false r.1 r.2 s) s
    let open_ := (s1.roundOf i).any (fun r => r.decided.isNone)
    let c1 : Coll := { c with
      running := true
      since := s.now
      arrived := if x.op = 0x54 then [] else [(g.rank, [(0, true, own.1)])]
      ownOvf := own.2
      sizes := if x.op = 0x56 then sizeTable s a x.szBase (2 * g.p) else []
      frozen := open_
      set := if g.removed.isEmpty then none else some ((List.range g.p).filter (fun r => ! g.removed.contains r)) }
    let c2 := match s1.col.decided.find? (fun d => d.part == p && d.group == c.group && d.seq == c.seq) with
      | some d => decideColl g d.prop c1
      | none => c1
    let mine := s1.col.early.filter (fun k => k.p.val == p && k.group.toNat == c.group && k.seq.toNat == c.seq)
    let s2 := modCol (fun k => { k with
      early := k.early.filter (fun e => ! (e.p.val == p && e.group.toNat == c.group && e.seq.toNat == c.seq))
      decided := k.decided.filter (fun d => ! (d.part == p && d.group == c.group && d.seq == c.seq)) }) s1
    let s2 := tellUnmapped c.q c.pos a (s.firstUnmapped p spans) s2
    let c2 := { c2 with told := ((s2.coll c.q c.pos).map (fun k => k.told)).getD c2.told }
    let s3 := if open_ then setColl { c2 with staged := mine } s2
      else mine.foldl (fun s k => applyChunk k s) (askFeed c2 (setColl c2 s2))
    if c2.excluded then s3
    else
      let o := openAll p g c.seq (collDests s3 f g c2 (c2.set.getD (List.range g.p))) s3
      match o.2 with
      | [] => pumpStreams p c.group c.seq o.1
      | r :: _ => callGroup p c.group c.seq 2 r o.1
  | _, _ => s

/-- Descriptor entries that a collective command reads. -/
def coDescs (f : Inflight) (s : State) : List (Nat × Nat) :=
  let x := (coClamp f.word).1
  descSpans s (partOfQ f.q) (if x.op = 0x54 ∨ 0x57 ≤ x.op then [] else [x.descSrc, x.descDst])

/-- A collective command's turn: clamps, checks, and its place at the engine. -/
def coBegin (f : Inflight) (s : State) : State :=
  let p := partOfQ f.q
  let r := coClamp f.word
  let s := if 0x58 ≤ r.1.op then s else clampPart p r.2 s
  let reason := coReason s f r.1
  let ds := coDescs f s
  let s := if reason = 0 then eventUnmapped (coreAcc f) (s.firstUnmapped p ds)
      (ds.foldl (fun s r => touchRead (coreAcc f) false r.1 r.2 s) s) else s
  if reason ≠ 0 then coReject f r.1 reason s
  else
    let c : Coll :=
      { q := f.q, pos := f.pos, part := p, group := r.1.group, seq := r.1.seq, word := f.word, running := false,
        since := s.now, arrived := [], staged := [], set := none, feeder := none, needFeed := false,
        fed := false, excluded := false, frozen := false, ownOvf := [], told := (s.firstUnmapped p ds).isSome }
    let s := modCol (fun k => { k with colls := k.colls ++ [c] }) s
    if (s.group p r.1.group).any (fun g => g.nextSeq == r.1.seq) then startColl c s else s

/-- A collective command starts when it reaches the engine, not waiting for next_seq (R313). -/
def startsNow (f : Inflight) (s : State) : Bool :=
  (s.boundGroup (partOfQ f.q) (coFields f.word).group).any (fun g => g.nextSeq == (coFields f.word).seq)
/-- Ranges that a collective command reads at the engine: none while it only waits there for next_seq (R124, R313). -/
def coGateReads (f : Inflight) (s : State) : List (Nat × Nat) := if startsNow f s then coReads f s else []
/-- Accesses of a collective command's start. -/
def coAccesses (f : Inflight) (s : State) : List Access :=
  readsOf (coreAcc f) (coDescs f s) ++ readsOf (collAcc f) (coGateReads f s)

/-- A late collective is discarded (R127); next_seq passes it, as it passes a rejected one (notes/assumptions/85.md). -/
def coDiscard (f : Inflight) (s : State) : State :=
  let x := coFields f.word
  discardCmd f (passSeq (partOfQ f.q) x.group x.seq (dropColl f.q f.pos s))

/-- A collective row; the engine holds every command while the module has no node address (R296). -/
def coRow (kind : Nat → Bool) (q : Nat) (pos : BitVec 32) (errs : List ReadError) (s : State) : State :=
  if s.node.isNone then s
  else
    match s.gate (fun w => kind (opcodeOf w)) q pos coGateReads with
    | .hold => s
    | .discard f => coDiscard f s
    | .go f => whenReached (coAccesses f s) (fun s => meetErrors (collAcc f) errs (coBegin f) (startCmd f s)) s

/-- CO_ARED; with it the rejected opcodes of the class (R308). -/
def execCoAred (q : QIdx) (pos : BitVec 32) (s : State) (errs : List ReadError := []) : Host.Outcome State Fault Refusal :=
  .next (coRow (fun op => op == 0x50 || (0x58 ≤ op && op ≤ 0x5F)) q pos errs s)
/-- CO_RSCAT. -/
def execCoRscat (q : QIdx) (pos : BitVec 32) (s : State) (errs : List ReadError := []) : Host.Outcome State Fault Refusal :=
  .next (coRow (fun op => op == 0x51) q pos errs s)
/-- CO_AGATH. -/
def execCoAgath (q : QIdx) (pos : BitVec 32) (s : State) (errs : List ReadError := []) : Host.Outcome State Fault Refusal :=
  .next (coRow (fun op => op == 0x52) q pos errs s)
/-- CO_BCAST. -/
def execCoBcast (q : QIdx) (pos : BitVec 32) (s : State) (errs : List ReadError := []) : Host.Outcome State Fault Refusal :=
  .next (coRow (fun op => op == 0x53) q pos errs s)
/-- CO_BARR. -/
def execCoBarr (q : QIdx) (pos : BitVec 32) (s : State) : Host.Outcome State Fault Refusal :=
  .next (coRow (fun op => op == 0x54) q pos [] s)
/-- CO_A2A. -/
def execCoA2a (q : QIdx) (pos : BitVec 32) (s : State) (errs : List ReadError := []) : Host.Outcome State Fault Refusal :=
  .next (coRow (fun op => op == 0x55) q pos errs s)
/-- CO_A2AV. -/
def execCoA2av (q : QIdx) (pos : BitVec 32) (s : State) (errs : List ReadError := []) : Host.Outcome State Fault Refusal :=
  .next (coRow (fun op => op == 0x56) q pos errs s)

/-- COLLECTIVE_SEQ_START: a command whose turn among its group's sequence numbers has come starts, unless an open fence holds
it or it is late (R124, R127, R313). -/
def execCollectiveSeqStart (q : QIdx) (pos : BitVec 32) (s : State) (errs : List ReadError := []) :
    Host.Outcome State Fault Refusal :=
  .next (
    match s.coll q pos, s.inflight q pos with
    | some c, some f =>
      if c.running || s.node.isNone then s
      else
        match s.boundGroup c.part c.group with
        | none => coReject f (coFields f.word) 2 s
        | some g =>
          if c.seq < g.nextSeq then coReject f (coFields f.word) 3 s
          else if c.seq ≠ g.nextSeq then s
          else if s.fenceOpen c.part && (coReads f s).any (fun r => s.touchesParam c.part r.1 r.2) then s
          else if s.isLate f (coReads f s) then coDiscard f s
          else whenReached (readsOf (collAcc f) (coReads f s)) (fun s => meetErrors (collAcc f) errs (startColl c) s) s
    | _, _ => s)

/-! ### co.gbind (R311, R312) -/

/-- Port check of an axis (R311). -/
def badAxis (r : PartRec) (a : Nat × Nat × Bool) : Bool :=
  decide (1 < a.1) &&
  (if 1 ≤ a.2.1 ∧ a.2.1 ≤ 3 then
    r.role (2 * (a.2.1 - 1)) == 0 || r.role (2 * (a.2.1 - 1) + 1) == 0 || (! a.2.2 && ! r.owns (a.2.1 - 1))
  else if a.2.1 = 4 then (r.globalPort 7).isNone && (r.globalPort 8).isNone
  else true)

/-- A group descriptor of 64 bytes, with its member table, as it would be bound; `n` is the descriptor as a number. -/
def groupOf (s : State) (a : Acc) (n : Nat) : Group :=
  let p := n / 2 ^ 240 % 65536
  let members := s.readBytes a (n / 2 ^ 272 % 2 ^ 52) (4 * p)
  { part := a.part
    id := n % 4096
    p := p
    rank := n / 2 ^ 256 % 65536
    axes := (List.range 4).map (fun k =>
      let v := n / 2 ^ (64 + 24 * k) % 2 ^ 24
      (v % 65536, v / 2 ^ 16 % 16, v / 2 ^ 20 % 2 == 1))
    csetBase := n / 2 ^ 460 % 2 ^ 52
    carryBase := n / 2 ^ 408 % 2 ^ 52
    stagingBase := n / 2 ^ 356 % 2 ^ 52
    stagingBytes := n / 2 ^ 324 % 2 ^ 32
    members := (List.range p).map (fun r => unle ((members.drop (4 * r)).take 4) % 2 ^ 25)
    fp := crc32c (le 2 p ++ le 12 (n / 2 ^ 64) ++ members)
    nextSeq := n / 2 ^ 192 % 2 ^ 32
    done := []
    removed := []
    carry := none
    hist := [] }

/-- Why a group descriptor is not bound, 0 when it is (R311). -/
def groupReason (s : State) (bound : List Nat) (g : Group) : Nat :=
  if bound.contains g.id then 1
  else if g.p = 0 ∨ 16384 < g.p ∨ g.p ≤ g.rank then 2
  else if (g.axes.map (fun a => max 1 a.1)).foldl (· * ·) 1 ≠ g.p then 3
  else if g.axes.any (badAxis (s.part g.part)) then 4
  else if g.stagingBytes < 1024000 then 5
  else 0

/-- Event 0x0702 of a group table's entry. -/
def groupRefusedReq (p i g k : Nat) : EvReq where
  code := 0x0702
  sev := 2
  part := some p
  parts := [p]
  data := le 1 p ++ le 2 i ++ le 2 g ++ le 1 k

/-- Ranges that a co.gbind reads: its group table, and the member table of each entry. -/
def gbindSpans (f : Inflight) (s : State) : List (Nat × Nat) :=
  let x := coFields f.word
  (x.tableBase, 64 * x.count) :: (List.range x.count).map (fun i =>
    let n := unle (s.readBytes (coreAcc f) (x.tableBase + 64 * i) 64)
    (n / 2 ^ 272 % 2 ^ 52, 4 * (n / 2 ^ 240 % 65536)))

/-- Binds a group table. -/
def doGbind (f : Inflight) (s : State) : State :=
  let p := partOfQ f.q
  let a := coreAcc f
  let x := coFields f.word
  let carries := (s.col.groups.filter (fun g => g.2.part == p && g.2.carry.isSome)).length
  let s1 := modCol (fun c => { c with
    groups := c.groups.filter (fun g => g.2.part != p)
    early := c.early.filter (fun k => k.p.val != p)
    decided := c.decided.filter (fun d => d.part != p)
    lasts := c.lasts.filter (fun l => l.2.1.part != p)
    cnt := tabMod {} c.cnt p (fun k => { k with dropped := satAdd 12 k.dropped carries }) }) s
  let s1 := modFap (fun a => { a with rounds := a.rounds.filter (fun r =>
    match r.item with
    | .group i _ _ => i.val != p
    | .rack => true) }) s1
  let spans := gbindSpans f s
  let s2 := spans.foldl (fun s r => touchRead a false r.1 r.2 s) s1
  let r := (List.range x.count).foldl (fun (acc : State × List Nat × List EvReq) i =>
    let g := groupOf s a (unle (s.readBytes a (x.tableBase + 64 * i) 64))
    match groupReason s acc.2.1 g with
    | 0 => (modCol (fun c => { c with groups := tabInsert (groupKey p g.id) g c.groups }) acc.1, acc.2.1 ++ [g.id], acc.2.2)
    | k => (acc.1, acc.2.1, acc.2.2 ++ [groupRefusedReq p i g.id k])) (s2, [], [])
  eventBatch (unmappedReqs a (s.firstUnmapped p spans) ++ r.2.2) r.1

/-- CO_GBIND: first waits until every collective of the partition has completed. -/
def execCoGbind (q : QIdx) (pos : BitVec 32) (s : State) (errs : List ReadError := []) : Host.Outcome State Fault Refusal :=
  .next (
    if s.node.isNone || s.col.colls.any (fun c => c.part == partOfQ q) then s
    else runNowAt (isOp 0x57) q pos (fun f _ => [((coFields f.word).tableBase, 64 * (coFields f.word).count)])
      (fun f s => readsOf (coreAcc f) (gbindSpans f s)) (fun f s => meetErrors (coreAcc f) errs (doGbind f) s) s)

/-! ### Completion (R309, R319–R321, R336) -/

/-- Flag bytes of the output tiles that hold written elements (R54, R309). -/
def collFlags (d : Desc) (n : Nat) (ovf : List Nat) : List (Nat × List Byte) :=
  if d.flagBase = 0 ∨ d.cols = 0 then []
  else
    let tj := ceilDiv d.cols 256
    (((List.range (ceilDiv d.rows 256)).map (fun i => (List.range tj).map (fun j => (i, j)))).flatten.filter
      (fun t => decide (256 * t.1 * d.cols + 256 * t.2 < n))).map (fun t =>
        (d.flagBase + t.1 * tj + t.2,
          [flagByte (ovf.any (fun k => k / d.cols / 256 == t.1 && k % d.cols / 256 == t.2)) false]))

/-- Writes of a reduction: elements [lo, hi) of the sum into the destination (R309). -/
def reduceWrites (s : State) (f : Inflight) (g : Group) (x : CoCmd) (c : Coll) (set : List Nat) (d : Desc) (fd : Fmt)
    (e lo hi : Nat) : List (Nat × List Byte) :=
  let out : List (Nat × Bool) := (List.range (hi - lo)).map (fun k => convElem s f g x c set fd e (lo + k) k)
  flatWrites d fd 0 ((out.map (fun o => le (fd.width / 8) o.1)).flatten) ++
  collFlags d (hi - lo) ((out.zipIdx).filterMap (fun o => if o.1.2 then some o.2 else none))

/-- Writes of a collective that has its data. -/
def collWrites (s : State) (f : Inflight) (g : Group) (c : Coll) (set : List Nat) : List (Nat × List Byte) :=
  let x := (coClamp f.word).1
  let a := collAcc f
  match s.desc a x.descSrc, s.desc a x.descDst with
  | some src, some d =>
    match d.format with
    | none => []
    | some fd =>
      let e := src.elements
      let data (r : Nat) : List Byte := (assemble (c.from_ r)).getD []
      let block (n r : Nat) : List (Nat × List Byte) :=
        flatWrites d fd (r * n) (if set.contains r then (data r ++ List.replicate n 0#8).take n else List.replicate n 0#8)
      if x.op = 0x50 then reduceWrites s f g x c set d fd e 0 e
      else if x.op = 0x51 then
        let b := blockElems e g.p
        reduceWrites s f g x c set d fd e (min (g.rank * b) e) (min ((g.rank + 1) * b) e)
      else if x.op = 0x52 then
        ((List.range g.p).map (block (unitsOf fd e * unitBytes fd))).flatten
      else if x.op = 0x53 then
        (if set.contains x.root then flatWrites d fd 0 ((data x.root).take (unitsOf fd e * unitBytes fd)) else [])
      else if x.op = 0x55 then
        ((List.range g.p).map (block (unitsOf fd (e / g.p) * unitBytes fd))).flatten
      else if x.op = 0x56 then
        (((c.sizes.drop g.p).zipIdx).map (fun t =>
          flatWrites d fd t.1.1 (if set.contains t.2 then (data t.2).take t.1.2 else List.replicate t.1.2 0#8))).flatten
      else []
  | _, _ => []

/-- Event 0x0705 for each received piece of another length than its entry (R308). -/
def lengthEvents (f : Inflight) (g : Group) (c : Coll) (set : List Nat) (s : State) : State :=
  let x := (coClamp f.word).1
  if x.op ≠ 0x56 then s
  else
    ((c.sizes.drop g.p).zipIdx).foldl (fun s t =>
      let n := ((assemble (c.from_ t.2)).getD []).length
      if set.contains t.2 && n != t.1.2 then
        eventP 0x0705 2 g.part (le 1 g.part ++ le 2 g.id ++ le 4 c.seq ++ le 2 t.2 ++ le 4 n ++ le 4 t.1.2) s
      else s) s

/-- Updates COL_CNT_Pn. -/
def modColCnt (p : Nat) (f : ColCnt → ColCnt) (s : State) : State :=
  modCol (fun c => { c with cnt := tabMod {} c.cnt p f }) s

/-- A carry empties, its contribution having been taken or dropped. -/
def emptyCarry (p g : Nat) (s : State) : State := modGroup p g (fun x => { x with carry := none }) s

/-- The carry after a reduction in whose set this member stands (R320): taken, or dropped when it does not fit. -/
def spendCarry (f : Inflight) (g : Group) (e : Nat) (s : State) : State :=
  let x := (coClamp f.word).1
  if g.carry.isNone || ! isReduction x.op then s
  else if (carryFor g x e).isSome then emptyCarry g.part g.id s
  else emptyCarry g.part g.id (modColCnt g.part (fun k => { k with dropped := satAdd 12 k.dropped 1 }) s)

/-- Carry or drop of an excluded member (R320). The buffer's layout is not given: its bytes in memory are free values
(notes/assumptions/32.md). -/
def carryOrDrop (f : Inflight) (g : Group) (c : Coll) (e : Nat) (s : State) : State :=
  let x := (coClamp f.word).1
  let p := g.part
  if isReduction x.op && x.late == 1 && g.carryBase != 0 then
    let fm := x.acc
    let src := (assemble (c.from_ g.rank)).getD []
    let old := carryFor g x e
    let sum := (List.range e).map (fun u =>
      let v := contribValue fm src u
      let r := match old with
        | some l => (Run.step fm { v := v, ovf := false } (decodeFmt fm ((l.getD u 0).toNat % 2 ^ fm.width))).v
        | none => v
      BitVec.ofNat 40 (encodeFmt fm r))
    let lost := if g.carry.isSome && old.isNone then 1 else 0
    let s := modColCnt p (fun k => { k with carried := satAdd 12 k.carried 1, dropped := satAdd 12 k.dropped lost }) s
    let s := modGroup p g.id (fun y => { y with carry := some (e, x.acc40, sum) }) s
    let n := e * (fm.width / 8)
    bumpFree 1 (tellUnmapped c.q c.pos (collAcc f) (s.unmappedIn p g.carryBase n)
      (memWrite (collAcc f) g.carryBase ((List.range n).map (Config.freeByte s.free)) s))
  else
    let s := modColCnt p (fun k => { k with dropped := satAdd 12 k.dropped 1 }) s
    if isReduction x.op && (carryFor g x e).isNone then spendCarry f g e s else s

/-- Where the contribution-set record of a sequence number lies, and its size. -/
def recordAt (g : Group) (seq : Nat) : Nat × Nat :=
  (g.csetBase + seq % 16 * 64 * ceilDiv (16 + ceilDiv g.p 8) 64, 16 + ceilDiv g.p 8)

/-- The contribution-set record (R321, R333). -/
def setRecord (f : Inflight) (g : Group) (seq : Nat) (set : List Nat) (feeder : Option Nat) (s : State) : State :=
  let bits := (set.filter (fun r => decide (r < g.p))).foldl (fun n r => n + 2 ^ r) 0
  let rec_ := le 4 seq ++ le 2 set.length ++ le 2 (feeder.getD 0xFFFF) ++ List.replicate 8 0#8 ++ le (ceilDiv g.p 8) bits
  if g.csetBase = 0 then s
  else
    let r := recordAt g seq
    tellUnmapped f.q f.pos (collAcc f) (s.unmappedIn g.part r.1 r.2) (cmdWrite (collAcc f) r.1 rec_ s)

/-- A collective leaves the engine: its streams close, next_seq advances, and the command has completed. -/
def endColl (c : Coll) (set : List Nat) (feeder : Option Nat) (s : State) : State :=
  let s := closeStreams c.part c.group c.seq s
  let s := passSeq c.part c.group c.seq s
  let s := modGroup c.part c.group (fun g => { g with hist := ((c.seq, set, feeder) :: g.hist).take 16 }) s
  markDone c.q c.pos (dropColl c.q c.pos s)

/-- Late history of a barrier with p ≥ 2 (R336, R337): the waits come with the members' chunks. -/
def noteBarrier (g : Group) (c : Coll) (set : List Nat) (s : State) : State :=
  if g.p < 2 ∨ ! c.ready (set.filter (fun r => r != g.rank)) then s
  else
    let w (r : Nat) : Nat := if r = g.rank then s.now - c.since else unle ((assemble (c.from_ r)).getD [])
    match set.foldl (fun (acc : Option (Nat × Nat)) r =>
        match acc with
        | none => some (w r, r)
        | some y => if w r < y.1 || (w r == y.1 && decide (y.2 < r)) then some (w r, r) else some y) none with
    | none => s
    | some l =>
      let here := match s.node with
        | some n => g.members.getD l.2 0 % 2 ^ 22 == n
        | none => false
      let s := modFap (fun a => { a with hist := a.hist <<< 1 ||| (if here then 1#64 else 0#64) }) s
      let sus := decide (s.dev.suspectCount ≤ s.lateCount)
      if sus = s.fap.suspect then s
      else eventD 0x0804 1 (le 1 s.lateCount ++ le 1 s.dev.suspectCount ++ le 1 (if sus then 1 else 0))
        (modFap (fun a => { a with suspect := sus, drainAt := none }) s)

/-- Completes a collective that may complete. -/
def finishColl (c : Coll) (f : Inflight) (g : Group) (s : State) : State :=
  let p := g.part
  let x := (coClamp f.word).1
  let set := c.set.getD (List.range g.p)
  let e := ((s.desc (collAcc f) x.descSrc).map Desc.elements).getD 0
  let s1 :=
    if c.excluded || c.needFeed then s
    else
      let ws := collWrites s f g c set
      tellUnmapped c.q c.pos (collAcc f) (s.firstUnmapped p (ws.map (fun w => (w.1, w.2.length))))
        (lengthEvents f g c set (cmdWrites (collAcc f) ws s))
  let s2 := if x.op = 0x54 then noteBarrier g c set s1 else s1
  let s3 := if c.excluded then carryOrDrop f g c e (modColCnt p (fun k => { k with excluded := satAdd 12 k.excluded 1 }) s2)
    else spendCarry f g e s2
  let s4 := setRecord f g c.seq set (if set.length < g.p then c.feeder else none) s3
  let s5 := if set.length < g.p then
      eventP 0x0704 2 p (le 1 p ++ le 2 g.id ++ le 4 c.seq ++ le 2 set.length ++ le 2 (c.feeder.getD 0xFFFF)) s4
    else s4
  endColl c set c.feeder (modCol (fun k => { k with lasts := tabInsert (groupKey p g.id) (c, f) k.lasts }) s5)

/-- A collective may complete: not frozen, and its data or its feed has come. -/
def mayFinish (g : Group) (c : Coll) : Bool :=
  let set := c.set.getD (List.range g.p)
  let others := if opcodeOf c.word = 0x54 then set.filter (fun r => r != g.rank) else set
  c.running && ! c.frozen && (if c.needFeed then c.fed else c.excluded || c.ready others)

/-- Ranges that a collective writes when it completes: its destination, its carry and its record. -/
def finishSpans (c : Coll) (f : Inflight) (g : Group) (s : State) : List (Nat × Nat) :=
  let x := (coClamp f.word).1
  (if c.excluded || c.needFeed then [] else (collWrites s f g c (c.set.getD (List.range g.p))).map (fun w => (w.1, w.2.length))) ++
  (if c.excluded && isReduction x.op && x.late == 1 && g.carryBase != 0 then
    [(g.carryBase, ((s.desc (collAcc f) x.descSrc).map Desc.elements).getD 0 * (x.acc.width / 8))] else []) ++
  (if g.csetBase = 0 then [] else [recordAt g c.seq])

/-- COLLECTIVE_COMPLETE. -/
def execCollectiveComplete (q : QIdx) (pos : BitVec 32) (s : State) (errs : List ReadError := []) :
    Host.Outcome State Fault Refusal :=
  .next (
    match s.coll q pos, s.inflight q pos with
    | some c, some f =>
      match s.group c.part c.group with
      | some g =>
        if mayFinish g c then
          whenReached (writesOf (collAcc f) (finishSpans c f g s)) (fun s => meetErrors (collAcc f) errs (finishColl c f g) s) s
        else s
      | none => s
    | _, _ => s)

/-- A failed item (R333): the collective completes without its destination, and the group is not bound. -/
def failGroup (p g q held : Nat) (s : State) : State :=
  match s.group p g with
  | none => s
  | some x =>
    let s := eventP 0x0802 2 p (le 1 p ++ le 2 g ++ le 4 q ++ le 2 held) s
    let s := match s.collOf p g q with
      | some c =>
        match c.running, s.inflight c.q c.pos with
        | true, some f => endColl c [] none (setRecord f x q [] none s)
        | _, _ => s
      | none => s
    rejectWaiting p g (modGroup p g (fun y => { y with removed := unionOf [y.removed, [y.rank]] }) s)

/-- COLLECTIVE_DEADLINE. -/
def execCollectiveDeadline (q : QIdx) (pos : BitVec 32) (s : State) : Host.Outcome State Fault Refusal :=
  .next (
    match s.coll q pos with
    | none => s
    | some c =>
      let d := (coFields c.word).deadline
      if c.running && d != 0 && decide (c.since + 1000 * d ≤ s.now) then
        callGroup c.part c.group c.seq 1 (((s.group c.part c.group).map (fun g => g.rank)).getD 0) s
      else s)

/-! ### Feeds (R320) -/

/-- Writes of a feed: the result, with the flag bytes of a reduction. -/
def feedWrites (s : State) (f : Inflight) (bytes : List Byte) (ovf : List Nat) : List (Nat × List Byte) :=
  let x := (coClamp f.word).1
  match s.desc (collAcc f) x.descDst with
  | some d =>
    (d.format.map (fun fd => flatWrites d fd 0 bytes ++
      (if isReduction x.op then collFlags d (bytes.length / max 1 (fd.width / 8)) ovf else []))).getD []
  | none => []

/-- The feed's answer at the member: the result is written, or the feed was refused. -/
def takeFeed (c : Coll) (f : Inflight) (answer : Option (List Byte)) (ovf : List Nat) (s : State) : State :=
  let p := c.part
  match answer with
  | none =>
    setColl { c with fed := true } (modColCnt p (fun k => { k with feedRefused := satAdd 12 k.feedRefused 1 })
      (eventP 0x0706 2 p (le 1 p ++ le 2 c.group ++ le 4 c.seq ++ le 2 (c.feeder.getD 0xFFFF)) s))
  | some bytes =>
    let ws := feedWrites s f bytes ovf
    tellUnmapped c.q c.pos (collAcc f) (s.firstUnmapped p (ws.map (fun w => (w.1, w.2.length))))
      (setColl { c with fed := true } (modColCnt p (fun k => { k with fed := satAdd 12 k.fed 1 })
        (cmdWrites (collAcc f) ws s)))

/-- Ranges of a completed collective's destination that a feeder reads. -/
def feedSpans (s : State) (f : Inflight) : List (Nat × Nat) :=
  if opcodeOf f.word = 0x51 then [] else ((s.desc (collAcc f) (coFields f.word).descDst).map Desc.all).getD []

/-- What a feeder sends of its completed collective to a rank (R320): what its destination holds, or the rank's block of a
reduce-scatter from its staging region. -/
def feedBytes (s : State) (c : Coll) (f : Inflight) (g : Group) (rank : Nat) : List Byte :=
  let x := (coClamp f.word).1
  let a := collAcc f
  let e := ((s.desc a x.descSrc).map Desc.elements).getD 0
  match s.desc a x.descDst with
  | none => []
  | some d =>
    let fd := d.format.getD .fp32
    let b := blockElems e g.p
    let n := if x.op = 0x52 then g.p * e else if x.op = 0x56 then d.elements else e
    if x.op = 0x51 then
      (List.range (min ((rank + 1) * b) e - min (rank * b) e)).flatMap (fun k =>
        le (fd.width / 8) (convElem s f g x c (c.set.getD (List.range g.p)) fd e (rank * b + k) k).1)
    else flatBytes s a d fd 0 (unitsOf fd n * unitBytes fd)

/-- Opens the stream of a feed and sends what it may. -/
def sendFeed (p : Nat) (g : Group) (seq rank : Nat) (bytes : List Byte) (s : State) : State :=
  match s.node with
  | none => s
  | some me =>
    let m := g.members.getD rank 0
    match s.dataRoute p me (m % 2 ^ 22) with
    | none => eventUnreachable p g.id (m % 2 ^ 22) s
    | some ([], _) => s
    | some (e :: rest, detour) =>
      pumpStreams p g.id seq (openStream
        { ctl := { tag := 0, rev := 0, src := endpoint p me, dst := BitVec.ofNat 25 m, group := BitVec.ofNat 12 g.id,
                   seq := BitVec.ofNat 32 seq, chunk := 0, fp := g.fp, route := packRoute (e :: rest), hop := 0 }
          inPort := none, outPort := some e, outTag := 0, acked := [], waiting := false, rank := rank, detour := detour
          feed := some bytes } s)

/-- FEED_REQUEST: the answer at the member, or a request at the feeder, served from its completed collective unless the group's
next one has completed too (R320). -/
def execFeedRequest (r : FeedStep) (s : State) (errs : List ReadError := []) : Host.Outcome State Fault Refusal :=
  .next (
    match r with
    | .member q pos answer ovf =>
      match s.coll q pos, s.inflight q pos with
      | some c, some f =>
        if c.running && c.needFeed && ! c.fed && ! c.frozen then
          whenReached (writesOf (collAcc f) ((feedWrites s f (answer.getD []) ovf).map (fun w => (w.1, w.2.length))))
            (takeFeed c f answer ovf) s
        else s
      | _, _ => s
    | .feeder p group seq rank =>
      match s.group p.val group.toNat with
      | none => s
      | some g =>
        if ! g.hist.any (fun h => h.1 == seq.toNat) then s
        else
          let key := groupKey p.val group.toNat
          let note (ok : Nat) (s : State) : State := modCol (fun c => { c with fed := (key, seq.toNat, ok) :: c.fed }) s
          if g.hist.any (fun h => h.1 == (seq.toNat + 1) % 2 ^ 32) then note 0 s
          else
            match (s.col.lasts.find? (fun l => l.1 == key && l.2.1.seq == seq.toNat)).map (fun l => l.2) with
            | none => note 1 s
            | some (c, f) =>
              whenReached (readsOf (collAcc f) (feedSpans s f)) (fun s => meetErrors (collAcc f) errs (fun s =>
                sendFeed p.val g seq.toNat rank (feedBytes s c f g rank) (note 1 s)) s) s)

/-! ### Stream control flits (R303, R304, R306) -/

/-- A control flit's next port, none when this module is its destination. -/
def nextHop (c : StreamCtl) : Option Nat := (c.route[c.hop]?).map (fun e => e.val)

/-- Sends a control flit on its next hop in the transit class (R301). -/
def forwardCtl (kind : Nat) (tag : BitVec 12) (e : Nat) (c : StreamCtl) (s : State) : State :=
  sendFlit e (ctlFlit .transit kind tag { c with hop := c.hop + 1 }) s

/-- A stream that has come to its end here. -/
def endOf (c : StreamCtl) (via : Nat) : Stream :=
  { ctl := c, inPort := some via, outPort := none, outTag := 0, acked := [], waiting := false }

/-- Refuses a stream (R306): event 0x0703 and a REFUSE flit to the source. -/
def refuseStream (c : StreamCtl) (via cause : Nat) (s : State) : State :=
  let p := partOfEnd c.dst
  answerStream 3 (endOf c via) c.chunk.toNat
    (eventP 0x0703 2 p (le 1 p ++ le 2 c.group.toNat ++ le 4 c.seq.toNat ++ le 3 (nodeOf c.src) ++ le 1 cause) s)

/-- Same stream: ends, group and collective. -/
def sameStream (a b : StreamCtl) : Bool := a.src == b.src && a.dst == b.dst && a.group == b.group && a.seq == b.seq
/-- An answer to a stream: the same with its ends exchanged. -/
def answers (c : StreamCtl) (x : Stream) : Bool :=
  x.ctl.src == c.dst && x.ctl.dst == c.src && x.ctl.group == c.group && x.ctl.seq == c.seq

/-- STREAM_OPEN: at its source once tags are free, on the way, or at its destination. -/
def execStreamOpen (via : Option Port) (c : StreamCtl) (s : State) : Host.Outcome State Fault Refusal :=
  .next (
    if s.node.isNone then s
    else
      match s.col.streams.find? (fun x => x.waiting && x.inPort == via.map (fun e => e.val) && sameStream x.ctl c), via with
      | some x, _ =>
        if (x.outPort.bind (freeTag s)).isNone then s
        else
          pumpStreams (partOfEnd c.src) c.group.toNat c.seq.toNat
            (openStream x (modCol (fun k => { k with streams := k.streams.filter (fun y => y != x) }) s))
      | none, none => s
      | none, some e =>
        match nextHop c with
        | some o => openStream { endOf c e with outPort := some o } s
        | none =>
          match s.boundGroup (partOfEnd c.dst) c.group.toNat with
          | none => refuseStream c e 1 s
          | some g =>
            if g.fp ≠ c.fp then refuseStream c e 2 s
            else modCol (fun k => { k with streams := k.streams ++ [endOf c e] }) s)

/-- The stream in transit here that an answer came for, on its way back. -/
def backStream (s : State) (via : Option Port) (c : StreamCtl) : Option Stream :=
  s.col.streams.find? (fun x => via.isSome && x.outPort == via.map (fun e => e.val) && x.inPort.isSome && answers c x)

/-- An answer in transit goes on: on its stream's way back under the tag that the hop before gave for it, or along its own
route where the stream is not known here (R301, R303). -/
def passBack (kind : Nat) (via : Option Port) (c : StreamCtl) (s : State) : Option State :=
  match backStream s via c with
  | some x => x.inPort.map (fun e =>
      sendFlit e (ctlFlit .transit kind x.ctl.rev { c with tag := x.ctl.rev, hop := c.hop + 1 }) s)
  | none => (nextHop c).map (fun o => if via.isNone || s.node.isNone then s else forwardCtl kind c.tag o c s)

/-- STREAM_ACK: at the source, the sender releases the chunk it names and sends what it then may; a feed that is acknowledged
whole closes. -/
def execStreamAck (via : Option Port) (c : StreamCtl) (s : State) : Host.Outcome State Fault Refusal :=
  .next (
    match passBack 1 via c s with
    | some t => t
    | none =>
      let n := c.chunk.toNat
      let ack (x : Stream) : Stream :=
        if x.inPort.isNone && answers c x then
          { x with acked := if x.acked.contains n then x.acked else x.acked ++ [n], held := x.held.filter (fun k => k.1 != n) }
        else x
      let s := pumpStreams (partOfEnd c.dst) c.group.toNat c.seq.toNat (modCol (fun k => { k with streams := k.streams.map ack }) s)
      (s.col.streams.filter (fun x => x.inPort.isNone && answers c x && x.feed.any (fun b =>
        x.held.isEmpty && decide ((streamChunks b).length ≤ x.next)))).foldl (fun s x => closeStream x s) s)

/-- STREAM_CLOSE: the stream ends here, and the CLOSE goes on. -/
def execStreamClose (via : Option Port) (c : StreamCtl) (s : State) : Host.Outcome State Fault Refusal :=
  .next (
    let hit (x : Stream) : Bool := x.inPort == via.map (fun e => e.val) && sameStream x.ctl c
    let out := ((s.col.streams.find? hit).map (fun x => x.outTag)).getD c.tag
    let s1 := modCol (fun k => { k with streams := k.streams.filter (fun x => ! hit x) }) s
    match nextHop c with
    | some o => if s.node.isNone then s1 else forwardCtl 2 out o { c with tag := out } s1
    | none => s1)

/-- STREAM_REFUSE: the stream ends here; the source takes the destination as not having arrived. -/
def execStreamRefuse (via : Option Port) (c : StreamCtl) (s : State) : Host.Outcome State Fault Refusal :=
  .next (
    match passBack 3 via c s with
    | some t => modCol (fun k => { k with streams := k.streams.filter (fun x => some x != backStream s via c) }) t
    | none =>
      modCol (fun k => { k with streams := k.streams.filter (fun x => ! (x.inPort.isNone && answers c x)) }) s)

end Sys2Proof.Machine
end

