-- ==== Sys2Proof/Machine/Cinch.lean ====
section
/-! DEFINITION. Cinch rounds (R326–R340): the rows of the agreement messages and their time limits, rack decisions, spare
switch-in as it shows on this module, and the proactive drain. -/

namespace Sys2Proof.Machine

/-! ### Reopening streams (R305, R335) -/

/-- First chunk index that is not acknowledged. -/
def firstUnacked (l : List Nat) : Nat := ((List.range (l.length + 1)).find? (fun k => ! l.contains k)).getD 0

/-- Reopens one stream from this module on the first good route, the chunks not acknowledged following it. Without a route the
destination is unreachable (R300): an own collective calls a round (R326), and the source of a stream in transit is
refused (notes/assumptions/38.md). -/
def reopenStream (s : State) (x : Stream) : State :=
  let s := modCol (fun c => { c with streams := c.streams.filter (fun y => y != x) }) s
  match s.node with
  | none => s
  | some me =>
    let p := partOfEnd x.ctl.src
    let dst := nodeOf x.ctl.dst
    let rest := (x.ctl.route.drop x.ctl.hop).map (fun e => e.val)
    let r := if x.inPort.isNone then s.dataRoute p me dst
      else if s.gone dst then none
      else ((rest :: detours s p me dst rest).find? (routeGood s me)).map (fun r => (r, true))
    match r, x.inPort with
    | some (e :: more, detour), i =>
      openStream { x with
        ctl := { x.ctl with chunk := if i.isNone then BitVec.ofNat 32 (firstUnacked x.acked) else x.ctl.chunk,
                            route := packRoute (e :: more), hop := 0 }
        outPort := some e, detour := detour } s
    | some ([], _), _ => s
    | none, some _ => answerStream 3 x x.ctl.chunk.toNat s
    | none, none =>
      let g := x.ctl.group.toNat
      let s := eventUnreachable p g dst s
      if x.feed.isSome then s else callGroup p g x.ctl.seq.toNat 2 x.rank s

/-- Reopens the streams that a predicate names. -/
def reopenStreams (bad : Stream → Bool) (s : State) : State := (s.col.streams.filter bad).foldl reopenStream s

/-! ### Rack decisions (R334, R335, R338) -/

/-- Time from a rack decision to the spare's service (R335, step 6; notes/assumptions/31.md). -/
def switchInNs : Nat := 46000000

/-- The node address is withdrawn from this module after its replacement (R335). -/
def withdrawSelf (slot : Nat) (s : State) : State :=
  let c := s.col.coord
  eventD 0x080B 3 (le 2 c.rack ++ le 1 c.z ++ le 1 c.y ++ le 1 c.x ++ le 1 slot)
    (modCol (fun k => { k with coord := { k.coord with valid := false } }) s)

/-- Event 0x080A, against the partitions whose groups hold the module (R334, R348). -/
def noSpare (m : Nat) (s : State) : State :=
  let n := s.col.coord.rack * 64 + m
  let ps := allParts.filter (fun p => s.col.groups.any (fun g => g.2.part == p && g.2.members.any (fun x => x % 2 ^ 22 == n)))
  if ps.isEmpty then s else eventPs 0x080A 2 ps (le 2 s.col.coord.rack ++ le 1 m) s

/-- Event 0x0805 of the coordinator's WMC (R335): failed modules, the module each spare slot replaces, the row used. -/
def eventSwitchIn (r : RackProposal) (s : State) : State :=
  let failed := (r.failed.filter (fun m => decide (m < 64))).foldl (fun n m => n + 2 ^ m) 0
  let slots := ((List.range 8).map (fun k => le 1 (((r.spares.find? (fun x => x.1 == k)).map (fun x => x.2)).getD 0xFF))).flatten
  let row := ([0, 1].find? (fun k => (r.spares.filter (fun x => x.1 / 4 == k)).length == 4)).getD 0xFFFF
  eventD 0x0805 1 (le 2 s.col.coord.rack ++ le 8 failed ++ slots ++ le 2 row) s

/-- Collectives in progress with a member on a failed module call a round of their group (R326). -/
def callForFailed (failed : List Nat) (s : State) : State :=
  let base := s.col.coord.rack * 64
  (s.col.colls.filter (fun c => c.running)).foldl (fun s c =>
    match s.group c.part c.group with
    | none => s
    | some g =>
      match (g.members.zipIdx).find? (fun m => m.1 % 2 ^ 22 / 64 * 64 == base && failed.contains (m.1 % 64) && ! g.removed.contains m.2) with
      | some m => callGroup c.part c.group c.seq 2 m.2 s
      | none => s) s

/-- Applies a rack decision (R335). -/
def applyRack (i : CinchItem) (round : Nat) (b : CinchBody) (s : State) : State :=
  match i, b with
  | .rack, .proposalRack r =>
    if ((s.roundOf i).bind (fun x => x.decided)).isSome then s
    else
      let coord := coordinates s i round
      let me := s.moduleIndex
      let base := s.col.coord.rack * 64
      let s := noteDecided i round b s
      let s := if coord && ! r.spares.isEmpty then eventSwitchIn r s else s
      let slotOf (m : Nat) : Option Nat := (r.spares.find? (fun x => x.2 == m)).map (fun x => x.1)
      let gone : List (Nat × Nat) := r.failed.map (fun m => (base + m, if (slotOf m).isSome then s.now + switchInNs else 0))
      let s := modCol (fun c =>
        { c with withdrawn := c.withdrawn.filter (fun x => ! gone.any (fun y => y.1 == x.1)) ++ gone }) s
      let s := modFap (fun a => { a with
        failedModules := unionOf [a.failedModules, r.failed]
        usedSlots := unionOf [a.usedSlots, r.spares.map (fun x => x.1)]
        draining := if r.drain.isSome then r.drain else a.draining
        drainState := if r.drain.isSome && r.drain == me then 1 else a.drainState
        drainSlot := if r.drain.isSome && r.drain == me then (me.bind slotOf).getD 0xFF else a.drainSlot }) s
      let s := (r.failed.filter (fun m => (slotOf m).isNone)).foldl (fun s m => noSpare m s) s
      match me with
      | none => s
      | some n =>
        if r.failed.contains n then withdrawSelf ((slotOf n).getD 0xFF) s
        else
          let s := reopenStreams (fun x => x.outPort.isSome &&
            ! routeGood s (base + n) ((x.ctl.route.drop x.ctl.hop).map (fun e => e.val))) s
          callForFailed r.failed s
  | _, _ => s

/-- Applies a decision of either domain. -/
def applyItem (i : CinchItem) (round : Nat) (b : CinchBody) (s : State) : State :=
  match i with
  | .group _ _ _ => applyGroup i round b s
  | .rack => applyRack i round b s

/-- This module calls a rack round (R326). -/
def callRack (cause : Byte) (subject : Nat) (s : State) : State := callRound applyItem .rack cause subject s

/-! ### Messages (R327, R328) -/

/-- A message of another fingerprint is refused with event 0x0809 (R327, R348). -/
def cinchRow (m : CinchMsg) (body : State → State) (s : State) : State :=
  match m.item with
  | .rack => body s
  | .group p g _ =>
    match s.group p.val g.toNat with
    | none => s
    | some x =>
      if x.fp ≠ m.fp then eventP 0x0809 2 p.val (le 1 p.val ++ le 2 g.toNat ++ le 2 m.sender) s else body s

/-- The members that a CALL shows as removed: its coordinator is the lowest member that its sender still counts, so every
lower one has been removed (R328, R332; notes/assumptions/36.md). -/
def callRemoves (s : State) (m : CinchMsg) : List Nat :=
  match m.item, m.body with
  | .group p g _, .call _ => 
    if (s.boundGroup p.val g.toNat).any (fun x => decide (x.rank < m.coord)) then
      (participants s m.item).filter (fun r => decide (r < m.coord))
    else []
  | _, _ => []

/-- CINCH_CALL. -/
def execCinchCall (m : CinchMsg) (s : State) : Host.Outcome State Fault Refusal :=
  .next (cinchRow m (fun s =>
    let s := match m.item with
      | .group p g q => rejectWaiting p.val g.toNat (removeRanks p.val g.toNat q.toNat (callRemoves s m) s)
      | .rack => s
    enterRounds applyItem m.item m.cause (dropEnded m.item s)) s)

/-- CINCH_REPORT; one that comes before the CALL opens the sequence (notes/assumptions/33.md). -/
def execCinchReport (m : CinchMsg) (s : State) : Host.Outcome State Fault Refusal :=
  .next (cinchRow m (fun s =>
    let s := enterRounds applyItem m.item m.cause s
    tryPropose applyItem m.item none (modRound m.item (fun y =>
      { y with reports := (y.reports.filter (fun z => ! (z.sender == m.sender && z.round == m.round))) ++ [m] }) s)) s)

/-- A message carries a proposal. -/
def isProposal : CinchBody → Bool
  | .proposalGroup _ => true
  | .proposalRack _ => true
  | _ => false

/-- CINCH_PROPOSE: ACCEPT, unless a REPORT of a later round has been sent. -/
def execCinchPropose (m : CinchMsg) (s : State) : Host.Outcome State Fault Refusal :=
  .next (cinchRow m (fun s =>
    let s := enterRounds applyItem m.item m.cause s
    match s.roundOf m.item, coordinatorOf s m.item m.round with
    | some r, some c =>
      if ! isProposal m.body || m.round < r.round || r.decided.isSome || ! takesPart s m.item then s
      else
        sendMsgs .accept [c] (msgOf s m.item m.round m.cause .accept)
          (modRound m.item (fun y => { y with accepted := some (m.round, m.body) }) s)
    | _, _ => s) s)

/-- CINCH_ACCEPT. -/
def execCinchAccept (m : CinchMsg) (s : State) : Host.Outcome State Fault Refusal :=
  .next (cinchRow m (fun s =>
    match s.roundOf m.item with
    | none => s
    | some r =>
      if r.round ≠ m.round || r.proposed.isNone || ! (participants s m.item).contains m.sender then s
      else
        checkQuorum applyItem m.item (modRound m.item (fun y =>
          { y with accepts := if y.accepts.contains m.sender then y.accepts else y.accepts ++ [m.sender] }) s)) s)

/-- CINCH_DECIDE. -/
def execCinchDecide (m : CinchMsg) (s : State) : Host.Outcome State Fault Refusal :=
  .next (cinchRow m (fun s => if takesPart s m.item then applyItem m.item m.round m.body s else s) s)

/-! ### Time limits (R328, R333) -/

/-- REPORT_COLLECT_TIMEOUT: at 600 µs of the round, a quorum of REPORTs is enough. -/
def execReportCollectTimeout (item : CinchItem) (s : State) : Host.Outcome State Fault Refusal :=
  .next (
    match s.roundOf item with
    | none => s
    | some r =>
      if s.now < r.begin_ + 600000 || r.begin_ + 1000000 ≤ s.now then s else tryPropose applyItem item (some (quorum s item)) s)

/-- ACCEPT_COLLECT_TIMEOUT: at 1,000 µs of the round, the coordinator sends no DECIDE any more. -/
def execAcceptCollectTimeout (item : CinchItem) (s : State) : Host.Outcome State Fault Refusal :=
  .next (
    match s.roundOf item with
    | none => s
    | some r =>
      if s.now < r.begin_ + 1000000 then s else modRound item (fun y => { y with deciding := false }) s)

/-- CINCH_ROUND_TIMEOUT: at 1,200 µs without DECIDE the next round starts, or the item has failed. -/
def execCinchRoundTimeout (item : CinchItem) (s : State) : Host.Outcome State Fault Refusal :=
  .next (
    match s.roundOf item with
    | none => s
    | some r =>
      if r.decided.isSome || s.now < r.start + 1200000 * (r.round + 1) then s
      else if r.round < 3 then startRound applyItem item (r.round + 1) s
      else
        let s := setFrozen item false (modFap (fun a =>
          { a with failed := satAdd 15 a.failed 1, rounds := a.rounds.filter (fun x => x.item != item) }) s)
        match item with
        | .group p g q => failGroup p.val g.toNat q.toNat r.held.length s
        | .rack => s)

/-! ### Drain (R338, R339) -/

/-- DRAIN_CALL: at once when the module is suspect and a spare slot is free, and every 10 s while both hold. -/
def execDrainCall (slotFree : Bool) (s : State) : Host.Outcome State Fault Refusal :=
  .next (
    let due := match s.fap.drainAt with
      | some t => decide (t + 10000000000 ≤ s.now)
      | none => true
    if s.fap.suspect && slotFree && due && s.node.isSome then
      callRack 5 (s.moduleIndex.getD 0) (modFap (fun a => { a with drainAt := some s.now }) s)
    else s)

/-- Event 0x0808: phase 1 started, 2 completed. -/
def eventDrain (phase : Nat) (bytes : List Byte) (s : State) : State :=
  eventD 0x0808 1 (le 1 (s.moduleIndex.getD 0) ++ le 1 s.fap.drainSlot ++ bytes ++ le 1 phase) s

/-- FAP_DRAIN_GO: in state 1 the drain copies the module's contents over the E7 circuit, the partitions that give E7 a
role losing it (R286), and the spare takes its place (notes/assumptions/35.md). -/
def execFapDrainGo (s : State) : Host.Outcome State Fault Refusal :=
  .next (
    if s.fap.drainState ≠ 1 then s
    else
      let s := eventDrain 1 (le 2 0) (modFap (fun a => { a with drainState := 2 }) s)
      let s := capacityLoss (.link 7) 0 s
      let s := bumpFree 1 (eventDrain 2 [Config.freeByte s.free 0, Config.freeByte s.free 1] s)
      withdrawSelf s.fap.drainSlot (modFap (fun a => { a with drainState := 3 }) s))

end Sys2Proof.Machine
end

