-- ==== Sys2Proof/Machine/Optics.lean ====
section
/-! DEFINITION. Lanes and wavelengths of the Exano ports (R259–R265, R277–R288, R290, R465): modes, training, spares, holds,
step-down, and a port going down (R275, R305). -/

namespace Sys2Proof.Machine

/-! ### Lanes and modes (R261, R286) -/

/-- Wavelength k of a port. -/
def PortSt.wave (p : PortSt) (k : Nat) : Wave := tabGet {} p.waves k
/-- Updates wavelength k of port e. -/
def modWave (e k : Nat) (f : Wave → Wave) (s : State) : State :=
  modPort e (fun p => { p with waves := tabMod {} p.waves k f }) s

/-- Weight of a mode (R261). -/
def modeWeight : Nat → Nat
  | 1 => 6
  | 2 => 12
  | 3 => 24
  | 4 => 31
  | _ => 0
/-- Effective bits that a mode requires. -/
def modeBits : Nat → Nat
  | 1 => 2
  | 2 => 3
  | 3 => 3
  | _ => 4
/-- Least dac_bits of a mode. -/
def modeDac (m : Nat) : Nat := if m = 4 then 5 else 4

/-- Wavelengths that carry a logical lane: the lane set, to which codewords are dealt (R263, R277). -/
def PortSt.carrying (p : PortSt) : List (Nat × Wave) := p.waves.filter (fun w => w.2.dealt && w.2.lane.isSome)
/-- Logical lanes carrying traffic (R291). -/
def PortSt.lanes (p : PortSt) : Nat := if p.state = 2 ∨ p.state = 3 then p.carrying.length else 0
/-- Sum of the lane weights of the transmit direction. -/
def PortSt.weight (p : PortSt) : Nat :=
  if p.state = 2 ∨ p.state = 3 then (p.carrying.map (fun w => modeWeight w.2.mode)).sum else 0
/-- Payload of the transmit direction in Mb/s (R261): raw rates times 514/544 × 250/256 × 143/144. -/
def PortSt.payload (p : PortSt) : Nat := p.weight * 64000 * 514 * 250 * 143 / (12 * 544 * 256 * 144)
/-- An assigned lane that has carried nothing for at most 1 ms: it may only wait for its spare (R286). -/
def Wave.waits (w : Wave) (now : Nat) : Bool :=
  w.lane.isSome && ! w.dealt && (match w.emptyAt with
    | some t => decide (now ≤ t + 1000000)
    | none => false)
/-- Lane weights that count for the reservable capacity. -/
def PortSt.capWeight (p : PortSt) (now : Nat) : Nat :=
  if p.state = 2 ∨ p.state = 3 then
    p.weight + ((p.waves.filter (fun w => w.2.waits now)).map (fun w => modeWeight w.2.mode)).sum
  else 0
/-- Reservable collective capacity in percent of 234.57 GB/s (R286): 16 lanes at PAM4 64 GBd have weight 384. -/
def PortSt.reservable (p : PortSt) (now : Nat) : Nat := 115 * 100 * p.capWeight now / (143 * 384)

/-- Margin of a lane in 0.1 dB from effective bits in 1/16 bit (R265). -/
def marginOf (enob16 mode : Nat) : Int := 602 * ((enob16 : Int) - 16 * (modeBits mode : Int)) / 160
/-- A margin of at least 3.0 dB (R265). -/
def marginOk (enob16 mode : Nat) : Bool := decide (4800 ≤ 602 * ((enob16 : Int) - 16 * (modeBits mode : Int)))

/-- The highest mode with a margin of 3.0 dB, up to mode_max, 0 when there is none (R265, R279). -/
def chooseMode (r : PortRec) (version : Byte) (enob64 enob32 : Nat) : Nat :=
  ((([4, 3, 2, 1] : List Nat).find? (fun m => decide (m ≤ r.modeMax) && decide (modeDac m ≤ r.dacBits) &&
    (m != 4 || version == 0x12#8) && marginOk (if 3 ≤ m then enob64 else enob32) m))).getD 0

/-- Partitions whose port roles use a port. -/
def portUsers (s : State) (e : Nat) : List Nat := s.enabledParts.filter (fun p => (s.part p).role e != 0)

/-- Reservations are reduced when the port's reservable capacity falls below their sum (R286). -/
def checkCapacity (e : Nat) (s : State) : State :=
  let cap := (s.port e).reservable s.now
  let sum := ((portUsers s e).map (fun p => ((s.res p).link).getD e 0)).sum
  if cap < sum then capacityLoss (.link e) cap s else s

/-- A lane that has carried nothing for more than 1 ms loses its capacity (R286). -/
def emptyCheck (e : Nat) (s : State) : State :=
  let starved (w : Wave) : Bool := w.lane.isSome && ! w.dealt && (match w.emptyAt with
    | some x => decide (x + 1000000 < s.now)
    | none => false)
  if (s.port e).waves.any (fun w => starved w.2) then
    checkCapacity e (modPort e (fun p => { p with waves := p.waves.map (fun w =>
      (w.1, if starved w.2 then { w.2 with emptyAt := none } else w.2)) }) s)
  else s

/-- State of a port that is up: 2 with 16 lanes, 3 with fewer (R291). -/
def afterLanes (e : Nat) (s : State) : State :=
  modPort e (fun p => if p.state = 2 ∨ p.state = 3 then { p with state := if p.carrying.length = 16 then 2 else 3 } else p) s

/-- A retired wavelength is recorded (R287). -/
def recordRetired (e k : Nat) (s : State) : State :=
  modHw (fun h => { h with wlRetired := if h.wlRetired.contains (e * 18 + k) then h.wlRetired else h.wlRetired ++ [e * 18 + k] }) s
/-- A wavelength without laser input (R282, R291). -/
def Wave.dark (w : Wave) : Wave := { w with monL := -2048, monC := -2048, monM := -2048 }
/-- A wavelength retires, its laser input off; its lane stays assigned while a spare is to take it over. -/
def retireWave (e k : Nat) (keepLane : Bool) (s : State) : State :=
  recordRetired e k (modWave e k (fun w =>
    { w.dark with state := 6, dealt := false, holdBy := [], lane := if keepLane then w.lane else none,
                  trigger := if keepLane then w.trigger else 0 }) s)
/-- A wavelength of the record is never trained (R287). -/
def waveRetired (s : State) (e k : Nat) : Bool := s.mxa.hw.wlRetired.contains (e * 18 + k)

/-- Event 0x0604. -/
def eventLaneRemoved (e lane wave : Nat) (s : State) : State :=
  eventD 0x0604 1 (le 1 e ++ le 1 lane ++ le 1 wave ++ le 3 (s.port e).payload) s
/-- A signed value in one byte (a margin). -/
def sbyte (v : Int) : List Byte := [BitVec.ofInt 8 v]
/-- A monitor value in two bytes (R291, R474: a 12-bit field). -/
def monBytes (v : Int) : List Byte := le 2 (BitVec.ofInt 12 v).toNat

/-- Event 0x0602. -/
def eventMode (e lane old new : Nat) (margin : Int) (s : State) : State :=
  eventD 0x0602 1 (le 1 e ++ le 1 lane ++ le 1 old ++ le 1 new ++ sbyte margin) s

/-! ### A port goes down (R275, R305) -/

/-- Code of a cause in event 0x0606: R275's order, then R424 and R465. -/
def downCode : PortDownCause → Nat
  | .retrainFailed => 1
  | .fewLanes => 2
  | .disabled => 3
  | .lcfTimeout => 4
  | .pllUnlock => 5
  | .noLight => 6

/-- A wavelength of a port that has gone down, its lasers off where the port is disabled or its fibre dark (R290, R465). -/
def Wave.down (off : Bool) (w : Wave) : Wave :=
  let w := if off then w.dark else w
  if w.state = 6 then { w with lane := none, trigger := 0, rxLane := none, rxMode := 0 }
  else
    { w with state := 0, lane := none, mode := 0, dealt := false, emptyAt := none, holdBy := [], trigger := 0, replaces := none,
             cause := 0, rxLane := none, rxMode := 0 }

/-- Frees the buffers that passing flits still hold in the ports they came from (R271, R301). -/
def freeThrough (l : List Flit) (s : State) : State :=
  l.foldl (fun s f =>
    match f.note with
    | .through i c => modPort i (fun p => { p with freed := tabPut 0 p.freed c.code ((tabGet 0 p.freed c.code + 1) % 65536) }) s
    | _ => s) s

/-- A port's transmitter stops; the flits that its receiver took stay delivered (R275). -/
def PortSt.stop (p : PortSt) (cause : PortDownCause) (now : Nat) : PortSt :=
  { p with state := 0, changes := [], ready := [], retry := [], replay := [], replayFrom := none, replayRun := 0,
           injHold := none, downAt := now, lcfBad := 0, usedInFrame := [], usedByPart := [], await := false,
           dark := p.dark || cause == .noLight, injDue := false, rxChanges := [],
           waves := p.waves.map (fun w => (w.1, w.2.down (cause == .disabled || cause == .noLight))) }

/-- A port goes down: reservations fall, its streams reopen from here on a detour, the flits it has not got acknowledged or not
sent yet are handed over to the rerouted paths, and a rack round is called (R275, R286, R305, R326). -/
def portDown (e : Nat) (cause : PortDownCause) (s : State) : State :=
  if ! s.portUp e then s
  else
    let k := s.port e
    let users := portUsers s e
    let s := freeThrough k.ready (modPort e (fun p => p.stop cause s.now) s)
    let data := le 1 e ++ le 1 (downCode cause) ++ le 2 k.retry.length
    let s := if users.isEmpty then eventD 0x0606 1 data s else eventPs 0x0606 2 users data s
    let s := checkCapacity e s
    let hit := s.col.streams.filter (fun x => x.outPort == some e)
    let s := if hit.isEmpty then s
      else eventD 0x070A 1 (le 1 e ++ le 2 hit.length ++ le 2 ((hit.map (fun x => x.held.length)).sum))
        (reopenStreams (fun x => x.outPort == some e) s)
    let s := (k.retry.map (fun x => x.2) ++ k.ready).foldl (fun s f => reroute f s) s
    match s.node with
    | none => s
    | some n => callRack 3 (if e < 6 then stepNode n e % 64 else n % 64) s

/-! ### Switch points (R277) -/

/-- The first switch point at least 230 codewords ahead. -/
def switchPointAfter (codeword : Nat) : Nat := (codeword + 230 + 511) / 512 * 512

/-- The transmitting end proposes a change. Its LCFs carry one proposal at a time (R276), so a further one is made from
the point of the one before it. -/
def proposeChange (e kind lane wave mode : Nat) (s : State) : State :=
  modPort e (fun p =>
    let from_ := p.changes.foldl (fun n c => max n c.point) p.codeword
    { p with
      changes := p.changes ++ [{ kind := kind, lane := lane, wave := wave, mode := mode, point := switchPointAfter from_,
                                 id := p.nextChg % 256, confirmed := false }]
      nextChg := (p.nextChg + 1) % 256 }) s

/-- What follows a change of the lane set: the state of the port, its capacity, and its end when fewer than 4 lanes carry
traffic (R275, R286, R291). -/
def laneSetChanged (e : Nat) (s : State) : State :=
  let t := checkCapacity e (afterLanes e s)
  if t.portUp e && decide ((t.port e).lanes < 4) then portDown e .fewLanes t else t

/-- A wavelength joins the lane set. -/
def Wave.join (w : Wave) (mode : Nat) : Wave := { w with state := 3, mode := mode, dealt := true, emptyAt := none }

/-- One change takes effect. -/
def applyChange (e : Nat) (c : Change) (s : State) : State :=
  let w := (s.port e).wave c.wave
  if c.kind = 1 then
    if w.state ≠ 2 then s
    else
      let old := w.replaces.getD c.wave
      let o := (s.port e).wave old
      let s := modWave e c.wave (fun w => { w.join c.mode with lane := some c.lane, replaces := none }) s
      eventD 0x0601 1 (le 1 e ++ le 1 c.lane ++ le 1 old ++ le 1 c.wave ++ le 1 w.cause ++ sbyte o.txMargin ++ sbyte w.txMargin)
        (laneSetChanged e (retireWave e old false s))
  else if c.kind = 2 then
    if w.dealt then laneSetChanged e (modWave e c.wave (fun w => { w with dealt := false, emptyAt := some s.now }) s) else s
  else if c.kind = 3 then
    if w.state = 4 ∧ w.holdBy = [] then laneSetChanged e (modWave e c.wave (fun w => w.join w.mode) s) else s
  else if c.kind = 4 then
    if w.state = 5 then
      let t := laneSetChanged e (modWave e c.wave (fun w => w.join c.mode) s)
      if c.mode = w.mode then t else eventMode e c.lane w.mode c.mode w.txMargin t
    else s
  else if c.kind = 5 then
    if w.state = 6 then s else eventLaneRemoved e c.lane c.wave (laneSetChanged e (retireWave e c.wave false s))
  else s

/-- SWITCH_POINT: the confirmed changes of this point take effect; unconfirmed ones move to the next, and those behind
them. -/
def execSwitchPoint (p : Port) (index : Nat) (s : State) : Host.Outcome State Fault Refusal :=
  .next (
    let k := s.port p
    if index % 512 ≠ 0 || index < k.codeword || ! s.portUp p then s
    else
      let due := k.changes.filter (fun c => decide (c.point ≤ index) && c.confirmed)
      let left := k.changes.filter (fun c => ! (decide (c.point ≤ index) && c.confirmed))
      let missed := left.any (fun c => decide (c.point ≤ index))
      let s := modPort p (fun k => { k with
        codeword := index
        slotBits := 0
        changes := left.map (fun c => if missed then { c with point := c.point + 512 } else c) }) s
      due.foldl (fun s c => applyChange p c s) s)

/-- The partner's change takes effect in the receive direction: which of its lanes a receive wavelength carries, in which
mode. -/
def applyRxChange (c : Change) (p : PortSt) : PortSt :=
  let put (k : Nat) (f : Wave → Wave) (p : PortSt) : PortSt := { p with waves := tabMod {} p.waves k f }
  let leave (p : PortSt) : PortSt := { p with waves := p.waves.map (fun w =>
    (w.1, if w.2.rxLane = some c.lane then { w.2 with rxLane := none, rxMode := 0 } else w.2)) }
  match c.kind with
  | 1 => put c.wave (fun w => { w with rxLane := some c.lane, rxMode := c.mode }) (leave p)
  | 2 => put c.wave (fun w => { w with rxMode := 0 }) p
  | 3 => put c.wave (fun w => { w with rxLane := some c.lane, rxMode := c.mode }) p
  | 4 => put c.wave (fun w => { w with rxLane := some c.lane, rxMode := c.mode }) p
  | 5 => leave p
  | _ => p

/-- One more slot has been received: its bits advance the codeword index of the receive direction (R263), and the
confirmed changes of the partner take effect at their switch points (R277). -/
def rxAdvance (e : Nat) (s : State) : State :=
  modPort e (fun p =>
    let bits := p.rxBits + 2048
    let n := p.rxCodeword + bits / 5140
    let due := p.rxChanges.filter (fun c => decide (c.point ≤ n))
    let p1 := { p with rxCodeword := n, rxBits := bits % 5140, rxChanges := p.rxChanges.filter (fun c => decide (n < c.point)) }
    due.foldl (fun p c => applyRxChange c p) p1) s

/-! ### Loss location (R281) -/

/-- Growth of the stages of a wavelength over its baselines calls for a location. -/
def stageLoss (w : Wave) : Bool :=
  decide (w.baseC + 200 ≤ w.monL - w.monC) || decide (w.baseM + 200 ≤ w.monC - w.monM) || decide (w.baseP + 200 ≤ w.monM - w.farR)
/-- The first row of the location table that matches. -/
def lossCode (w : Wave) : Nat :=
  if w.monL ≤ w.baseL - 100 then 1
  else if w.baseC + 200 ≤ w.monL - w.monC then 2
  else if w.baseM + 200 ≤ w.monC - w.monM then 3
  else if w.baseP + 200 ≤ w.monM - w.farR then 4
  else 5
/-- Locates the loss of a transmit wavelength, once for each location. -/
def locateLoss (e k : Nat) (s : State) : State :=
  let w := (s.port e).wave k
  if w.state = 0 ∨ w.state = 6 ∨ ! (decide (w.txMargin < ((s.portRec e).spareMarginDb : Int)) || stageLoss w) then s
  else if w.told.contains (lossCode w) then s
  else
    eventD 0x0607 1 (le 1 e ++ le 1 k ++ le 1 (lossCode w) ++ monBytes w.monL ++ monBytes w.monC ++ monBytes w.monM ++
      monBytes w.farR ++ monBytes w.baseL ++ monBytes w.baseC ++ monBytes w.baseM ++ monBytes w.baseP)
      (modWave e k (fun w => { w with told := w.told ++ [lossCode w] }) s)

/-! ### Spares (R282, R283) -/

/-- A spare already trains or waits to take over for a wavelength. -/
def beingReplaced (p : PortSt) (k : Nat) : Bool := p.waves.any (fun w => w.2.replaces == some k)
/-- The free spare of lower index that may be tried now. -/
def freeSpare (s : State) (e : Nat) : Option Nat :=
  ([16, 17] : List Nat).find? (fun k =>
    ((s.port e).wave k).state == 0 && ! waveRetired s e k && decide (((s.port e).wave k).tryAt ≤ s.now))
/-- State code of a wavelength as the registers show it: the record says which are retired whatever the port does (R282,
R287, R294). -/
def State.waveState (s : State) (e k : Nat) : Nat := if waveRetired s e k then 6 else ((s.port e).wave k).state
/-- Wavelengths in SPARE (R291). -/
def State.sparesFree (s : State) (e : Nat) : Nat := (([16, 17] : List Nat).filter (fun k => s.waveState e k == 0)).length

/-- A spare is brought in (R283): cause 1 bias, 2 margin, 3 hold, 4 laser power. It trains at the lane's present mode with its
laser input on. -/
def startSpare (e k cause : Nat) (s : State) : State :=
  if beingReplaced (s.port e) k then s
  else
    match freeSpare s e with
    | none => s
    | some w =>
      modWave e w (fun x => { x with state := 1, replaces := some k, cause := cause, mode := ((s.port e).wave k).mode }) s

/-- Spares that did not qualify are tried again after 1 s for the wavelengths that still await one (R283): those whose
lane a hold or a laser left empty. Those that bias or margin call for are asked for again by the check that did. -/
def retrySpares (e : Nat) (s : State) : State :=
  (s.port e).waves.foldl (fun s w =>
    if w.2.trigger != 0 && w.2.lane.isSome && ! w.2.dealt then startSpare e w.1 w.2.trigger s else s) s

/-- What the receivers and monitors of a port measure is taken (R265, R280): margins follow the effective bits, unless the
ring of the wavelength is reported as detuned (R288), and a loss is located (R281). -/
def takeMeasure (e : Nat) (m : Measure) (s : State) : State :=
  let s1 := (List.range 18).foldl (fun s k =>
    let enob := m.rxEnob.getD k 0
    let on := s.waveState e k != 0 && s.waveState e k != 6
    let no : Int := -2048
    modWave e k (fun w =>
      { w with
        rxEnob := enob
        rxMargin := if w.rxMargin = -128 then w.rxMargin else marginOf enob w.rxMode
        monR := m.monR.getD k no
        monL := if on then m.monL.getD k no else no
        monC := if on then m.monC.getD k no else no
        monM := if on then m.monM.getD k no else no }) s) s
  (List.range 18).foldl (fun s k => locateLoss e k s) s1

/-- BIAS_CHECK. -/
def execBiasCheck (p : Port) (bias : List Nat) (s : State) : Host.Outcome State Fault Refusal :=
  .next ((List.range 18).foldl (fun s k =>
    let b := min (bias.getD k 0) 255
    let s := modWave p k (fun w => { w with bias := b }) s
    if ((s.port p).wave k).state = 3 ∧ (s.portRec p).spareBiasPct ≤ b then startSpare p k 1 s else s) s)

/-- SPARE_TRAIN_COMPLETE: the spare qualifies and awaits a switch point, or is tried again after 1 s. -/
def execSpareTrainComplete (p : Port) (w : Wl) (margin : Int) (s : State) : Host.Outcome State Fault Refusal :=
  .next (
    let x := (s.port p).wave w
    match x.replaces with
    | none => s
    | some old =>
      if x.state ≠ 1 then s
      else
        let o := (s.port p).wave old
        let need : Int := (s.portRec p).spareMarginDb
        let ok := decide (need ≤ margin) && (x.cause != 1 || decide (need + 10 ≤ margin)) &&
          (x.cause != 2 || decide (o.txMargin + 10 ≤ margin))
        if ok then
          proposeChange p 1 (o.lane.getD 0x1F) w x.mode (modWave p w (fun x => { x with state := 2, txMargin := margin }) s)
        else
          modWave p w (fun x =>
            { x.dark with state := 0, replaces := none, cause := 0, mode := 0, tryAt := s.now + 1000000000 }) s)

/-- LASER_POWER_DROP: PM_L falls by 3 dB within 1 µs; the lane carries nothing from the next switch point until its spare
takes over, its wavelength in HOLD meanwhile (notes/assumptions/41.md). -/
def execLaserPowerDrop (p : Port) (w : Wl) (dropCentiDb : Nat) (s : State) : Host.Outcome State Fault Refusal :=
  .next (
    let x := (s.port p).wave w
    if x.state ≠ 3 || dropCentiDb < 300 then s
    else
      let s := modWave p w (fun x => { x with monL := max (-2047) (x.monL - dropCentiDb) }) s
      let s := startSpare p w 4 (locateLoss p w s)
      let s := modWave p w (fun x => { x with state := 4, holdAt := s.now, holdBy := [4], trigger := 4 }) s
      proposeChange p 2 (x.lane.getD 0x1F) w x.mode s)

/-! ### Holds and step-down (R284, R288) -/

/-- Event 0x0603: direction 1 transmit, 2 receive; detuning in percent of the half-width. -/
def eventHold (e k dir detune : Nat) (s : State) : State :=
  eventD 0x0603 1 (le 1 e ++ le 1 k ++ le 1 dir ++ le 2 detune)
    (modPort e (fun p => { p with holds := satAdd 15 p.holds 1 }) s)

/-- A transmit wavelength enters HOLD, for its own ring (1) or the far receiver's (2), and its end proposes that its lane
carries nothing from a switch point on. -/
def enterHold (e k dir detune : Nat) (s : State) : State :=
  let x := (s.port e).wave k
  if x.state ≠ 3 then s
  else
    eventHold e k dir detune
      (proposeChange e 2 (x.lane.getD 0x1F) k x.mode
        (modWave e k (fun w => { w with state := 4, holdAt := s.now, holdBy := [dir] }) s))

/-- RING_HOLD_ENTER; a receiver reports its ring as −12.8 dB. -/
def execRingHoldEnter (p : Port) (w : Wl) (rx : Bool) (detunePct : Nat) (s : State) : Host.Outcome State Fault Refusal :=
  .next (
    if detunePct ≤ 25 || ! s.portUp p then s
    else if rx then
      if ((s.port p).wave w).rxMode = 0 || ((s.port p).wave w).rxMargin = -128 then s
      else eventHold p w 2 detunePct (modWave p w (fun x => { x with rxMargin := -128 }) s)
    else enterHold p w 1 detunePct s)

/-- What holds a wavelength ends; once nothing does, it leaves HOLD at the next switch point, keeping its mode. -/
def leaveHold (e k by_ : Nat) (s : State) : State :=
  let x := (s.port e).wave k
  if x.state ≠ 4 || ! x.holdBy.contains by_ then s
  else
    let s := modWave e k (fun w => { w with holdBy := w.holdBy.filter (fun b => b != by_) }) s
    if ((s.port e).wave k).holdBy = [] then proposeChange e 3 (x.lane.getD 0x1F) k x.mode s else s

/-- RING_HOLD_EXIT: within 5 % of half-width for 100 µs. -/
def execRingHoldExit (p : Port) (w : Wl) (detunePct us : Nat) (s : State) : Host.Outcome State Fault Refusal :=
  .next (
    let x := (s.port p).wave w
    if 5 < detunePct || us < 100 then s
    else
      let s := if x.rxMargin = -128 then modWave p w (fun y => { y with rxMargin := marginOf y.rxEnob y.rxMode }) s else s
      leaveHold p w 1 (emptyCheck p s))

/-- A spare may still take a lane over: one in SPARE, or at work for another wavelength. -/
def spareLeft (s : State) (e : Nat) : Bool := ([16, 17] : List Nat).any (fun k => s.waveState e k < 3)

/-- RING_HOLD_TIMEOUT: a wavelength still in HOLD after 10 ms leaves it and is retired; a spare replaces it, and where the
port has none its lane is removed. -/
def execRingHoldTimeout (p : Port) (w : Wl) (s : State) : Host.Outcome State Fault Refusal :=
  .next (
    let x := (s.port p).wave w
    if x.state ≠ 4 || x.holdBy = [] || s.now < x.holdAt + 10000000 || x.dealt then s
    else
      let c := if x.trigger = 0 then 3 else x.trigger
      let s := startSpare p w c (modWave p w (fun y => { y with trigger := c }) (emptyCheck p s))
      if beingReplaced (s.port p) w || spareLeft s p then retireWave p w true s
      else proposeChange p 5 (x.lane.getD 0x1F) w 0 s)

/-- A lane retrains alone: its wavelength is in STEP, and its lane carries nothing from a switch point on; it resumes in a
mode at a later one, or is removed there when no mode carries it (R278, R284). -/
def retrainAlone (e k lane mode : Nat) (margin : Int) (s : State) : State :=
  let s := modWave e k (fun w => { w with state := 5, txMargin := margin, lowAt := none }) s
  proposeChange e (if mode = 0 then 5 else 4) lane k mode (proposeChange e 2 lane k ((s.port e).wave k).mode s)

/-- LANE_STEP_DOWN: the margin has stayed below 0.5 dB for 1 ms and no spare qualifies; `newMargin` is the margin that
retraining finds at the next lower mode, none when it fails. A lane in NRZ is removed. -/
def execLaneStepDown (p : Port) (lane : Fin 16) (newMargin : Option Int) (s : State) : Host.Outcome State Fault Refusal :=
  .next (
    match (s.port p).carrying.find? (fun w => w.2.lane == some lane.val && w.2.state == 3) with
    | none => s
    | some (k, x) =>
      let low := match x.lowAt with
        | some t => decide (t + 1000000 ≤ s.now)
        | none => false
      if ! low || beingReplaced (s.port p) k || (freeSpare s p).isSome then s
      else
        match newMargin with
        | some m => retrainAlone p k lane (x.mode - 1) m s
        | none => retrainAlone p k lane 0 x.txMargin s)

/-! ### The rows of a port going down (R275, R465) -/

/-- PORT_DOWN; the causes that the state decides must hold. -/
def execPortDown (p : Port) (cause : PortDownCause) (s : State) : Host.Outcome State Fault Refusal :=
  .next (
    let k := s.port p
    let ok := match cause with
      | .fewLanes => decide (k.lanes < 4)
      | .disabled => ! k.enable
      | .lcfTimeout => decide (k.lastLcf + 1000000 ≤ s.now)
      | _ => true
    if ok then portDown p cause s else s)

/-- LCF_TIMEOUT: the partner has stopped sending LCFs for 1 ms. -/
def execLcfTimeout (p : Port) (s : State) : Host.Outcome State Fault Refusal :=
  .next (if (s.port p).lastLcf + 1000000 ≤ s.now then portDown p .lcfTimeout s else s)

/-- LASER_SHUTDOWN: the receive fibre is dark on all wavelengths for 1 ms. -/
def execLaserShutdown (p : Port) (s : State) : Host.Outcome State Fault Refusal :=
  .next (
    let dark (s : State) : State := modPort p (fun k =>
      { k with dark := true, waves := (List.range 18).foldl (fun w i => tabMod {} w i (fun x => { x with monR := -2048 })) k.waves }) s
    portDown p .noLight (dark s))

/-! ### Training (R278–R280) -/

/-- The wavelength that carries each lane at a cold training: λl, or a spare when λl is retired. -/
def trainLane (s : State) (e : Nat) : List (Nat × Nat) :=
  let lost := (List.range 16).filter (fun l => waveRetired s e l)
  let spares := ([16, 17] : List Nat).filter (fun k => ! waveRetired s e k)
  ((List.range 16).filter (fun l => ! waveRetired s e l)).map (fun l => (l, l)) ++ lost.zip spares

/-- What training leaves on a wavelength. -/
def trainedWave (s : State) (e k : Nat) (o : TrainObs) (version : Byte) : Wave :=
  let lane := ((trainLane s e).find? (fun x => x.2 == k)).map (fun x => x.1)
  let m := chooseMode (s.portRec e) version (o.txEnob64.getD k 0) (o.txEnob32.getD k 0)
  let l := o.monL.getD k (-2048)
  let c := o.monC.getD k (-2048)
  let mm := o.monM.getD k (-2048)
  let f := o.farR.getD k (-2048)
  let carries := lane.isSome && m != 0
  { state := if waveRetired s e k then 6 else if lane.isNone then 0 else if carries then 3 else 6
    lane := if carries then lane else none
    dealt := carries
    mode := if carries then m else 0
    txMargin := marginOf (if 3 ≤ m then o.txEnob64.getD k 0 else o.txEnob32.getD k 0) m
    rxEnob := o.rxEnob.getD k 0
    rxMode := o.rxModes.getD k 0
    rxMargin := marginOf (o.rxEnob.getD k 0) (o.rxModes.getD k 0)
    bias := ((s.port e).wave k).bias
    monL := if carries then l else -2048
    monC := if carries then c else -2048
    monM := if carries then mm else -2048
    monR := o.monR.getD k (-2048)
    farR := f
    baseL := l, baseC := l - c, baseM := c - mm, baseP := mm - f }

/-- A cold training that succeeds. -/
def coldTrained (e : Nat) (o : TrainObs) (s : State) : State :=
  let version : Byte := if 0x12 ≤ o.partnerVer.toNat then 0x12#8 else 0x10#8
  let old := s.port e
  let waves := (List.range 18).foldl (fun t k => tabPut {} t k (trainedWave s e k o version)) []
  let dropped := (trainLane s e).filter (fun x => (tabGet {} waves x.2 : Wave).state == 6)
  let s1 := modPort e (fun _ =>
    { enable := true, state := 3, partnerVer := o.partnerVer, version := version, waves := waves, rtt := o.rttNs,
      lastLcf := s.now, injInterval := old.injInterval, injCount := old.injCount, injMask := old.injMask, injKind := old.injKind,
      injNext := old.injNext, injected := old.injected, replays := old.replays, holds := old.holds, lcfLost := old.lcfLost,
      ready := old.ready }) s
  let s2 := afterLanes e s1
  let s3 := dropped.foldl (fun s x => eventLaneRemoved e x.1 x.2 (recordRetired e x.2 s)) s2
  laneSetChanged e (if version ≠ 0x12#8 then eventD 0x0608 1 (le 1 e ++ [o.partnerVer]) s3 else s3)

/-- A cold training that fails (R278): the port stays down for 100 ms. -/
def coldFailed (e : Nat) (step : Nat) (s : State) : State :=
  eventD 0x0609 1 (le 1 e ++ le 1 step) (modPort e (fun p => { p with state := 0, downAt := s.now }) s)

/-- PORT_COLD_TRAIN: of an enabled port that is not up. -/
def execPortColdTrain (p : Port) (o : TrainObs) (s : State) : Host.Outcome State Fault Refusal :=
  .next (
    if ! (s.port p).enable || s.portUp p then s
    else
      match o.failed with
      | some k => coldFailed p k s
      | none => coldTrained p o s)

/-- TRAINING_RETRY: 100 ms after a failed training or a dark fibre. -/
def execTrainingRetry (p : Port) (s : State) : Host.Outcome State Fault Refusal :=
  .next (
    let k := s.port p
    if k.enable && k.state == 0 && decide (k.downAt + 100000000 ≤ s.now) then modPort p (fun x => { x with state := 1 }) s else s)

/-- A fast retrain (R273, R278): cause 1 retry limit, 2 LCF loss, 3 host. Steps 4 to 6 start the sequence numbers and
credit counts at 0 again, and the retry buffer is replayed from its oldest flit. -/
def fastRetrain (e cause : Nat) (s : State) : State :=
  eventD 0x0605 1 (le 1 e ++ le 1 cause) (modPort e (fun p =>
    let r := (p.retry.zipIdx).map (fun x => (x.2, x.1.2))
    { p with
      retry := r
      replay := r
      replayFrom := if r.isEmpty then none else some 0
      replayAt := s.now
      replayRun := 0
      nextSeq := r.length
      rxExpect := 0
      await := false
      sent := (List.range 5).foldl (fun t c => tabPut 0 t c ((r.filter (fun x => x.2.cls.code == c)).length)) []
      freed := []
      freedFar := []
      codeword := 0
      slotBits := 0
      rxCodeword := 0
      rxBits := 0
      rxChanges := []
      changes := (p.changes.zipIdx).map (fun c => { c.1 with point := 512 * (c.2 + 1), confirmed := false })
      lcfBad := 0
      lastLcf := s.now }) s)

/-- A lane after a retraining (R265, R284): it never steps up, and one that no mode carries is removed. -/
def retrainLane (e : Nat) (o : TrainObs) (s : State) (x : Nat × Wave) : State :=
  let k := x.1
  let lane := x.2.lane.getD 0x1F
  let m := chooseMode (s.portRec e) (s.port e).version (o.txEnob64.getD k 0) (o.txEnob32.getD k 0)
  let mk := marginOf (if 3 ≤ m then o.txEnob64.getD k 0 else o.txEnob32.getD k 0) m
  if m = 0 then eventLaneRemoved e lane k (afterLanes e (retireWave e k false s))
  else if m < x.2.mode then eventMode e lane x.2.mode m mk (modWave e k (fun w => { w with mode := m, txMargin := mk }) s)
  else modWave e k (fun w => { w with txMargin := marginOf (if 3 ≤ w.mode then o.txEnob64.getD k 0 else o.txEnob32.getD k 0) w.mode }) s

/-- What a fast retrain comes to: the lanes of the lane set with their new margins, in force from codeword 0 on, or a
failure, upon which the port goes down (R275, R278). With no measurement the lanes come back as they were. -/
def fastRetrained (e cause : Nat) (o : Option TrainObs) (s : State) : State :=
  let s := fastRetrain e cause s
  match o with
  | none => s
  | some o =>
    if o.failed.isSome then portDown e .retrainFailed s
    else laneSetChanged e ((s.port e).carrying.foldl (retrainLane e o) (modPort e (fun k => { k with rtt := o.rttNs }) s))

/-- EXO_RETRAIN: the host's fast retrain. -/
def execExoRetrain (p : Port) (o : TrainObs) (s : State) : Host.Outcome State Fault Refusal :=
  .next (if ! s.portUp p then s else fastRetrained p 3 (some o) s)

/-- EXO_STEP_UP: each ACTIVE lane below mode_max fast-trains, one after another, at the highest mode its margin allows. -/
def execExoStepUp (p : Port) (enob64 enob32 : List Nat) (s : State) : Host.Outcome State Fault Refusal :=
  .next (
    if ! s.portUp p then s
    else
      ((s.port p).carrying.filter (fun w => w.2.state == 3 && decide (w.2.mode < (s.portRec p).modeMax))).foldl (fun s x =>
        let k := x.1
        let m := chooseMode (s.portRec p) (s.port p).version (enob64.getD k 0) (enob32.getD k 0)
        retrainAlone p k (x.2.lane.getD 0x1F) m (marginOf (if 3 ≤ m then enob64.getD k 0 else enob32.getD k 0) m) s) s)

/-- EXO_ENABLE: a disabled port goes down with its lasers off; an enabled one trains. -/
def execExoEnable (p : Port) (enable : Bool) (s : State) : Host.Outcome State Fault Refusal :=
  .next (
    if enable then
      if (s.port p).enable then s else modPort p (fun k => { k with enable := true, state := 1 }) s
    else
      modPort p (fun k => { k with state := 4, waves := k.waves.map (fun w => (w.1, w.2.down true)) })
        (portDown p .disabled (modPort p (fun k => { k with enable := false }) s)))

end Sys2Proof.Machine
end

