-- ==== Sys2Proof/Machine/Link.lean ====
section
/-! DEFINITION. The link layer of the Exano ports (R266–R277, R289, R292, R293): flit slots, credits, retry, link-control
flits and fault injection. -/

namespace Sys2Proof.Machine

/-! ### Flits as bits (R267, R268) -/

/-- Receive buffer of a class in flits. -/
def classBuffer : FlitClass → Nat
  | .collective => 4096
  | .control => 256
  | .transit => 2048
  | .agreement => 128
  | .management => 64
/-- Guaranteed slots of a class per frame; transit has none below version 1.2 (R279). -/
def classShare (version : Byte) : FlitClass → Nat
  | .collective => 115
  | .control => 3
  | .transit => if version = 0x12#8 then 22 else 0
  | .agreement => 2
  | .management => 1
/-- Class of a code. -/
def classOf : Nat → Option FlitClass
  | 0 => some .collective
  | 1 => some .control
  | 2 => some .transit
  | 3 => some .agreement
  | 4 => some .management
  | _ => none

/-- Bytes 0–251 of a data flit. -/
def flitBody (f : Flit) : List Byte :=
  le 2 (f.cls.code * 8192 + (if f.last then 4096 else 0) + f.tag.toNat) ++ (f.payload ++ List.replicate 250 0#8).take 250
/-- A data flit under its sequence number (R269). -/
def flitBytes (seq : Nat) (f : Flit) : List Byte := flitBody f ++ le 4 (crc32c (le 2 seq ++ flitBody f)).toNat
/-- An idle flit. -/
def idleBytes : List Byte :=
  let b := le 2 (7 * 8192) ++ List.replicate 250 0#8
  b ++ le 4 (crc32c b).toNat
/-- Slot contents as bits, byte 0 lowest. -/
def slotBits (l : List Byte) : BitVec 2048 := BitVec.ofNat 2048 (unle l)
/-- Bytes of a slot. -/
def slotBytes (v : BitVec 2048) : List Byte := le 256 v.toNat

/-! ### The transmitter (R270–R272, R289) -/

/-- A flit of a class is ready and holds a credit (R271); a port below version 1.2 sends no transit (R279). -/
def PortSt.canSend (p : PortSt) (c : FlitClass) : Bool :=
  p.ready.any (fun f => f.cls == c) && (c != .transit || p.version == 0x12#8) &&
  decide ((tabGet 0 p.sent c.code + 65536 - tabGet 0 p.freedFar c.code) % 65536 < classBuffer c)

/-- The class of the next new flit (R270); none while 4,096 flits are unacknowledged (R274). -/
def PortSt.pickClass (p : PortSt) : Option FlitClass :=
  if 4096 ≤ p.retry.length then none
  else
    match ([.agreement, .control, .management, .transit, .collective] : List FlitClass).find? (fun c =>
        p.canSend c && decide (tabGet 0 p.usedInFrame c.code < classShare p.version c)) with
    | some c => some c
    | none => ([.agreement, .control, .transit, .collective, .management] : List FlitClass).find? p.canSend

/-- Partition of a flit of collective data. -/
def Flit.part (f : Flit) : Option Nat :=
  match f.note with
  | .data p _ => some p
  | _ => none
/-- Admission sequence of a flit of collective data. -/
def Flit.adm (f : Flit) : Option Nat :=
  match f.note with
  | .data _ a => a
  | _ => none

/-- Slots per frame that a partition's res_link is worth on port e, rounded up: percent of 234.57 GB/s, which 143 slots carry
at weight 384 (R185, R302). -/
def linkSlots (s : State) (e p : Nat) : Nat := ceilDiv (143 * 384 * ((s.res p).link).getD e 0) (100 * max 1 (s.port e).weight)

/-- The next collective data flit (R302): of admitted work within its partition's share, the lowest admission sequence first;
then what is ready, by partition in round-robin order. `share` gives a partition's slots per frame. The answer says
whether round-robin chose it. -/
def PortSt.pickData (share : Nat → Nat) (p : PortSt) : Option (Flit × Bool) :=
  let l := p.ready.filter (fun f => f.cls == .collective)
  let owed := l.filter (fun f => f.adm.isSome && decide (tabGet 0 p.usedByPart (f.part.getD 8) < share (f.part.getD 8)))
  match owed.find? (fun f => owed.all (fun g => decide (f.adm.getD 0 ≤ g.adm.getD 0))) with
  | some f => some (f, false)
  | none =>
    match (List.range 8).findSome? (fun i => l.find? (fun f => f.part == some ((p.rrPart + 1 + i) % 8))) with
    | some f => some (f, true)
    | none => l.head?.map (fun f => (f, false))

/-- The next flit of a class. -/
def PortSt.nextFlit (share : Nat → Nat) (p : PortSt) (c : FlitClass) : Option (Flit × Bool) :=
  if c = .collective then p.pickData share else (p.ready.find? (fun f => f.cls == c)).map (fun f => (f, false))

/-- Takes the next flit of a class with its sequence number into the retry buffer. -/
def PortSt.take (share : Nat → Nat) (p : PortSt) (c : FlitClass) : Option (Nat × Flit × PortSt) :=
  (p.nextFlit share c).map (fun x =>
    let f := x.1
    (p.nextSeq, f,
      { p with
        ready := p.ready.erase f
        nextSeq := (p.nextSeq + 1) % 65536
        retry := p.retry ++ [(p.nextSeq, f)]
        sent := tabPut 0 p.sent c.code ((tabGet 0 p.sent c.code + 1) % 65536)
        usedInFrame := tabMod 0 p.usedInFrame c.code (fun n => n + 1)
        usedByPart := match f.part with
          | some q => if c = .collective then tabMod 0 p.usedByPart q (fun n => n + 1) else p.usedByPart
          | none => p.usedByPart
        rrPart := if x.2 then f.part.getD p.rrPart else p.rrPart }))

/-- Whether fault injection takes this first transmission, and the state after it (R289). -/
def PortSt.inject (p : PortSt) (c : FlitClass) : Bool × PortSt :=
  if p.injKind = 0 ∨ p.injCount = 0 ∨ p.injMask / 2 ^ c.code % 2 = 0 then (false, p)
  else if p.injNext = 0 then
    (true, { p with injCount := p.injCount - 1, injNext := max 1 p.injInterval, injected := satAdd 15 p.injected 1 })
  else (false, { p with injNext := p.injNext - 1 })

/-- A byte list with bit 0 of byte 2 inverted. -/
def corruptBytes (l : List Byte) : List Byte := l.set 2 (l.getD 2 0 ^^^ 1#8)

/-- What the slot of a new flit carries, and the port after it (R289). A reordered flit is held, and sent in the slot after the
next data flit. -/
def PortSt.newFlit (share : Nat → Nat) (p : PortSt) (n : Nat) (f : Flit) : List Byte × PortSt :=
  let i := p.inject f.cls
  let p1 := i.2
  let sent : PortSt := { p1 with injDue := p1.injHold.isSome }
  if ! i.1 then (flitBytes n f, sent)
  else if p1.injKind = 1 then (idleBytes, p1)
  else if p1.injKind = 2 then (corruptBytes (flitBytes n f), sent)
  else if p1.injHold.isSome then (flitBytes n f, sent)
  else
    match p1.pickClass.bind (p1.take share) with
    | none => (idleBytes, { p1 with injHold := some (n, f) })
    | some (n2, f2, p2) => (flitBytes n2 f2, { (p2.inject f2.cls).2 with injHold := some (n, f), injDue := true })

/-- What a data slot carries, and the port after it (R270). -/
def PortSt.dataSlot (share : Nat → Nat) (p : PortSt) : List Byte × PortSt :=
  match p.replay, p.injHold.filter (fun _ => p.injDue) with
  | (n, f) :: rest, _ => (flitBytes n f, { p with replay := rest, usedInFrame := tabMod 0 p.usedInFrame f.cls.code (fun n => n + 1) })
  | [], some (n, f) => (flitBytes n f, { p with injHold := none, injDue := false })
  | [], none =>
    match p.pickClass.bind (p.take share) with
    | none => (idleBytes, p)
    | some (n, f, p1) => p1.newFlit share n f

/-- Bit fields of a link-control flit, as (lowest bit, value). -/
def placeFields (l : List (Nat × Nat)) : Nat := (l.map (fun x => x.2 * 2 ^ x.1)).sum

/-- The LCF that the port sends (R276). -/
def PortSt.lcf (p : PortSt) : List Byte :=
  let waves := List.range 18
  let margins := waves.map (fun k => (1512 + 8 * k, (BitVec.ofInt 8 (p.wave k).rxMargin).toNat))
  let powers := waves.map (fun k => (1296 + 12 * k, (BitVec.ofInt 12 (p.wave k).monR).toNat))
  let lanes := (List.range 16).map (fun l =>
    match p.carrying.find? (fun w => w.2.lane == some l) with
    | some w => (1168 + 8 * l, w.1 % 32 + w.2.mode * 32)
    | none => (1168 + 8 * l, 0))
  let chg : List (Nat × Nat) :=
    match p.partnerLcf, p.changes with
    | some c, _ => [(1104, c.toNat % 2 ^ 64), (1111, 1)]
    | none, c :: _ => [(1164, c.kind), (1160, c.lane % 16), (1155, c.wave % 32), (1152, c.mode % 8), (1120, c.point % 2 ^ 32), (1112, c.id % 256)]
    | none, [] => []
  let credits := (List.range 5).map (fun c => (1024 + 16 * c, if c = 2 && p.version != 0x12#8 then 0 else tabGet 0 p.freed c % 65536))
  let n := placeFields (margins ++ powers ++ lanes ++ chg ++ credits ++
    [(1008, p.rxExpect), (992, if p.await then p.rxExpect else 0), (991, if p.await then 1 else 0), (960, p.nextSeq),
     (96, p.frame % 2 ^ 32), (88, p.version.toNat), (0, 0xA5C35A3C0F9669F0)])
  let b := le 252 n
  b ++ le 4 (crc32c b).toNat

/-- One slot of a port that is up. -/
def slotStep (share : Nat → Nat) (k : PortSt) : PortSt :=
  let o : List Byte × PortSt := if k.slotNo = 0 then (k.lcf, { k with partnerLcf := none }) else k.dataSlot share
  let q := o.2
  let bits := q.slotBits + 2048
  let wrap := decide (k.slotNo = 143)
  { q with
    out := some (slotBits o.1)
    slotNo := if wrap then 0 else k.slotNo + 1
    frame := if wrap then (q.frame + 1) % 2 ^ 32 else q.frame
    usedInFrame := if wrap then [] else q.usedInFrame
    usedByPart := if wrap then [] else q.usedByPart
    codeword := q.codeword + bits / 5140
    slotBits := bits % 5140 }

/-- TX_SLOT: slot 0 of a frame carries the LCF, the others data. What monitors and receivers have measured since the last
measurement is taken first (R265, R280). -/
def execTxSlot (p : Port) (s : State) (measured : Option Measure := none) : Host.Outcome State Fault Refusal :=
  .next (
    if ! s.portUp p then s
    else
      let s := match measured with
        | some m => takeMeasure p m s
        | none => s
      let s := if (s.port p).slotNo = 0 then emptyCheck p s else s
      let k := slotStep (linkSlots s p) (s.port p)
      freeThrough ((k.retry.drop (s.port p).retry.length).map (fun x => x.2)) (modPort p (fun _ => k) s))

/-! ### The receiver (R272, R301) -/

/-- A payload is a control flit of a stream (R303): its ends, group and collective, in either direction. -/
def isCtlOf (c : StreamCtl) (payload : List Byte) : Bool :=
  let tail := le 2 c.group.toNat ++ le 4 c.seq.toNat
  (payload.drop 1).take 15 == List.replicate 15 0#8 &&
  ((payload.drop 18).take 14 == le 4 c.src.toNat ++ le 4 c.dst.toNat ++ tail ||
   (payload.drop 18).take 14 == le 4 c.dst.toNat ++ le 4 c.src.toNat ++ tail)

/-- Where a flit goes on to from this module, and as what: a stream's data in the transit class under its next tag, over a port
that carries transit (R279, R301), a message of the agreement class along its route (R327). -/
def passOn (e : Nat) (f : Flit) (s : State) : Option (Nat × Flit) :=
  if s.node.isNone then none
  else if f.cls = .agreement then
    let hop := unle ((f.payload.drop 22).take 1)
    if unle ((f.payload.drop 23).take 1) ≤ hop then none
    else
      some (unle ((f.payload.drop 24).take 8) / 16 ^ hop % 16 % 8,
        { f with payload := f.payload.take 22 ++ le 1 (hop + 1) ++ f.payload.drop 23, note := .through e .agreement })
  else if f.cls = .collective ∨ f.cls = .transit then
    (s.col.streams.find? (fun x => x.inPort == some e && ! x.waiting && x.ctl.tag == f.tag && ! isCtlOf x.ctl f.payload)).bind
      (fun x => (x.outPort.filter (fun o => (s.port o).version == 0x12#8)).map (fun o =>
        (o, { f with cls := .transit, tag := x.outTag, note := .through e f.cls })))
  else none

/-- Delivers a flit: one in passing goes on and keeps its buffer until it leaves; a flit of this module waits in its class
buffer until the last flit of its packet is there, and then the packet's buffers are free (R271, R272). -/
def deliverFlit (e : Nat) (f : Flit) (s : State) : State :=
  match passOn e f s with
  | some (o, g) => sendFlit o g s
  | none =>
    modPort e (fun p =>
      let mine := p.rx.filter (fun g => g.cls == f.cls && g.tag == f.tag)
      if f.last then
        { p with rx := p.rx.filter (fun g => ! (g.cls == f.cls && g.tag == f.tag))
                 freed := tabPut 0 p.freed f.cls.code ((tabGet 0 p.freed f.cls.code + 1 + mine.length) % 65536) }
      else { p with rx := p.rx ++ [f] }) s

/-- DATA_FLIT_RECEIVE. -/
def execDataFlitReceive (p : Port) (flit : BitVec 2048) (s : State) : Host.Outcome State Fault Refusal :=
  .next (
    if ! s.portUp p then s
    else
      let s := rxAdvance p s
      let b := slotBytes flit
      let body := b.take 252
      let crc := unle (b.drop 252)
      let hdr := unle (b.take 2)
      let e := (s.port p).rxExpect
      let bad := modPort p (fun k => { k with await := true }) s
      if hdr / 8192 = 7 then (if crc = (crc32c body).toNat then s else bad)
      else
        match classOf (hdr / 8192) with
        | none => bad
        | some c =>
          if crc ≠ (crc32c (le 2 e ++ body)).toNat then bad
          else
            deliverFlit p { cls := c, last := hdr / 4096 % 2 == 1, tag := BitVec.ofNat 12 hdr, payload := body.drop 2 }
              (modPort p (fun k => { k with rxExpect := (e + 1) % 65536, await := false }) s))

/-! ### Link-control flits (R272, R273, R276, R281, R283) -/

/-- Frees retry-buffer entries below ack_seq. -/
def ackRetry (ack : Nat) (l : List (Nat × Flit)) : List (Nat × Flit) :=
  l.filter (fun x => ! (decide (0 < (ack + 65536 - x.1) % 65536) && decide ((ack + 65536 - x.1) % 65536 ≤ 32768)))

/-- A nack for N: every flit from N onward is replayed, a second time from the same N only after a round trip; 16 replays in
a row end in a fast retrain, which finds what `o` says (R273). -/
def nackReplay (e n : Nat) (o : Option TrainObs) (s : State) : State :=
  let p := s.port e
  if p.replayFrom = some n && decide (s.now < p.replayAt + p.rtt) then s
  else
    let run := if p.replayFrom = some n then p.replayRun + 1 else 1
    let s := modPort e (fun p =>
      { p with replay := p.retry.dropWhile (fun x => x.1 != n), replayFrom := some n, replayAt := s.now, replayRun := run,
               replays := satAdd 15 p.replays 1, injHold := none, injDue := false }) s
    if 16 ≤ run then fastRetrained e 1 o s else s

/-- What the far receiver reports of a transmit wavelength, and what follows: a hold or its end, a spare, a loss located. -/
def noteFar (e : Nat) (n : Nat) (s : State) (k : Nat) : State :=
  let m : Int := (BitVec.ofNat 8 (n / 2 ^ (1512 + 8 * k))).toInt
  let r : Int := (BitVec.ofNat 12 (n / 2 ^ (1296 + 12 * k))).toInt
  let s := modWave e k (fun w =>
    { w with txMargin := m, farR := r, lowAt := if m < 5 && w.state == 3 then (match w.lowAt with | some t => some t | none => some s.now) else none }) s
  let w := (s.port e).wave k
  if w.state = 3 ∧ m = -128 then enterHold e k 2 0 s
  else if w.state = 4 ∧ m ≠ -128 ∧ w.holdBy.contains 2 then leaveHold e k 2 s
  else if w.state = 3 then locateLoss e k (if m < ((s.portRec e).spareMarginDb : Int) then startSpare e k 2 s else s)
  else s

/-- The partner's lane map: the lanes and modes of the receive wavelengths. -/
def noteLaneMap (e n : Nat) (s : State) : State :=
  let l := (List.range 16).map (fun i => (i, n / 2 ^ (1168 + 8 * i) % 256))
  (List.range 18).foldl (fun s k =>
    let x := l.find? (fun v => v.2 % 32 == k && v.2 / 32 != 0)
    modWave e k (fun w => { w with rxLane := x.map (fun v => v.1), rxMode := (x.map (fun v => v.2 / 32)).getD 0 }) s) s

/-- The change that an LCF proposes, its switch point taken as the next codeword index of the receive direction with these low
32 bits. -/
def proposalOf (p : PortSt) (n : Nat) : Change :=
  let low := n / 2 ^ 1120 % 2 ^ 32
  { kind := n / 2 ^ 1164 % 16, lane := n / 2 ^ 1160 % 16, wave := n / 2 ^ 1155 % 32, mode := n / 2 ^ 1152 % 8
    point := p.rxCodeword + (low + 2 ^ 32 - p.rxCodeword % 2 ^ 32) % 2 ^ 32, id := n / 2 ^ 1112 % 256, confirmed := true }

/-- A valid LCF is taken. A confirmation counts that comes at least 64 codewords before the switch point it names (R277). -/
def takeLcf (e n : Nat) (o : Option TrainObs) (s : State) : State :=
  let ack := n / 2 ^ 1008 % 65536
  let chg := n / 2 ^ 1104 % 2 ^ 64
  let confirm := decide (n / 2 ^ 1111 % 2 = 1)
  let proposes := decide (n / 2 ^ 1164 % 16 ≠ 0) && ! confirm
  let s := modPort e (fun p =>
    let retry := ackRetry ack p.retry
    let passed := match p.replayFrom with
      | some k => decide (0 < (ack + 65536 - k) % 65536) && decide ((ack + 65536 - k) % 65536 ≤ 32768)
      | none => false
    { p with
      lcfBad := 0
      lastLcf := s.now
      freedFar := (List.range 5).foldl (fun t c => tabPut 0 t c (if c = 2 && p.version != 0x12#8 then 0 else n / 2 ^ (1024 + 16 * c) % 65536)) []
      retry := retry
      replay := p.replay.filter (fun x => retry.any (fun y => y.1 == x.1))
      replayFrom := if passed then none else p.replayFrom
      replayRun := if passed then 0 else p.replayRun
      await := p.await || n / 2 ^ 960 % 65536 != p.rxExpect
      changes := if confirm then
          p.changes.map (fun c =>
            if c.id = n / 2 ^ 1112 % 256 ∧ c.point % 2 ^ 32 = n / 2 ^ 1120 % 2 ^ 32 ∧ p.codeword + 64 ≤ c.point then
              { c with confirmed := true }
            else c)
        else p.changes
      rxChanges := if proposes then p.rxChanges.filter (fun c => c.id != n / 2 ^ 1112 % 256) ++ [proposalOf p n] else p.rxChanges
      partnerLcf := if proposes then some (BitVec.ofNat 64 chg) else p.partnerLcf }) s
  let s := if n / 2 ^ 991 % 2 = 1 then nackReplay e (n / 2 ^ 992 % 65536) o s else s
  emptyCheck e (retrySpares e ((List.range 18).foldl (noteFar e n) (noteLaneMap e n s)))

/-- LCF_RECEIVE: one whose CRC or sync word is wrong is discarded and counted; eight in a row whose CRC fails end in a fast
retrain, which finds what `retrained` says (R273, R276). -/
def execLcfReceive (p : Port) (lcf : BitVec 2048) (s : State) (retrained : Option TrainObs := none) :
    Host.Outcome State Fault Refusal :=
  .next (
    if ! s.portUp p then s
    else
      let s := rxAdvance p s
      let b := slotBytes lcf
      let n := unle (b.take 252)
      let good := decide (unle (b.drop 252) = (crc32c (b.take 252)).toNat)
      if good && decide (n % 2 ^ 64 = 0xA5C35A3C0F9669F0) then takeLcf p n retrained s
      else
        let s := modPort p (fun k => { k with lcfLost := satAdd 15 k.lcfLost 1, lcfBad := if good then 0 else k.lcfBad + 1 }) s
        if 8 ≤ (s.port p).lcfBad then fastRetrained p 2 retrained s else s)

/-! ### EXO_INJ_Ep and EXO_CNT_Ep (R292, R293) -/

/-- EXO_INJ_WRITE: an interval of 0 stores 1 and counts as a clamp (R33). -/
def execExoInjWrite (p : Port) (value : BitVec 64) (s : State) (half : RegHalf := .full) : Host.Outcome State Fault Refusal :=
  .next (
    let k := s.port p
    let old := BitVec.ofNat 64 (k.injInterval * 2 ^ 32 + k.injCount * 65536 + k.injMask * 256 + k.injKind)
    let v := (mergeHalf old half value).toNat
    let iv := v / 2 ^ 32 % 65536
    let s := if iv = 0 ∧ half ≠ .low then clampDevice [0x15] s else s
    modPort p (fun k => { k with injInterval := if half = .low then k.injInterval else max 1 iv, injCount := v / 65536 % 65536, injMask := v / 256 % 32, injKind := v % 4, injNext := 0 }) s)

/-- EXO_CNT_CLEAR. -/
def execExoCntClear (p : Port) (s : State) : Host.Outcome State Fault Refusal :=
  .next (modPort p (fun k => { k with injected := 0, replays := 0, holds := 0, lcfLost := 0 }) s)

end Sys2Proof.Machine
end

