-- ==== Sys2Proof/Machine/Host.lean ====
section
/-! DEFINITION. The host interface (R349–R374): the BAR2 window, register accesses without a row of their own, the link,
ABI negotiation, MSI-X and the host DMA engines, and the read pointers of the rings (R134, R194, R451). -/

namespace Sys2Proof.Machine

/-! ### The DVA window (R361–R363) -/

/-- PCI_WIN_Fk: the DVA at BAR2 offset 0 and the partition. -/
def State.winOf (s : State) (fn : Nat) : Nat × Nat :=
  let w := tabGet ((0 : BitVec 52), 0) s.pci.win fn
  (w.1.toNat, if fn = 0 then w.2 else fn - 1)

/-- The host's access through BAR2 of a function (R206, R474). -/
def hostAcc (fn p : Nat) : Acc := { part := p, agent := 7, t0only := false, cmd := none, q := 0xFFFE, pos := fn }

/-- HOST_BAR2_ACCESS; a poisoned write is discarded, logged by AER and recorded (R363). -/
def execHostBar2Access (fn : Func) (offset : Nat) (acc : Bar2Access) (errs : List ReadError) (s : State) :
    Host.Outcome State Fault Refusal :=
  .next (
    let w := s.winOf fn
    let a := hostAcc fn w.2
    let dva := w.1 + offset
    match acc with
    | .poisoned _ =>
      eventD 0x0907 1 (le 1 fn.val ++ le 1 2 ++ le 8 offset)
        (modPci (fun p => { p with cfg := tabMod {} p.cfg 0 (fun c => { c with poisoned := some fn.val }) }) s)
    | .read len =>
      whenReached (readsOf a [(dva, len)]) (fun s =>
        let data := overlay w.2 errs dva (s.readBytes a dva len)
        let s1 := modPci (fun p => { p with bar2Data := data }) (touchRead a false dva len s)
        noteErrors 7 errs (eventUnmapped a (s.unmappedIn w.2 dva len) s1)) s
    | .write data =>
      whenReached (writesOf a [(dva, data.length)]) (meetErrors a errs (fun s =>
        eventUnmapped a (s.unmappedIn w.2 dva data.length) (memWrite a dva data s))) s)

/-! ### The register maps (R357, R359) -/

/-- Offsets lo + step × n, n below a count, each followed by the registers at the given displacements. -/
def atGrid (o lo step n : Nat) (regs : List Nat) : Bool :=
  decide (lo ≤ o) && decide ((o - lo) / step < n) && regs.contains ((o - lo) % step)

/-- An offset of PF BAR0 holds a register: by block, from the register tables of the chapters. -/
def pfRegister (off : Nat) : Bool :=
  let o := off % 0x01000000
  match off / 0x01000000 with
  | 0x01 => atGrid o 0 8 17 [0] || atGrid o 0x0100 8 4 [0] || o == 0x0180
  | 0x02 => o == 0
  | 0x03 =>
    atGrid o 0 0x20 256 [0, 8, 0x10] || atGrid o 0x2000 0x10 8 [0, 8] || atGrid o 0x2100 8 8 [0] ||
    atGrid o 0x00100000 8 65536 [0]
  | 0x04 =>
    o == 0 || atGrid o 0x0040 8 8 [0] || atGrid o 0x0080 8 8 [0] || atGrid o 0x0100 0x40 3 [0, 8, 16, 24, 32, 40, 48, 56] ||
    atGrid o 0x0200 8 8 [0] || atGrid o 0x0300 8 3 [0] || atGrid o 0x1000 0x40 8 [0, 8, 16, 24, 32] ||
    atGrid o 0x2000 8 8 [0]
  | 0x05 => o == 0 || o == 8 || atGrid o 0x0100 8 8 [0]
  | 0x06 =>
    decide (o < 0x8000) &&
    (let r := o % 0x1000
     atGrid r 0 8 5 [0] || atGrid r 0x0100 0x10 18 [0, 8])
  | 0x07 => o == 0 || atGrid o 0x0100 8 8 [0] || atGrid o 0x0200 8 8 [0] || o == 0x0300
  | 0x08 => atGrid o 0 8 6 [0]
  | 0x09 =>
    o == 0 || o == 8 || o == 0x0018 || atGrid o 0x0100 8 9 [0] || atGrid o 0x0200 8 9 [0] || atGrid o 0x0400 8 3 [0] ||
    atGrid o 0x1000 0x20 16 [0, 8, 0x10] || atGrid o 0x00010000 8 4096 [0] || atGrid o 0x00020000 8 32 [0]
  | 0x0A => atGrid o 0 8 7 [0]
  | 0x0B => o == 0 || atGrid o 0x0040 8 8 [0]
  | 0x0C => atGrid o 0 8 4 [0]
  | 0x0D => o == 0
  | 0x0E =>
    atGrid o 0 8 5 [0] || atGrid o 0x0100 0x40 8 [0, 8, 16, 24, 32, 40] || atGrid o 0x1000 8 1024 [0] ||
    atGrid o 0x00010000 8 1920 [0] || atGrid o 0x00014000 8 1920 [0] || atGrid o 0x00018000 8 4096 [0] ||
    atGrid o 0x00020000 8 128 [0] || atGrid o 0x00020400 8 64 [0] || atGrid o 0x00020800 8 256 [0]
  | _ => false

/-- A register of VF BAR0 by its PF offset, for the VF of partition n; none for an offset that holds none (R359). -/
def vfRegister (n o : Nat) : Option Nat :=
  if o = 0 then some (0x09000100 + 8 * (n + 1))
  else if o = 8 then some (0x09000200 + 8 * (n + 1))
  else if atGrid o 0x1000 0x20 32 [0, 8, 0x10] then some (0x03000000 + 0x20 * (32 * n) + (o - 0x1000))
  else if o = 0x2000 ∨ o = 0x2008 then some (0x03002000 + 0x10 * n + (o - 0x2000))
  else if o = 0x2010 then some (0x03002100 + 8 * n)
  else if atGrid o 0x2040 8 5 [0] then some (0x04001000 + 0x40 * n + (o - 0x2040))
  else if o = 0x2080 ∨ o = 0x2088 then some (0x0E000118 + 0x40 * n + (o - 0x2080))
  else if atGrid o 0x3000 0x20 16 [0, 8, 0x10] then some (0x09001000 + (o - 0x3000))
  else if atGrid o 0x20000 0x1000 32 [0] then some (0x03000010 + 0x20 * (32 * n + (o - 0x20000) / 0x1000))
  else none

/-- Event 0x0902. -/
def noRegister (fn off : Nat) (s : State) : State := eventD 0x0902 1 (le 1 fn ++ le 4 off) s
/-- Event 0x0901. -/
def misaligned (fn off : Nat) (s : State) : State := eventD 0x0901 1 (le 1 fn ++ le 4 off) s

/-- NO_REGISTER_ACCESS. -/
def execNoRegisterAccess (fn : Func) (offset : BitVec 32) (s : State) : Host.Outcome State Fault Refusal :=
  .next (noRegister fn offset.toNat s)

/-- MISALIGNED_REGISTER_ACCESS. -/
def execMisalignedRegisterAccess (fn : Func) (offset : BitVec 32) (s : State) : Host.Outcome State Fault Refusal :=
  .next (misaligned fn offset.toNat s)

/-! ### Register writes (R8–R10) -/

/-- A write touches bits 31:0. -/
def touchesLow : RegHalf → Bool
  | .high => false
  | _ => true

/-- The source's vector field has been written again (R365). -/
def revector (source : Nat) (half : RegHalf) (s : State) : State :=
  if touchesLow half then modPci (fun p => { p with badVec := p.badVec.filter (fun x => x != source) }) s else s

/-- A size_code that a write leaves (R165, R194, R368, R451): 11–15 and a locked field keep the old one. -/
def newSize (locked : Bool) (old : Nat) (w : BitVec 64) : Nat :=
  let c := (w.extractLsb' 0 4).toNat
  if locked || decide (11 ≤ c) then old else c

/-- Bits 51:12 of a DVA register. -/
def dvaBase (w : BitVec 64) : BitVec 52 := w.extractLsb' 12 40 ++ 0#12
/-- Bits 63:12 of a host address register. -/
def hostBase (w : BitVec 64) : BitVec 64 := w.extractLsb' 12 52 ++ 0#12

/-- TCS_Qn_BASE and the fields of TCS_Qn_CTL without a row of their own (R165). -/
def writeQueueReg (q reg : Nat) (half : RegHalf) (v : BitVec 64) (s : State) : State :=
  let k := s.queue q
  if reg = 0 then
    if k.enable then s else setQueue q { k with base := dvaBase (mergeHalf (k.base.setWidth 64) half v) } s
  else if reg = 8 then
    let w := mergeHalf (BitVec.ofNat 64 (k.vector * 1024 + k.sizeCode)) half v
    revector q half (setQueue q { k with vector := (w.extractLsb' 10 11).toNat, sizeCode := newSize k.enable k.sizeCode w } s)
  else s

/-- TCS_RESP_BASE_Pn (R194). -/
def writeRespReg (p : Nat) (half : RegHalf) (v : BitVec 64) (s : State) : State :=
  let r := s.respRing p
  let w := mergeHalf (r.base.setWidth 64 ||| BitVec.ofNat 64 r.sizeCode) half v
  setResp p { r with base := dvaBase w, sizeCode := newSize false r.sizeCode w } s

/-- MEM_RGN_ARGk_Pn (R204). -/
def writeMailReg (p j : Nat) (half : RegHalf) (v : BitVec 64) (s : State) : State :=
  modMem (fun m => { m with mbox := tabPut 0 m.mbox (4 * p + j) (mergeHalf (tabGet 0 m.mbox (4 * p + j)) half v) }) s

/-- PCI_WIN_Fk (R363). -/
def writeWinReg (k : Nat) (half : RegHalf) (v : BitVec 64) (s : State) : State :=
  let w0 := tabGet ((0 : BitVec 52), 0) s.pci.win k
  let w := mergeHalf (w0.1.setWidth 64 ||| BitVec.ofNat 64 w0.2) half v
  let new : BitVec 52 × Nat := (w.extractLsb' 21 31 ++ 0#21, if k = 0 then (w.extractLsb' 0 3).toNat else w0.2)
  modPci (fun p => { p with win := tabPut ((0 : BitVec 52), 0) p.win k new }) s

/-- A DMA engine. -/
def State.dma (s : State) (d : Nat) : Dma := tabGet {} s.pci.dma d
/-- Replaces a DMA engine. -/
def setDma (d : Nat) (v : Dma) (s : State) : State := modPci (fun p => { p with dma := tabPut {} p.dma d v }) s

/-- PCI_DMA_BASEd and the fields of PCI_DMA_CTLd without a row of their own. -/
def writeDmaReg (d reg : Nat) (half : RegHalf) (v : BitVec 64) (s : State) : State :=
  let k := s.dma d
  if reg = 0 then setDma d { k with base := hostBase (mergeHalf k.base half v) } s
  else if reg = 8 then
    let w := mergeHalf (BitVec.ofNat 64 (k.vector * 1024 + k.sizeCode)) half v
    revector (0x100 + d) half
      (setDma d { k with vector := (w.extractLsb' 10 11).toNat, sizeCode := newSize k.enable k.sizeCode w } s)
  else s

/-- A vector is unmasked: a request that waited is raised now (R365, R366). -/
def unmaskVector (fn vec : Nat) (s : State) : State :=
  let m := s.msixEntry fn vec
  let s1 := setMsix fn vec { m with masked := false, pendingBit := false } s
  if m.pendingBit then requestMsix fn vec s1 else s1

/-- One half of an MSI-X table entry: the address, or data and vector control (R364, R365). -/
def writeMsixReg (fn vec reg : Nat) (half : RegHalf) (v : BitVec 64) (s : State) : State :=
  let m := s.msixEntry fn vec
  if reg = 0 then setMsix fn vec { m with addr := mergeHalf m.addr half v } s
  else
    let w := mergeHalf ((BitVec.ofNat 32 (if m.masked then 1 else 0)) ++ m.data) half v
    let s1 := setMsix fn vec { m with data := w.extractLsb' 0 32, masked := w.getLsbD 32 } s
    if w.getLsbD 32 then s1 else unmaskVector fn vec s1

/-- The registers of the PF device ring without a row of their own (R451). -/
def writeEvtReg (reg : Nat) (half : RegHalf) (v : BitVec 64) (s : State) : State :=
  if reg = 0 then modEvt (fun e => { e with pfBase := hostBase (mergeHalf e.pfBase half v) }) s
  else if reg = 0x10 ∧ touchesLow half then
    let w := mergeHalf 0 half v
    let sev := (w.extractLsb' 6 2).toNat
    let s1 := modEvt (fun e => { e with pfMinSev := if sev = 0 then 1 else sev, pfSize := newSize false e.pfSize w }) s
    if sev = 0 then clampDevice [0x16] s1 else s1
  else s

/-- A write to a register of PF BAR0: fields that have a row of their own, and fields that ignore writes, keep their
value. -/
def writePf (off : Nat) (half : RegHalf) (v : BitVec 64) (s : State) : State :=
  let o := off % 0x01000000
  match off / 0x01000000 with
  | 0x03 =>
    if o < 0x2000 then writeQueueReg (o / 0x20) (o % 0x20) half v s
    else if o < 0x2080 ∧ o % 0x10 = 0 then writeRespReg ((o - 0x2000) / 0x10) half v s
    else s
  | 0x04 =>
    if 0x1000 ≤ o ∧ o < 0x1200 ∧ o % 0x40 < 0x20 then writeMailReg ((o - 0x1000) / 0x40) (o % 0x40 / 8) half v s else s
  | 0x09 =>
    if 0x0200 ≤ o ∧ o < 0x0248 then writeWinReg ((o - 0x0200) / 8) half v s
    else if 0x0400 ≤ o ∧ o ≤ 0x0410 then writeEvtReg (o - 0x0400) half v s
    else if 0x1000 ≤ o ∧ o < 0x1200 then writeDmaReg ((o - 0x1000) / 0x20) (o % 0x20) half v s
    else if 0x00010000 ≤ o ∧ o < 0x00018000 then writeMsixReg 0 ((o - 0x00010000) / 0x10) (o % 0x10) half v s
    else s
  | 0x0A =>
    if o = 0x0018 ∧ touchesLow half then modWmc (fun w => { w with sensorSel := v.extractLsb' 0 16 }) s else s
  | _ => s

/-- REGISTER_WRITE. -/
def execRegisterWrite (fn : Func) (offset : BitVec 32) (half : RegHalf) (value : BitVec 64) (s : State) :
    Host.Outcome State Fault Refusal :=
  .next (
    let o := offset.toNat
    if o % 8 ≠ 0 then misaligned fn o s
    else if fn.val = 0 then
      if pfRegister o then writePf o half value s else noRegister 0 o s
    else
      let n := fn.val - 1
      match vfRegister n o with
      | some off =>
        if 0x3000 ≤ o ∧ o < 0x3200 ∧ s.dmaOwner ((o - 0x3000) / 0x20) ≠ some n then s else writePf off half value s
      | none =>
        if 0x4000 ≤ o ∧ o < 0x4400 then writeMsixReg fn ((o - 0x4000) / 0x10) (o % 0x10) half value s
        else if o = 0x5000 ∨ (0x80000 ≤ o ∧ o < 0x100000) then s
        else noRegister fn o s)

/-! ### Link and ABI (R350, R373) -/

/-- LINK_CHANGE. -/
def execLinkChange (speed : BitVec 3) (width : BitVec 5) (flit : Bool) (s : State) : Host.Outcome State Fault Refusal :=
  .next (
    if s.pci.speed = speed.toNat ∧ s.pci.width = width.toNat then modPci (fun p => { p with flit := flit }) s
    else
      eventD 0x0905 1
        (le 1 s.pci.speed ++ le 1 s.pci.width ++ le 1 speed.toNat ++ le 1 width.toNat ++ le 1 (if flit then 1 else 0))
        (modPci (fun p =>
          { p with speed := speed.toNat, width := width.toNat, flit := flit, changes := satAdd 16 p.changes 1 }) s))

/-- The partitions a function owns (R352). -/
def State.ownedBy (s : State) (fn : Nat) : List Nat := allParts.filter (fun p => s.ownerFn p == fn)

/-- The first owned partition with an enabled queue or DMA engine. -/
def State.abiBusy (s : State) (fn : Nat) : Option Nat :=
  (s.ownedBy fn).find? (fun p =>
    (List.range 32).any (fun i => (s.queue (32 * p + i)).enable) ||
    (List.range 16).any (fun d => s.dmaOwner d == some p && (s.dma d).enable))

/-- BAR0 offset of PCI_ABI_Fk in its own function. -/
def abiOffset (fn : Nat) : Nat := if fn = 0 then 0x09000100 else 0

/-- PCI_ABI_OFFER: active becomes 1.0 when the offer reaches it, else 0.0. An offer of the PF concerns no single
partition (R446). -/
def execPciAbiOffer (fn : Func) (major minor : Byte) (s : State) : Host.Outcome State Fault Refusal :=
  .next (
    match s.abiBusy fn with
    | some p => eventAbi fn (if fn.val = 0 then none else some p) (abiOffset fn) s
    | none =>
      let new : Abi :=
        { activeMajor := if 1 ≤ major.toNat then 1 else 0, activeMinor := 0, hostMajor := major.toNat, hostMinor := minor.toNat }
      modPci (fun p => { p with abi := tabPut {} p.abi fn new }) s)

/-! ### MSI-X (R365, R366) -/

/-- MSIX_COALESCE_EXPIRE; a vector masked meanwhile keeps the request as its pending bit. -/
def execMsixCoalesceExpire (fn : Func) (vector : BitVec 11) (s : State) : Host.Outcome State Fault Refusal :=
  .next (
    let m := s.msixEntry fn vector.toNat
    if m.merged && (m.sentAt.map (fun t => decide (t + 1000 ≤ s.now))).getD false then
      if vectorMasked s fn vector.toNat then setMsix fn vector.toNat { m with merged := false, pendingBit := true } s
      else sendMsix fn vector.toNat s
    else s)

/-- MSIX_UNMASK. -/
def execMsixUnmask (fn : Func) (vector : BitVec 11) (s : State) : Host.Outcome State Fault Refusal :=
  .next (if vector.toNat < vectorCount fn then unmaskVector fn vector.toNat s else s)

/-! ### Host DMA (R367–R372) -/

/-- Offset of PCI_DMA_CTLd in a function's BAR0. -/
def dmaOffset (fn d reg : Nat) : Nat := (if fn = 0 then 0x09001000 else 0x3000) + 0x20 * d + reg

/-- An event about an engine, naming the partition that owns it. -/
def eventDma (code sev d : Nat) (data : List Byte) (s : State) : State :=
  eventOn code sev (s.dmaOwner d) data s

/-- DMA_DOORBELL. -/
def execDmaDoorbell (d : DmaIdx) (tail : BitVec 32) (s : State) : Host.Outcome State Fault Refusal :=
  .next (
    let k := s.dma d
    if (tail - k.head).toNat ≤ ringSize k.sizeCode ∧ (tail - k.tail).toNat < 2 ^ 31 then setDma d { k with tail := tail } s
    else eventDma 0x0908 2 d (le 2 d.val ++ le 4 k.tail.toNat ++ le 4 tail.toNat) s)

/-- DMA_ENABLE; an engine that is enabled already stays as it is. -/
def execDmaEnable (fn : Func) (d : DmaIdx) (enable : Bool) (s : State) : Host.Outcome State Fault Refusal :=
  .next (
    let k := s.dma d
    match s.dmaOwner d with
    | none => if enable then s else setDma d { k with enable := false, state := 0 } s
    | some p =>
      if fn.val ≠ 0 ∧ fn.val ≠ p + 1 then s
      else if ! enable then setDma d { k with enable := false, state := if k.cur.isSome then k.state else 0 } s
      else if k.enable then s
      else
        match enableBlock fn d p (dmaOffset fn d 8) s with
        | some s1 => s1
        | none => setDma d { k with enable := true, state := 1, head := k.tail } s)

/-- The engine's access to DVA space (R206, R474). -/
def dmaAcc (p d : Nat) : Acc := { part := p, agent := 8, t0only := false, cmd := none, q := 0xFFFE, pos := 0x100 + d }

/-- Moves the bytes of a descriptor up to a count, in ascending address; the first address in no region is recorded
(R210, R368). -/
def dmaMove (p d : Nat) (c : DmaCur) (upto : Nat) (s : State) : State × DmaCur :=
  let n := upto - c.moved
  let dva := fld c.desc 64 52 + c.moved
  let a := dmaAcc p d
  let um := s.unmappedIn p dva n
  let s1 :=
    if fld c.desc 176 1 = 0 then memWrite a dva ((c.data.drop c.moved).take n) s
    else touchRead a false dva n
      (hostWriteRo (s.pciCfg (s.ownerFn p)).relaxed (fld c.desc 0 64 + c.moved) (s.readBytes a dva n) s)
  let s2 := if c.status = 0 then eventUnmapped a um s1 else s1
  (s2, { c with moved := max c.moved upto, status := if c.status = 0 && um.isSome then 1 else c.status })

/-- The accesses of a descriptor's bytes up to a count. -/
def dmaAccess (p d : Nat) (c : DmaCur) (upto : Nat) : List Access :=
  let l := [(fld c.desc 64 52 + c.moved, upto - c.moved)]
  if fld c.desc 176 1 = 0 then writesOf (dmaAcc p d) l else readsOf (dmaAcc p d) l

/-- DMA_DESCRIPTOR_START: the host's memory gives the descriptor of the head slot and, for dir 0, the bytes of its
range; the first of them move in this step. -/
def execDmaDescriptorStart (d : DmaIdx) (desc : CmdWord) (data : List Byte) (moved : Nat)
    (s : State) (errs : List ReadError := []) :
    Host.Outcome State Fault Refusal :=
  .next (
    let k := s.dma d
    match s.dmaOwner d with
    | none => s
    | some p =>
      if ! k.enable || k.state != 1 || k.cur.isSome || k.head == k.tail then s
      else
        let len := fld desc 128 32
        let c : DmaCur := { desc := desc, data := (data ++ List.replicate len 0#8).take len, moved := 0, status := 0 }
        whenReached (dmaAccess p d c (min moved len)) (meetErrors (dmaAcc p d) errs (fun s =>
          let r := dmaMove p d c (min moved len) s
          setDma d { r.1.dma d with cur := some r.2 } r.1)) s)

/-- Completion of a descriptor: the write-back, then sig_en, then irq_en; the engine goes on to the next (R370). -/
def dmaComplete (p d : Nat) (c : DmaCur) (s : State) : State :=
  let k := s.dma d
  let slot := k.base.toNat + 32 * (k.head.toNat % ringSize k.sizeCode)
  let s1 := hostWrite (slot + 24) (List.replicate 7 0#8 ++ le 1 (128 + c.status)) s
  let s2 := setDma d { k with head := k.head + 1, cur := none, state := if k.enable then 1 else 0 } s1
  let s3 :=
    if fld c.desc 177 1 = 1 then
      match s2.keeperOf p (fld c.desc 160 16) with
      | some i => setKeeper i (s2.keeper i + 1) s2
      | none => eventKeeper p 0xFFFE (0x100 + d) (fld c.desc 160 16) s2
    else s2
  if fld c.desc 178 1 = 1 then raiseVector (s3.ownerFn p) k.vector (0x100 + d) s3 else s3

/-- DMA_DESCRIPTOR_COMPLETE: the rest of the range moves, and the descriptor completes. -/
def execDmaDescriptorComplete (d : DmaIdx) (s : State) (errs : List ReadError := []) : Host.Outcome State Fault Refusal :=
  .next (
    match s.dmaOwner d, (s.dma d).cur with
    | some p, some c =>
      whenReached (dmaAccess p d c (fld c.desc 128 32)) (meetErrors (dmaAcc p d) errs (fun s =>
        let r := dmaMove p d c (fld c.desc 128 32) s
        dmaComplete p d r.2 r.1)) s
    | _, _ => s)

/-- DMA_HOST_REQUEST_FAIL: kind 1 Unsupported Request, 2 Completer Abort, 3 completion timeout, 4 poisoned data. The
bytes below the failing host address stay moved; a failed fetch of the descriptor moves nothing. -/
def execDmaHostRequestFail (d : DmaIdx) (kind : BitVec 8) (hostAddr : BitVec 64) (s : State) :
    Host.Outcome State Fault Refusal :=
  .next (
    let k := s.dma d
    let ev (p : Nat) (s : State) : State :=
      eventP 0x0906 2 p (le 2 d.val ++ le 1 p ++ le 4 k.head.toNat ++ le 1 kind.toNat ++ le 8 hostAddr.toNat) s
    match s.dmaOwner d with
    | none => s
    | some p =>
      match k.cur with
      | some c =>
        let upto := min (fld c.desc 128 32) (hostAddr.toNat - fld c.desc 0 64)
        whenReached (dmaAccess p d c (max c.moved upto)) (fun s =>
          let r := dmaMove p d c (max c.moved upto) s
          ev p (dmaComplete p d { r.2 with status := 2 } r.1)) s
      | none =>
        if k.enable && k.state == 1 && k.head != k.tail then
          ev p (dmaComplete p d { desc := 0, data := [], moved := 0, status := 2 } s)
        else s)

/-- Stops an engine under R372: at the next 4 KiB boundary of its range, without write-back, signal or interrupt. -/
def abortDma (d : Nat) (s : State) : State :=
  let s1 :=
    match s.dmaOwner d, (s.dma d).cur with
    | some p, some c => (dmaMove p d c (min (fld c.desc 128 32) (ceilDiv c.moved 4096 * 4096)) s).1
    | _, _ => s
  let k := s1.dma d
  setDma d { k with head := k.tail, cur := none, state := 0, enable := false } s1

/-- DMA_ABORT. -/
def execDmaAbort (d : DmaIdx) (s : State) : Host.Outcome State Fault Refusal := .next (abortDma d s)

/-! ### Read pointers (R134, R194, R451) -/

/-- RESP_RP_WRITE. -/
def execRespRpWrite (p : Part) (rp : BitVec 16) (s : State) : Host.Outcome State Fault Refusal :=
  .next (setResp p { s.respRing p with rp := rp.toNat % ringSize (s.respRing p).sizeCode } s)

/-- NORM_RP_WRITE; a ring of no records keeps 0. -/
def execNormRpWrite (p : Part) (rp : BitVec 32) (s : State) : Host.Outcome State Fault Refusal :=
  .next (
    let n := (s.part p).normRingRecords
    modCnt (fun c => { c with norm := tabMod {} c.norm p (fun r => { r with rp := if n = 0 then 0 else rp.toNat % n }) }) s)

/-- EVT_RP_WRITE. -/
def execEvtRpWrite (rp : BitVec 16) (s : State) : Host.Outcome State Fault Refusal :=
  .next (modEvt (fun e => { e with pfRp := rp.toNat % ringSize e.pfSize }) s)

end Sys2Proof.Machine
end

