-- ==== Sys2Proof/Machine/Counters.lean ====
section
/-! DEFINITION. Counters and telemetry (R34, R35, R102, R129, R194, R323, R425, R428–R439): the clears, the snapshot of
the stall blocks and the clock edge. -/

namespace Sys2Proof.Machine

/-! ### Clears -/

/-- CNT_CLAMP_CLEAR: a clamp of the same cycle counts after the clear (R35). -/
def execCntClampClear (p : Option Part) (sameCycle : Option Byte) (s : State) : Host.Outcome State Fault Refusal :=
  .next (
    let v : Clamp := match sameCycle with
      | some id => ({} : Clamp).hit id.toNat
      | none => {}
    match p with
    | some k => modCnt (fun c => { c with clamp := tabPut {} c.clamp k.val v }) s
    | none => modCnt (fun c => { c with clampDev := v }) s)

/-- CNT_ACC_CLEAR (R102). -/
def execCntAccClear (p : Part) (s : State) : Host.Outcome State Fault Refusal :=
  .next (modCnt (fun c => { c with acc := tabPut {} c.acc p.val {} }) s)
/-- CNT_LATE_CLEAR (R129). -/
def execCntLateClear (p : Part) (s : State) : Host.Outcome State Fault Refusal :=
  .next (modCnt (fun c => { c with late := tabPut {} c.late p.val {} }) s)
/-- TCS_ADM_CNT_CLEAR (R194). -/
def execTcsAdmCntClear (p : Part) (s : State) : Host.Outcome State Fault Refusal :=
  .next (modTcs (fun t => { t with admCnt := tabPut {} t.admCnt p.val {} }) s)
/-- COL_CNT_CLEAR (R323). -/
def execColCntClear (p : Part) (s : State) : Host.Outcome State Fault Refusal :=
  .next (modCol (fun c => { c with cnt := tabPut {} c.cnt p.val {} }) s)
/-- PWR_CNT_CLEAR (R425). -/
def execPwrCntClear (s : State) : Host.Outcome State Fault Refusal :=
  .next (modPwr (fun w => { w with stretches := 0, excessUs := 0, capEpisodes := 0 }) s)
/-- CNT_SELV_CLEAR (R437). -/
def execCntSelvClear (p : Part) (s : State) : Host.Outcome State Fault Refusal :=
  .next (modCnt (fun c => { c with selv := tabPut {} c.selv p.val {} }) s)
/-- CNT_FILL_CLEAR (R438). -/
def execCntFillClear (s : State) : Host.Outcome State Fault Refusal :=
  .next (modCnt (fun c => { c with fillPeriods := 0, fillUs := 0 }) s)

/-! ### Stall blocks (R430–R433) -/

/-- CNT_STALL_CLEAR: the live counts start again from now. -/
def execCntStallClear (e : StallEngine) (s : State) : Host.Outcome State Fault Refusal :=
  .next (modCnt (fun c => { c with stall := tabPut {} c.stall (stallKey e) { clearedAt := s.now, counts := [] } }) s)

/-- Cycles of an engine's clock since its clear, at a time. -/
def Stall.elapsed (t : Stall) (k now : Nat) : Nat := (now - t.clearedAt) * stallMhz k / 1000

/-- Where a cycle counts: busy (0), under a cause (1–10), idle (11), or as yet unsettled (12): the engine runs, and the spec
gives no timing that tells its waits from its work (notes/assumptions/53.md). -/
abbrev StallSlot := Nat

/-- A command of the array's matrix engine, or of its vector unit. -/
def ofUnit (vector : Bool) (w : CmdWord) : Bool := decide (0x20 ≤ opcodeOf w) == vector

/-- The admission unit holds an envelope that names an array (R431). -/
def State.admissionHolds (s : State) (l : Nat) : Bool :=
  s.tcs.envs.any (fun e => (e.status == .opening || e.status == .queued) && s.arrayOwner l == some e.part &&
    (remainingNodes s e).any (fun n => arrayOf n.w == some l))

/-- The cycle of a matrix engine or a vector unit that its clock does not lose (R13, R431). -/
def unitSlot (s : State) (l : Nat) (vector : Bool) : StallSlot :=
  let own := s.tcs.inflight.filter (fun f =>
    arrayOf f.word == some l && s.arrayOwner l == some (partOfQ f.q) && ! f.done && ofUnit vector f.word)
  match own with
  | [] => if s.admissionHolds l then 2 else if ! vector && s.runsFill l then 10 else 11
  | f :: _ =>
    if own.any (fun g => g.started) then 12
    else if s.tileHeld f then 8
    else if ! vector && s.runsFill l then 10
    else 12

/-- The cycle of a queue (R431). -/
def queueSlot (s : State) (q : Nat) : StallSlot :=
  let k := s.queue q
  if ! k.enable || k.head == k.tail then 11
  else if k.state = 2 then 2
  else
    let w := s.slot q k.head
    let waits := match k.wait with
      | some i => ((s.inflight q i).map (fun f => isOp 0x40 f.word)).getD false
      | none => (fld w 11 1 == 1 && pendingBefore s q k.env) || (isCkptOp (opcodeOf w) && ckptBusy s (partOfQ q))
    if waits || s.wmc.held.contains (partOfQ q) then 3 else 0

/-- Collective data of a partition waits for a credit: a flit of it at a port that holds no credit of the class, or has 4,096
flits unacknowledged (R271, R274), or an OPEN that has no tag (R303). -/
def creditWaits (s : State) (p : Nat) : Bool :=
  s.col.streams.any (fun x => x.waiting && x.inPort.isNone && partOfEnd x.ctl.src == p) ||
  (List.range 8).any (fun e =>
    let k := s.port e
    k.ready.any (fun f => f.part == some p && (decide (4096 ≤ k.retry.length) || ! k.canSend f.cls)))

/-- The cycle of a collective engine: it waits while no collective of the partition may start. -/
def collSlot (s : State) (p : Nat) : StallSlot :=
  match s.col.colls.filter (fun c => c.part == p) with
  | [] => 11
  | l => if ! l.any (fun c => c.running) then 4 else if creditWaits s p then 7 else 12

/-- The cycle of a migration engine. -/
def migrationSlot (s : State) : StallSlot :=
  if s.mem.migrations.isEmpty && ! s.tcs.inflight.any (fun f => engineClass (opcodeOf f.word) == 2 && ! f.done) then 11 else 12

/-- The cycle of a DMA engine. -/
def dmaSlot (s : State) (d : Nat) : StallSlot :=
  let k := s.dma d
  if k.cur.isSome then 12 else if ! k.enable || k.head == k.tail then 11 else 0

/-- Where an engine's present cycle counts, by block. -/
def stallSlot (s : State) (k : Nat) : StallSlot :=
  if k < 128 then unitSlot s k false
  else if k < 256 then unitSlot s (k - 128) true
  else if k < 512 then queueSlot s (k - 256)
  else if k < 520 then collSlot s (k - 512)
  else if k < 528 then migrationSlot s
  else dmaSlot s (k - 528)

/-- How much of a nominal cycle a row's clock loses, in 1/1024 (R416, R417). -/
def RowClk.lost (r : RowClk) (now : Nat) : Nat :=
  let k := match r.recovering with
    | some t => min 16 ((now - t) / 500)
    | none => 16
  stallUnit - (32 - r.applied) * (if r.stretch then 16 else 16 + k)

/-- What an engine loses of each cycle: arrays and vector units follow the clock of their grid row. -/
def lostPart (s : State) (k : Nat) : Nat :=
  if 256 ≤ k then 0 else (tabGet {} s.pwr.rows (s.physOf (k % 128) / 16) : RowClk).lost s.now

/-- Adds cycles to a block: the lost part under thermal_clock, the rest where the present cycle counts; what is idle is
not listed. -/
def Stall.count (t : Stall) (cycles lost : Nat) (j : StallSlot) : Stall :=
  let c := if lost = 0 then t.counts else tabMod 0 t.counts 1 (fun n => n + cycles * lost)
  let rest := cycles * (stallUnit - lost)
  if j = 11 then { t with counts := c }
  else if j = 12 then { t with counts := c, unsettled := t.unsettled + rest }
  else { t with counts := tabMod 0 c j (fun n => n + rest) }

/-- The engines that exist, by block (R430). -/
def stallKeys : List Nat :=
  List.range 120 ++ (List.range 120).map (fun l => 128 + l) ++ (List.range 288).map (fun i => 256 + i)

/-- Counts the cycles from one time to the next, over which the state stands as it is (R431). -/
def countStalls (was : Nat) (s : State) : State :=
  (stallKeys.filter (fun k => stallSlot s k != 11 || lostPart s k != 0)).foldl (fun u k =>
    modCnt (fun c => { c with stall := tabMod {} c.stall k (fun t =>
      t.count (t.elapsed k s.now - t.elapsed k was) (lostPart s k) (stallSlot s k)) }) u) s

/-- Unsettled cycles over the slots they can belong to, each a free part of those that remain, and the last the rest
(R431; notes/assumptions/53.md). -/
def stallSplit (base : Nat) : List Nat → Nat → Tab Nat → Tab Nat
  | [], _, c => c
  | [j], rem, c => tabMod 0 c j (fun n => n + rem)
  | j :: r, rem, c =>
    let v := (Config.freeWord base j).toNat % (rem + 1)
    stallSplit base r (rem - v) (tabMod 0 c j (fun n => n + v))

/-- Causes that an engine's running cycles can have: those whose condition the state does not decide. -/
def openCauses (k : Nat) : List Nat := (stallCauses k).filter (fun j => 4 ≤ j && j != 10)

/-- The 16 slots of a block: idle is what is left of the elapsed cycles, and the parts of cycles that a clock step cuts are
counted under thermal_clock. -/
def Stall.block (t : Stall) (elapsed : Nat) : List Nat :=
  let idle := elapsed - (((List.range 16).map (fun j => tabGet 0 t.counts j)).sum + stallUnit - 1) / stallUnit
  let v := (List.range 16).map (fun j => if j = 11 then idle else tabGet 0 t.counts j / stallUnit)
  v.set 1 (v.getD 1 0 + (elapsed - v.sum))

/-- Captures an engine's live counts; the cycles not settled yet are settled for good. -/
def snapOne (s : State) (k : Nat) : State :=
  let t := tabGet {} s.cnt.stall k
  let u := { t with counts := stallSplit s.free (0 :: openCauses k) t.unsettled t.counts, unsettled := 0 }
  bumpFree 1 (modCnt (fun c =>
    { c with stall := tabPut {} c.stall k u, snap := tabPut [] c.snap k (u.block (u.elapsed k s.now)) }) s)

/-- Engines that a partition owns, by block (R433). -/
def State.stallEngines (s : State) (p : Nat) : List Nat :=
  s.arraysOf p ++ (s.arraysOf p).map (fun l => 128 + l) ++ (List.range 32).map (fun i => 256 + 32 * p + i) ++ [512 + p]

/-- CNT_SNAP. -/
def execCntSnap (parts : Byte) (shared : Bool) (s : State) : Host.Outcome State Fault Refusal :=
  .next (
    let own := ((allParts.filter (fun p => parts.getLsbD p)).map (fun p => s.stallEngines p)).flatten
    let all := own ++ (if shared then (List.range 24).map (fun i => 520 + i) else [])
    modCnt (fun c => { c with snapTime := s.now }) (all.foldl snapOne s))

/-! ### The clock edge (R425, R428, R438) -/

/-- A row runs below 1.80 GHz, is stretched, or recovers below 1.80 GHz (R416, R417, R425). -/
def RowClk.excess (r : RowClk) (now : Nat) : Bool :=
  let k := match r.recovering with
    | some t => min 16 ((now - t) / 500)
    | none => 16
  r.stretch || decide (1920 * (32 - r.applied) * (16 + k) < 1800 * 32 * 32)

/-- Arrays that run fill. -/
def State.filling (s : State) : Nat := ((List.range 120).filter (fun l => s.runsFill l)).length

/-- CLK_REF_EDGE: 10 ns, counted in every stall block; at a µs boundary every array in fill adds one array-µs and every row in excess one row-µs. -/
def execClkRefEdge (s : State) : Host.Outcome State Fault Refusal :=
  .next (
    let s1 := countStalls s.now (modClk (fun c => { c with time := c.time + 10 }) s)
    if s1.nowUs = s.nowUs then s1
    else
      let rows := (s.pwr.rows.filter (fun r => r.2.excess s1.now)).length
      modPwr (fun w => { w with excessUs := satAdd 20 w.excessUs rows })
        (modCnt (fun c => { c with fillUs := satAdd 40 c.fillUs s.filling }) s1))

end Sys2Proof.Machine
end

