-- ==== Sys2Proof/Machine/Partition.lean ====
section
/-! DEFINITION. What ends or returns a partition: halts and the device-fatal stop (R447, R448, R453), the FLR of a
partition and of the PF (R354, R442–R444), VF enable (R352), and the grant of GAB quotas (R107). -/

namespace Sys2Proof.Machine

/-! ### GAB quotas (R107) -/

/-- The grants in ascending partition index, and the partitions that receive less than their field. -/
def quotaGrants (s : State) : List (Nat × Nat) × List Nat :=
  let r := s.enabledParts.foldl (fun (acc : List (Nat × Nat) × List Nat × Nat) p =>
    let want := (s.part p).gabQuota
    let got := min want acc.2.2
    (acc.1 ++ [(p, got)], if got < want then acc.2.1 ++ [p] else acc.2.1, acc.2.2 - got)) ([], [], 10240)
  (r.1, r.2.1)

/-- Grants every quota, and records each that does not fit, with param_id 0 and origin 0xFFFF: the event is about the
partition's quota, not about an entry (DESIGN CHOICE, notes/assumptions/21.md). -/
def grantQuotas (s : State) : State :=
  let g := quotaGrants s
  let s1 := modGab (fun x => { x with quota := g.1.foldl (fun t v => tabPut 0 t v.1 v.2) [] }) s
  eventBatch (g.2.map (fun p => notBoundReq p 0xFFFF 0 6)) s1

/-- The GAB map of a partition is unbound, its contents zero (R111). -/
def unbindGab (p : Nat) (s : State) : State :=
  modGab (fun g =>
    { g with maps := tabDel g.maps p, contribs := g.contribs.filter (fun c => c.part != p)
             flushes := g.flushes.filter (fun x => x.part != p) }) s

/-! ### Halts (R447, R448, R453) -/

/-- Aborts every queue and DMA engine of a partition and sets its halted bit; event 0x0A0A. -/
def haltPartition (p : Nat) (s : State) : State :=
  let s1 := (List.range 32).foldl (fun s i => abortQueue (32 * p + i) s) s
  let s2 := ((List.range 16).filter (fun d => s.dmaOwner d == some p)).foldl (fun s d => abortDma d s) s1
  eventHalted p 1 (modEvt (fun e =>
    { e with halted := e.halted ||| (1#8 <<< p), haltDue := e.haltDue.filter (fun x => x != p) }) s2)

/-- PARTITION_HALT. -/
def execPartitionHalt (p : Part) (s : State) : Host.Outcome State Fault Refusal :=
  .next (if s.evt.haltDue.contains p.val then haltPartition p s else s)

/-- A halted bit ends: by a write of 1 or by an FLR. -/
def endHalt (p : Nat) (s : State) : State :=
  modEvt (fun e => { e with halted := e.halted &&& ~~~(1#8 <<< p), haltSeq := tabDel e.haltSeq p }) s

/-- HALT_CLEAR; a halt that is due and not yet acted on sets the bit again (R11, R453). -/
def execHaltClear (bits : Byte) (s : State) : Host.Outcome State Fault Refusal :=
  .next (
    (allParts.filter (fun p => bits.getLsbD p && s.evt.halted.getLsbD p)).foldl (fun s p =>
      if s.evt.haltDue.contains p then modEvt (fun e => { e with halted := e.halted &&& ~~~(1#8 <<< p) }) s
      else endHalt p s) s)

/-- The seq that a stop names in 0x0A0A: that of the latest record, for a partition without a halting event of its own. -/
def stampStop (p : Nat) (s : State) : State :=
  if s.evt.halted.getLsbD p || s.evt.haltDue.contains p then s
  else
    match s.evt.log.find? (fun r => isStop r.code.toNat r.sev) with
    | some r => modEvt (fun e => { e with haltSeq := tabPut 0 e.haltSeq p r.seq }) s
    | none => s

/-- An event with stop halts every enabled partition and sets fatal. -/
def stopAll (s : State) : State :=
  if s.evt.fatalDue then
    modEvt (fun e => { e with fatal := true, fatalDue := false })
      (s.enabledParts.foldl (fun s p => haltPartition p (stampStop p s)) s)
  else s

/-- DEVICE_FATAL_STOP; after any device-fatal event the module calls a rack round with itself as subject (R326, R448). -/
def execDeviceFatalStop (s : State) : Host.Outcome State Fault Refusal :=
  .next (
    let s1 := stopAll s
    if ! s1.evt.roundDue then s1
    else
      let s2 := modEvt (fun e => { e with roundDue := false }) s1
      match s2.node with
      | some n => callRack 4 (n % 64) s2
      | none => s2)

/-! ### The FLR of a partition (R442–R444) -/

/-- A checkpoint command whose new image is valid goes on (R253). -/
def releasing (s : State) (f : Inflight) : Bool :=
  s.nvt.commits.any (fun c => c.q == f.q && c.pos == f.pos && decide (c.phase = 3))

/-- Steps 1 and 3: dispatch stops, the envelopes are dropped without record, and commands end without completion
actions. -/
def dropCommands (p : Nat) (s : State) : State :=
  let s1 := (List.range 32).foldl (fun s i => setQueue (32 * p + i) {} s) s
  modTcs (fun t =>
    { t with
      inflight := t.inflight.filter (fun f => partOfQ f.q != p || releasing s f)
      envs := t.envs.filter (fun e => e.part != p)
      admQueue := tabDel t.admQueue p
      resp := tabDel t.resp p }) s1

/-- The partition's flash operations: a commit whose COMMIT record is not durable is discarded; a restore ends where it
stands; home moves that have not switched stay (R250, R253, R254). -/
def dropFlash (resetType p : Nat) (s : State) : State :=
  let gone := s.nvt.commits.filter (fun c => c.part == p && decide (c.phase ≤ 2))
  let s1 := gone.foldl (fun s c => discardCommit c s) s
  let s2 := modNvt (fun n =>
    { n with
      commits := n.commits.filter (fun c => c.part != p || c.phase == 3)
      journal := n.journal.filter (fun j => match j with | .home q _ _ => q != p | _ => true) }) s1
  let s3 := modMem (fun m => { m with
    migrations := m.migrations.filter (fun g => g.part != p)
    mboxBusy := tabDel m.mboxBusy p }) s2
  (gone.filter (fun c => c.begun)).foldl (fun s c => eventDiscarded resetType c s) s3

/-- Step 4: the partition's collectives, groups, streams and group rounds end. -/
def dropCollectives (p : Nat) (s : State) : State :=
  let s1 := modCol (fun c =>
    { c with
      groups := c.groups.filter (fun g => g.2.part != p)
      colls := c.colls.filter (fun x => x.part != p)
      early := c.early.filter (fun x => x.p.val != p)
      decided := c.decided.filter (fun d => d.part != p)
      fed := c.fed.filter (fun x => x.1 / 4096 != p)
      lasts := c.lasts.filter (fun x => x.2.1.part != p)
      requests := c.requests.filter (fun x => x.1 / 4096 != p)
      streams := c.streams.filter (fun x => (x.inPort.isSome && x.outPort.isSome) || partOfEnd x.ctl.src != p) }) s
  modFap (fun f => { f with rounds := f.rounds.filter (fun r =>
    match r.item with
    | .group q _ _ => q.val != p
    | .rack => true) }) s1

/-- Registers of an array that a reset or a move sets to +0 and clear (R386, R443). -/
def clearArray (l : Nat) (s : State) : State :=
  modArr l (fun a => { a with tiles := [], acc0 := {}, acc1 := {}, packed := 0, vflag := 0, segments := none }) s

/-- Step 5: regions, GAB map, keepers and arrays. -/
def clearPartition (p : Nat) (s : State) : State :=
  let s1 := (s.regions p).foldl (fun s r => doUnmap p r s) s
  let s2 := unbindGab p s1
  let r := s.part p
  let s3 := modTcs (fun t => { t with keepers := tabClear t.keepers r.kpBase (r.kpBase + r.kpCount) }) s2
  (s.arraysOf p).foldl (fun s l => clearArray l s) s3

/-- Counters of a partition that an FLR sets to zero (R439). -/
def clearCounters (p : Nat) (s : State) : State :=
  let ks := s.stallEngines p ++ ((List.range 16).filter (fun d => s.dmaOwner d == some p)).map (fun d => 528 + d)
  modCnt (fun c =>
    { c with
      clamp := tabDel c.clamp p
      acc := tabDel c.acc p
      late := tabDel c.late p
      selv := tabDel c.selv p
      norm := tabDel c.norm p
      phase := tabClear c.phase (p * 64) (p * 64 + 64)
      snap := ks.foldl (fun t k => tabDel t k) c.snap
      stall := ks.foldl (fun t k => tabPut {} t k { clearedAt := s.now, counts := [] }) c.stall }) s

/-- The interface registers of a function, its configuration space and its MSI-X table return to their reset values (R355,
R373, R443). -/
def clearFunction (fn : Nat) (s : State) : State :=
  modPci (fun p =>
    { p with
      abi := tabDel p.abi fn
      win := tabDel p.win fn
      cfg := tabDel p.cfg fn
      msix := tabClear p.msix (msixKey fn 0) (msixKey (fn + 1) 0) }) s

/-- The partition's DMA engines stop and return to their reset values (R372). -/
def clearDmas (p : Nat) (s : State) : State :=
  ((List.range 16).filter (fun d => s.dmaOwner d == some p)).foldl (fun s d =>
    modPci (fun x => { x with dma := tabDel x.dma d, badVec := x.badVec.filter (fun v => v != 0x100 + d) }) (abortDma d s)) s

/-- The sequence of R444 up to its event. -/
def resetPartition (resetType p : Nat) (s : State) : State :=
  let s1 := clearDmas p (dropCommands p s)
  let s2 := dropCollectives p (dropFlash resetType p s1)
  let s3 := clearCounters p (clearPartition p s2)
  let s4 := modPci (fun x => { x with badVec := x.badVec.filter (fun v => ! (decide (32 * p ≤ v) && decide (v < 32 * p + 32))) }) s3
  let s5 := endHalt p (modEvt (fun e => { e with haltDue := e.haltDue.filter (fun x => x != p) }) s4)
  modWmc (fun w => { w with held := w.held.filter (fun x => x != p) }) s5

/-- Elapsed µs of an FLR, at most 100 ms (R354): a free value (notes/assumptions/1.md). -/
def flrElapsed (s : State) : Nat := (Config.freeWord s.free 0).toNat % 100001

/-- Code of a partition FLR's trigger, in the order of R440. -/
def flrTriggerCode : FlrTrigger → Nat
  | .vfFlr => 1
  | .d3hotReturn => 2
  | .vfEnableCleared => 3
  | .swapDisabled => 4
  | .pfFlr => 5

/-- An FLR of a partition with its event 0x0A09; a function-level trigger resets the VF's own registers too. -/
def flrPartition (p : Nat) (trigger : FlrTrigger) (s : State) : State :=
  let s1 := clearFunction (p + 1) (resetPartition 5 p s)
  eventP 0x0A09 1 p (le 1 5 ++ le 1 (flrTriggerCode trigger) ++ le 1 p ++ le 4 (flrElapsed s1)) (bumpFree 1 s1)

/-- No module reset is in progress, and MOD_RST_N is high (R441, R462). -/
def State.takesFlr (s : State) : Bool := (s.wmc.step == 8 || s.wmc.step == 0xFE) && ! s.wmc.modRstLow

/-- PARTITION_FLR; ignored during a module reset. -/
def execPartitionFlr (p : Part) (trigger : FlrTrigger) (s : State) : Host.Outcome State Fault Refusal :=
  .next (if s.takesFlr then flrPartition p trigger s else s)

/-- Code of a PF FLR's trigger, in the order of R440. -/
def pfTriggerCode : PfTrigger → Nat
  | .flr => 1
  | .hotReset => 2
  | .dataLinkDown => 3

/-- The PF's PCI registers at their reset values; the fields of PCI_LINK that report the link keep reporting it (R354). -/
def clearPf (s : State) : State :=
  let s1 := modPci (fun p =>
    { PciSt.reset with speed := p.speed, width := p.width, flit := p.flit, hostOut := p.hostOut, bar2Data := p.bar2Data }) s
  modEvt (fun e => { e with pfBase := 0, pfSize := 0, pfMinSev := 1, pfDropped := 0, pfWp := 0, pfRp := 0 }) s1

/-- Staging, arming and held partitions end (R387, R443). -/
def endStaging (s : State) : State :=
  modWmc (fun w => { w with shadow := none, reception := none, armed := none, held := [] }) s

/-- PF_FLR: an FLR of every partition, merged into one reset with one event. -/
def execPfFlr (trigger : PfTrigger) (s : State) : Host.Outcome State Fault Refusal :=
  .next (
    if ! s.takesFlr then s
    else
      let s1 := endStaging (clearPf (allParts.foldl (fun s p => resetPartition 4 p s) s))
      eventD 0x0A09 1 (le 1 4 ++ le 1 (pfTriggerCode trigger) ++ le 4 (flrElapsed s1)) (bumpFree 1 s1))

/-- VF_ENABLE: the number of enabled VFs; a VF that is cleared resets its partition (R352, R354). -/
def execVfEnable (numVfs : Fin 9) (s : State) : Host.Outcome State Fault Refusal :=
  .next (
    let old := s.pci.numVfs
    let s1 := modPci (fun p => { p with numVfs := numVfs.val }) s
    if s.takesFlr then
      (allParts.filter (fun p => decide (numVfs.val ≤ p) && decide (p < old))).foldl (fun s p =>
        flrPartition p .vfEnableCleared s) s1
    else s1)

end Sys2Proof.Machine
end

