-- ==== Sys2Proof/Machine/Shake.lean ====
section
/-! DEFINITION. SHAKE256 (FIPS 202), which R395 to R406 name. The sponge state is one number of 1600 bits: five planes
of 320 bits, five lanes of 64 bits in each, so that a message block enters by one exclusive or and the digest is the
state's low end. -/

namespace Sys2Proof.Machine

/-- The sponge state. -/
abbrev Sponge := BitVec 1600

/-- Lane x of plane y. -/
def Sponge.lane (a : Sponge) (x y : Nat) : BitVec 64 := a.extractLsb' (64 * x + 320 * y) 64

/-- A value of w · n bits from its n parts, part 0 lowest. -/
def joinParts (w : Nat) {v : Nat} (parts : List (BitVec v)) : Sponge :=
  parts.foldr (fun p acc => acc <<< w ||| p.setWidth 1600) 0

/-- The state whose planes a function gives. -/
def byPlane (f : BitVec 320 → BitVec 320) (a : Sponge) : Sponge :=
  joinParts 320 (([0, 1, 2, 3, 4] : List Nat).map (fun y => f (a.extractLsb' (320 * y) 320)))

/-- The parity of the columns, as a plane. -/
def columnParity (a : Sponge) : BitVec 320 :=
  ([0, 1, 2, 3, 4] : List Nat).foldl (fun c y => c ^^^ a.extractLsb' (320 * y) 320) 0

/-- Diffusion along the columns (step θ): the parity of the column before, and of the one after turned by one bit. -/
def columnMix (a : Sponge) : Sponge :=
  let c := columnParity a
  let turned : Sponge :=
    joinParts 64 (([1, 2, 3, 4, 0] : List Nat).map (fun x => (c.extractLsb' (64 * x) 64).rotateLeft 1))
  byPlane (fun p => p ^^^ c.rotateLeft 64 ^^^ turned.setWidth 320) a

/-- The lanes in the order in which the turning step visits them after lane (0, 0): (x, y) goes to (y, 2x + 3y). Each
entry is the lane and the turn, a triangular number, that it gets. -/
def laneWalk : Nat → Nat → Nat → Nat → List ((Nat × Nat) × Nat)
  | 0, _, _, _ => []
  | n + 1, t, x, y => ((x, y), (t + 1) * (t + 2) / 2 % 64) :: laneWalk n (t + 1) y ((2 * x + 3 * y) % 5)

/-- The turn of a lane (step ρ). -/
def laneTurn (x y : Nat) : Nat := (((laneWalk 24 0 1 0).find? (fun e => e.1 == (x, y))).map (fun e => e.2)).getD 0

/-- Steps ρ and π: the lane that comes to (x, y) stood at (x + 3y, x) and is turned on its way. -/
def turnAndMove (a : Sponge) : Sponge :=
  joinParts 64 ((List.range 25).map (fun i =>
    let x := i % 5
    let x0 := (x + 3 * (i / 5)) % 5
    (a.lane x0 x).rotateLeft (laneTurn x0 x)))

/-- Step χ on one plane. -/
def rowMix (p : BitVec 320) : BitVec 320 := p ^^^ (~~~ p.rotateRight 64 &&& p.rotateRight 128)

/-- The bits of the round constants: n outputs of the shift register with taps at 8, 6, 5, 4 and 0. -/
def registerBits : Nat → BitVec 9 → List Bool
  | 0, _ => []
  | n + 1, r => r.getLsbD 0 :: registerBits n (let d := r <<< 1; if d.getLsbD 8 then d ^^^ 0x171#9 else d)

/-- The constant of a round (step ι), from its seven register bits: the j-th stands at bit 2^j − 1. -/
def roundWord (bits : List Bool) : Sponge :=
  (bits.zipIdx).foldl (fun w b => if b.1 then w ||| 1#1600 <<< (2 ^ b.2 - 1) else w) 0

/-- The rounds from a list of register bits, seven to a round. -/
def permuteFrom : Nat → List Bool → Sponge → Sponge
  | 0, _, a => a
  | n + 1, bits, a =>
    permuteFrom n (bits.drop 7) (byPlane rowMix (turnAndMove (columnMix a)) ^^^ roundWord (bits.take 7))

/-- The permutation of 24 rounds. -/
def permute (a : Sponge) : Sponge := permuteFrom 24 (registerBits 168 1#9) a

/-- Takes in a message by blocks of 136 bytes; the last, which may be short, carries the suffix 0x1F and the closing
bit 1087. -/
def takeIn : Nat → List Byte → Sponge → Sponge
  | 0, rest, a => permute (a ^^^ BitVec.ofNat 1600 (unle (rest ++ [0x1F#8])) ^^^ 1#1600 <<< 1087)
  | n + 1, l, a => takeIn n (l.drop 136) (permute (a ^^^ BitVec.ofNat 1600 (unle (l.take 136))))

/-- The SHAKE256-512 digest as one number, byte 0 lowest. -/
def digestOf (l : List Byte) : BitVec 512 := (takeIn (l.length / 136) l 0).setWidth 512

/-- The SHAKE256-512 digest as 64 bytes. -/
def shake512 (l : List Byte) : List Byte := le 64 (digestOf l).toNat

end Sys2Proof.Machine
end

