-- ==== Sys2Proof/Machine/ConfigSet.lean ====
section
/-! DEFINITION. Configuration sets: their format (R380–R382), validation (R383), clamping (R33, R34) and what applying a
set changes (R386). -/

namespace Sys2Proof.Machine

/-! ### The format (R380, R381) -/

/-- A little-endian field of a byte list. -/
def fieldAt (l : List Byte) (off n : Nat) : Nat := unle ((l.drop off).take n)

/-- Records that follow the header: type, body length field and body; whether all of them lie within the bytes. -/
def takeRecords : Nat → List Byte → List (Nat × Nat × List Byte) × Bool
  | 0, _ => ([], true)
  | n + 1, l =>
    let len := fieldAt l 2 2
    let all := 4 + (len + 7) / 8 * 8
    if l.length < 4 then ([], false)
    else if l.length < all then ([(fieldAt l 0 2, len, l.drop 4)], false)
    else
      let r := takeRecords n (l.drop all)
      ((fieldAt l 0 2, len, (l.drop 4).take len) :: r.1, r.2)

/-- A record type this firmware knows. -/
def knownType (t : Nat) : Bool := t == 0x8001 || (decide (t % 256 < 8) && (t / 256 == 0x81 || t / 256 == 0x82 || t / 256 == 0x83))

/-- The body length a record type asks for. -/
def bodyOk (t len : Nat) : Bool :=
  if t = 0x8001 then len == 16
  else if t / 256 = 0x81 then len == 104
  else if t / 256 = 0x82 then len % 4 == 0 && decide (len ≤ 256)
  else if t / 256 = 0x83 then len == 4
  else true

/-- Device record body (R382). -/
def deviceOf (b : List Byte) : DeviceRec where
  fillFloor := fieldAt b 0 1
  slewLimit := fieldAt b 1 1
  suspectCount := fieldAt b 2 1
  shadowInterval := fieldAt b 4 4
  spares := ((b.drop 8).take 8).map (fun x => x.toNat)

/-- Partition record body (R382). -/
def partRecOf (b : List Byte) : PartRec where
  enabled := fieldAt b 0 1 % 2 == 1
  vecMode := fieldAt b 0 1 / 2 % 2 == 1
  prioClass := fieldAt b 0 1 / 4 % 4
  raDepth := fieldAt b 1 1
  selvedgePct := fieldAt b 2 2
  selvedgeFloor := fieldAt b 4 4
  collSmallMax := fieldAt b 8 4
  normGroups := fieldAt b 12 2
  gabQuota := fieldAt b 14 2
  arraySet := BitVec.ofNat 128 (fieldAt b 16 16 % 2 ^ 120)
  resT1 := fieldAt b 32 4
  resT2r := fieldAt b 36 4
  resT2w := fieldAt b 40 4
  resLink := fieldAt b 44 1
  own := fieldAt b 45 1 % 8
  dmaMask := BitVec.ofNat 16 (fieldAt b 46 2)
  roles := BitVec.ofNat 32 (fieldAt b 48 4)
  kpBase := fieldAt b 52 2
  kpCount := fieldAt b 56 4
  keyId := fieldAt b 60 4
  quotaT0 := fieldAt b 64 2
  quotaT1 := fieldAt b 68 4
  quotaT2 := fieldAt b 72 4
  descCount := fieldAt b 76 4
  normRingRecords := fieldAt b 80 4
  descBase := fieldAt b 88 8
  normRingBase := fieldAt b 96 8

/-- Port record body (R382). -/
def portRecOf (b : List Byte) : PortRec where
  dacBits := fieldAt b 0 1
  spareBiasPct := fieldAt b 1 1
  spareMarginDb := fieldAt b 2 1
  modeMax := fieldAt b 3 1 % 8

/-- Entries of a global route table (R300). -/
def routesOf (b : List Byte) : List (BitVec 32) :=
  (List.range (b.length / 4)).map (fun i => BitVec.ofNat 32 (fieldAt b (4 * i) 4))

/-- The set that header and records spell. -/
def setOf (raw : List Byte) (rs : List (Nat × Nat × List Byte)) : ConfigSet :=
  let base : ConfigSet := { setSeq := fieldAt raw 16 8, parts := [], raw := raw }
  rs.foldl (fun c r =>
    if r.1 = 0x8001 then { c with device := deviceOf r.2.2 }
    else if r.1 / 256 = 0x81 ∧ r.1 % 256 < 8 then
      { c with parts := tabInsert (r.1 % 256) (partRecOf r.2.2) (tabDel c.parts (r.1 % 256)) }
    else if r.1 / 256 = 0x82 ∧ r.1 % 256 < 8 then { c with routes := tabPut [] c.routes (r.1 % 256) (routesOf r.2.2) }
    else if r.1 / 256 = 0x83 ∧ r.1 % 256 < 8 then { c with ports := tabPut {} c.ports (r.1 % 256) (portRecOf r.2.2) }
    else c) base

/-- The checks of the form: reasons 0x01, 0x02, 0x03 against an active set_seq when given, 0x04; else the set. -/
def parseSet (raw : List Byte) (activeSeq : Option Nat) : Nat × ConfigSet :=
  let crc := (crc32c (raw.take 12 ++ [0#8, 0#8, 0#8, 0#8] ++ raw.drop 16)).toNat
  let rs := takeRecords (fieldAt raw 6 2) (raw.drop 64)
  let c := setOf raw rs.1
  let types := rs.1.map (fun r => r.1)
  if raw.length < 64 ∨ 16384 < raw.length ∨ fieldAt raw 8 4 ≠ raw.length ∨ fieldAt raw 0 4 ≠ 0x43474B53 ∨
      fieldAt raw 12 4 ≠ crc then (1, c)
  else if fieldAt raw 4 1 ≠ 1 ∨ types.any (fun t => decide (2 ^ 15 ≤ t) && ! knownType t) then (2, c)
  else if activeSeq.any (fun a => decide (c.setSeq ≤ a)) then (3, c)
  else if ! rs.2 || types.eraseDups.length != types.length || rs.1.any (fun r => knownType r.1 && ! bodyOk r.1 r.2.1) then (4, c)
  else (0, c)

/-! ### Validation (R383) -/

/-- The enabled partitions of a set, ascending. -/
def ConfigSet.enabledParts (c : ConfigSet) : List Nat := allParts.filter (fun p => (c.part p).enabled)

/-- Pairs of enabled partitions. -/
def ConfigSet.pairs (c : ConfigSet) : List (PartRec × PartRec) :=
  (c.enabledParts.map (fun p => (c.enabledParts.filter (fun q => decide (p < q))).map (fun q => (c.part p, c.part q)))).flatten

/-- Present reservable percentage of a port (R185, R286): of its present payload while it runs, else of the lanes its
wavelengths that are not retired can carry. -/
def State.portCapacity (s : State) (e : Nat) : Nat :=
  let good := ((List.range 18).filter (fun k => ! s.mxa.hw.wlRetired.contains (e * 18 + k))).length
  if s.portUp e then min 80 ((s.port e).reservable s.now) else min 80 (115 * 100 * (24 * min 16 good) / (143 * 384))

/-- Arrays of a partition record. -/
def PartRec.arrays (r : PartRec) : List Nat := (List.range 120).filter (fun l => r.arraySet.getLsbD l)

/-- Reason 0x06. -/
def overReserved (s : State) (c : ConfigSet) : Bool :=
  let sum (f : PartRec → Nat) : Nat := (c.enabledParts.map (fun p => f (c.part p))).sum
  decide (s.mem.t1Rate < sum (fun r => r.resT1)) || decide (28000 < sum (fun r => r.resT2r)) ||
  decide (12000 < sum (fun r => r.resT2w)) || c.enabledParts.any (fun p => decide (80 < (c.part p).resLink)) ||
  (List.range 8).any (fun e => decide (s.portCapacity e < sum (fun r => if r.role e = 0 then 0 else r.resLink)))

/-- Reason 0x07: tier quotas above a tier, or a limit of R216 that the present bolts break. -/
def overQuotas (s : State) (c : ConfigSet) : Bool :=
  let sum (f : PartRec → Nat) : Nat := (c.enabledParts.map (fun p => f (c.part p))).sum
  decide (664 < sum (fun r => r.quotaT0)) || decide (s.mem.t1Pages < sum (fun r => r.quotaT1)) ||
  decide (13351440 < sum (fun r => r.quotaT2)) ||
  c.enabledParts.any (fun p =>
    let r := c.part p
    let n (x : Tier) : Nat := s.committed p x + s.pinned p x
    decide (32 * r.quotaT0 < n .t0 + 32 * (1 + r.arrays.length)) || decide (32 * r.quotaT1 < n .t1) ||
    decide (32 * r.quotaT2 < n .t2))

/-- A role that R298 forbids: on a port wired otherwise, or a global role given twice. -/
def badRoles (r : PartRec) : Bool :=
  (List.range 6).any (fun e => r.role e != 0 && r.role e != e + 1) ||
  [6, 7].any (fun e => r.role e != 0 && r.role e != 7 && r.role e != 8) || (r.role 6 != 0 && r.role 6 == r.role 7)

/-- The conditions 0x05 to 0x0C in order; 0 when none holds. -/
def setReason (s : State) (c : ConfigSet) : Nat :=
  let ps := c.enabledParts.map c.part
  if c.pairs.any (fun x => x.1.arraySet &&& x.2.arraySet != 0) then 5
  else if overReserved s c then 6
  else if overQuotas s c then 7
  else if ps.any (fun r => decide (65536 < r.kpBase + r.kpCount)) ||
      c.pairs.any (fun x => decide (x.1.kpBase < x.2.kpBase + x.2.kpCount) && decide (x.2.kpBase < x.1.kpBase + x.1.kpCount)) then 8
  else if ps.any badRoles then 9
  else if c.ports.any (fun x => x.2.modeMax == 0 || decide (4 < x.2.modeMax)) then 0xA
  else if c.pairs.any (fun x => x.1.dmaMask &&& x.2.dmaMask != 0) then 0xB
  else if c.device.spares.eraseDups.length != c.device.spares.length || c.device.spares.any (fun a => decide (127 < a)) then 0xC
  else 0

/-- The refusal reason of a staged set's bytes (R384, R385). -/
def stagedReason (s : State) (raw : List Byte) : Nat :=
  let r := parseSet raw (some s.wmc.active.setSeq)
  if r.1 ≠ 0 then r.1 else setReason s r.2

/-! ### Clamps (R33, R34) -/

/-- The id of a field that a clamp changed. -/
def clampId (id old new : Nat) : List Nat := if old = new then [] else [id]
/-- The nearest bound of a range. -/
def bound (lo hi v : Nat) : Nat := (clampRange lo hi v).1

/-- A device record as applied, and its clamp ids. -/
def clampDeviceRec (r : DeviceRec) : DeviceRec × List Nat :=
  let sh := 2 ^ (bound 64 (2 ^ 20) r.shadowInterval).log2
  ({ r with fillFloor := bound 0 100 r.fillFloor, slewLimit := bound 2 50 r.slewLimit, shadowInterval := sh,
            suspectCount := bound 1 64 r.suspectCount },
   clampId 0xA r.fillFloor (bound 0 100 r.fillFloor) ++ clampId 0xB r.slewLimit (bound 2 50 r.slewLimit) ++
   clampId 0xC r.shadowInterval sh ++ clampId 0xE r.suspectCount (bound 1 64 r.suspectCount))

/-- A partition record as applied, and its clamp ids. -/
def clampPartRec (r : PartRec) : PartRec × List Nat :=
  let pct := bound 10 250 r.selvedgePct / 5 * 5
  let flo := bound 200 100000 r.selvedgeFloor
  let small := bound 4096 16777216 r.collSmallMax
  let ng := bound 1 4096 r.normGroups
  let gq := bound 0 10240 r.gabQuota
  let ra := bound 0 63 r.raDepth
  ({ r with selvedgePct := pct, selvedgeFloor := flo, collSmallMax := small, normGroups := ng, gabQuota := gq, raDepth := ra },
   clampId 8 r.selvedgePct pct ++ clampId 9 r.selvedgeFloor flo ++ clampId 0xD r.collSmallMax small ++
   clampId 0x12 r.normGroups ng ++ clampId 0x13 r.gabQuota gq ++ clampId 0x14 r.raDepth ra)

/-- A port record as applied. -/
def clampPortRec (r : PortRec) : PortRec :=
  { r with dacBits := bound 4 8 r.dacBits, spareBiasPct := bound 50 99 r.spareBiasPct, spareMarginDb := bound 5 60 r.spareMarginDb }

/-- Clamp ids of the port records, in ascending id and then ascending port. -/
def portClamps (c : ConfigSet) : List Nat :=
  (c.ports.map (fun x => clampId 0xF x.2.dacBits (clampPortRec x.2).dacBits)).flatten ++
  (c.ports.map (fun x => clampId 0x10 x.2.spareBiasPct (clampPortRec x.2).spareBiasPct)).flatten ++
  (c.ports.map (fun x => clampId 0x11 x.2.spareMarginDb (clampPortRec x.2).spareMarginDb)).flatten

/-- A set with its fields clamped. -/
def clampSet (c : ConfigSet) : ConfigSet :=
  { c with
    device := (clampDeviceRec c.device).1
    parts := c.parts.map (fun x => (x.1, (clampPartRec x.2).1))
    ports := c.ports.map (fun x => (x.1, clampPortRec x.2)) }

/-- Counts the clamps of a set that is applied. -/
def countClamps (c : ConfigSet) (s : State) : State :=
  let s1 := c.parts.foldl (fun s x => if (clampPartRec x.2).2.isEmpty then s else clampPart x.1 (clampPartRec x.2).2 s) s
  clampDevice ((clampDeviceRec c.device).2 ++ portClamps c) s1

/-! ### Application (R386) -/

/-- The bytes of a set as staged; those of the factory set are the image's (R404). -/
def setBytes (c : ConfigSet) : List Byte :=
  if c.raw.isEmpty then (List.range Config.factorySetLength).map Config.factorySetByte else c.raw

/-- A set becomes the active one: clamped and measured (M6). -/
def activateSet (c : ConfigSet) (s : State) : State :=
  modSec (fun x => { x with m6 := digestOf (setBytes c) }) (modWmc (fun w => { w with active := clampSet c }) s)

/-- A set becomes the active one and its clamps are counted. -/
def makeActive (c : ConfigSet) (s : State) : State := countClamps c (activateSet c s)

/-- The partition that owns a keeper under a set. -/
def ConfigSet.keeperOwner (c : ConfigSet) (k : Nat) : Option Nat :=
  c.enabledParts.find? (fun p => decide ((c.part p).kpBase ≤ k) && decide (k < (c.part p).kpBase + (c.part p).kpCount))
/-- The partition that owns an array under a set. -/
def ConfigSet.arrayOwner (c : ConfigSet) (l : Nat) : Option Nat := c.enabledParts.find? (fun p => (c.part p).arraySet.getLsbD l)
/-- The partition that owns a DMA engine under a set. -/
def ConfigSet.dmaOwner (c : ConfigSet) (d : Nat) : Option Nat := c.enabledParts.find? (fun p => (c.part p).dmaMask.getLsbD d)
/-- The port record of a set. -/
def ConfigSet.portRec (c : ConfigSet) (e : Nat) : PortRec := tabGet {} c.ports e

/-- The mode a lane keeps under a port record (R261, R265). -/
def capMode (r : PortRec) (m : Nat) : Nat :=
  let m := min m r.modeMax
  if r.dacBits < modeDac m then 3 else m

/-- A lane after the fast retraining that a new port record causes; its new margin is a free value. -/
def capLane (e : Nat) (r : PortRec) (s : State) (x : Nat × Wave) : State :=
  let m := capMode r x.2.mode
  if m = x.2.mode then s
  else
    let margin := (Config.freeWord s.free x.1).toInt
    eventMode e (x.2.lane.getD 0) x.2.mode m margin
      (modWave e x.1 (fun w => { w with mode := m, txMargin := margin }) (bumpFree 1 s))

/-- A port whose dac_bits or mode_max changes fast-retrains at once. -/
def retrainForSet (old : ConfigSet) (s : State) (e : Nat) : State :=
  let a := old.portRec e
  let b := s.portRec e
  if (a.dacBits = b.dacBits ∧ a.modeMax = b.modeMax) ∨ ! s.portUp e then s
  else laneSetChanged e (((s.port e).carrying).foldl (fun s x => capLane e b s x) (fastRetrain e 3 s))

/-- An array that changes partition, with its stall blocks (R386, R439). -/
def moveArray (s : State) (l : Nat) : State :=
  modCnt (fun c =>
    { c with
      snap := tabDel (tabDel c.snap l) (128 + l)
      stall := [l, 128 + l].foldl (fun t k => tabPut {} t k { clearedAt := s.now, counts := [] }) c.stall }) (clearArray l s)

/-- What a swap changes (R386): partitions disabled act as under an FLR, partitions enabled start as after one, and the
set's clamps count in the counters that this leaves (R34). -/
def applySet (c : ConfigSet) (s : State) : State :=
  let old := s.wmc.active
  let s1 := (allParts.filter (fun p => (old.part p).enabled && ! (c.part p).enabled)).foldl (fun s p => flrPartition p .swapDisabled s) s
  let s2 := activateSet c s1
  let new := s2.wmc.active
  let s3 := ((List.range 120).filter (fun l => old.arrayOwner l != new.arrayOwner l)).foldl moveArray s2
  let s4 := modTcs (fun t => { t with keepers := t.keepers.filter (fun k => old.keeperOwner k.1 == new.keeperOwner k.1) }) s3
  let s5 := (allParts.filter (fun p => (old.part p).enabled && (new.part p).enabled && (old.part p).gabQuota != (new.part p).gabQuota)).foldl
    (fun s p => unbindGab p s) s4
  let s6 := modMem (fun m => { m with res := [] }) s5
  let s7 := (allParts.filter (fun p => ! (old.part p).enabled && (new.part p).enabled)).foldl (fun s p => resetPartition 5 p s) s6
  (List.range 8).foldl (fun s e => retrainForSet old s e) (grantQuotas (countClamps c s7))

end Sys2Proof.Machine
end

