-- ==== Sys2Proof/Machine/Management.lean ====
section
/-! DEFINITION. The management controller's messages (R384–R393, R296, R335): staging and swapping a configuration set,
logs, versions, sensors and firmware update. Answers go to `wmc.answer`; their status is 0 for success, a refusal reason
of R383, or one of the codes below (notes/assumptions/50.md). -/

namespace Sys2Proof.Machine

/-! ### Answers -/

/-- Status of an answer "busy" (R384, R391). -/
def stBusy : Nat := 0x100
/-- Status of an answer to a message that nothing open or staged stands for. -/
def stNothing : Nat := 0x101
/-- Status of an answer to a message with a value the spec does not admit. -/
def stInvalid : Nat := 0x102

/-- The WMC runs its firmware and serves management messages (R376, R378). -/
def State.wmcUp (s : State) : Bool := decide (3 ≤ s.wmc.step) && decide (s.wmc.step ≤ 8)
/-- The answer to the message being served. -/
def reply (path : MgmtPath) (status : Nat) (bytes : List Byte) (s : State) : State :=
  modWmc (fun w => { w with answer := some { path := path, status := status, bytes := bytes } }) s
/-- A message on a management path of R389. -/
def served (path : MgmtPath) (s : State) (body : State) : State := if s.wmcUp && path != .doe then body else s
/-- A bitmap over the partitions. -/
def partMap (ps : List Nat) : Nat := (ps.map (fun p => 2 ^ p)).sum

/-! ### Staging (R384) -/

/-- STAGE_BEGIN. -/
def execStageBegin (path : MgmtPath) (s : State) : Host.Outcome State Fault Refusal :=
  .next (served path s (
    if s.wmc.armed.isSome || (s.wmc.reception.map (fun r => r.path != path)).getD false then reply path stBusy [] s
    else
      reply path 0 [] (modWmc (fun w =>
        { w with shadow := none, reception := some { path := path, cells := [], length := 0, last := s.now } }) s)))

/-- Bytes stored at an offset of a transfer. -/
def putCells : Nat → List Byte → Tab Byte → Tab Byte
  | _, [], t => t
  | o, b :: r, t => putCells (o + 1) r (tabPut 0#8 t o b)

/-- STAGE_DATA. -/
def execStageData (path : MgmtPath) (offset : Nat) (data : List Byte) (s : State) : Host.Outcome State Fault Refusal :=
  .next (served path s (
    match s.wmc.reception with
    | none => reply path stNothing [] s
    | some r =>
      if r.path ≠ path then reply path stBusy [] s
      else
        let r' : Reception := { r with cells := putCells offset data r.cells, length := max r.length (offset + data.length), last := s.now }
        reply path 0 [] (modWmc (fun w => { w with reception := some r' }) s)))

/-- STAGE_END. -/
def execStageEnd (path : MgmtPath) (s : State) : Host.Outcome State Fault Refusal :=
  .next (served path s (
    match s.wmc.reception with
    | none => reply path stNothing [] s
    | some r =>
      if r.path ≠ path then reply path stBusy [] s
      else
        let raw := (List.range (min r.length 16385)).map (fun i => tabGet 0#8 r.cells i)
        let why := if 16384 < r.length then 1 else stagedReason s raw
        reply path why [] (modWmc (fun w =>
          { w with reception := none, reason := why, shadow := if why = 0 then some (parseSet raw none).2 else none }) s)))

/-- STAGE_TIMEOUT: reception left idle for 10 s. -/
def execStageTimeout (s : State) : Host.Outcome State Fault Refusal :=
  .next (
    match s.wmc.reception with
    | some r => if r.last + 10000000000 ≤ s.now then modWmc (fun w => { w with reception := none }) s else s
    | none => s)

/-! ### The swap (R385) -/

/-- A set as its staged bytes spell it, before clamping. -/
def asStaged (c : ConfigSet) : ConfigSet := if c.raw.isEmpty then c else (parseSet c.raw none).2

/-- Partitions that a swap affects. -/
def affectedBy (s : State) (c : ConfigSet) : List Nat :=
  let old := asStaged s.wmc.active
  let shared := old.device != c.device || (List.range 8).any (fun e => old.portRec e != c.portRec e)
  allParts.filter (fun p =>
    (old.parts.find? (fun x => x.1 == p)) != (c.parts.find? (fun x => x.1 == p)) ||
    tabGet [] old.routes p != tabGet [] c.routes p || (shared && (old.part p).enabled))

/-- Writes a set into the configuration slot with the lower set_seq; an empty slot counts as the lowest. -/
def writeCfgSlot (c : ConfigSet) (s : State) : State :=
  let rank (x : Option CfgSlot) : Nat := (x.map (fun v => v.set.setSeq + 1)).getD 0
  let v : Option CfgSlot := some { set := c, committed := false }
  modWmc (fun w =>
    { w with nor := if rank w.nor.cfg1 < rank w.nor.cfg0 then { w.nor with cfg1 := v } else { w.nor with cfg0 := v } }) s

/-- ARM; timeout_ms 0 takes the default 10,000. -/
def execArm (path : MgmtPath) (swapStep : BitVec 32) (timeoutMs : Nat) (s : State) : Host.Outcome State Fault Refusal :=
  .next (served path s (
    match s.wmc.shadow with
    | none => reply path stNothing [] s
    | some c =>
      if s.wmc.armed.isSome then reply path stBusy [] s
      else if 600000 < timeoutMs then reply path stInvalid [] s
      else
        let aff := affectedBy s c
        let a : Armed := { path := path, step := swapStep.toNat, timeoutMs := if timeoutMs = 0 then 10000 else timeoutMs,
                           at_ := s.now, affected := aff, heldAt := none }
        let s1 := modWmc (fun w => { w with armed := some a }) (writeCfgSlot c s)
        let s2 := aff.foldl (fun s p =>
          if ! (s.part p).enabled && ! (c.part p).enabled then holdPart p s else holdIfIdle p s) s1
        reply path 0 [] s2))

/-- An armed swap is abandoned: partitions are released, the set stays staged, event 0x0A07. -/
def abandonSwap (reason : Nat) (s : State) : State :=
  match s.wmc.armed, s.wmc.shadow with
  | some a, some c =>
    let missing := a.affected.filter (fun p => ! s.wmc.held.contains p)
    eventD 0x0A07 1 (le 8 c.setSeq ++ le 1 reason ++ le 1 (partMap missing))
      (modWmc (fun w => { w with armed := none, held := [], reason := reason }) s)
  | _, _ => s

/-- ABORT. -/
def execAbort (path : MgmtPath) (s : State) : Host.Outcome State Fault Refusal :=
  .next (served path s (
    if s.wmc.armed.isSome then reply path 0 [] (abandonSwap 0 s) else reply path stNothing [] s))

/-- A command of a partition that has been dispatched and not completed; a marker that still waits for its answer has
not left its queue's head. -/
def busyPart (s : State) (p : Nat) : Bool :=
  s.tcs.inflight.any (fun f =>
    partOfQ f.q == p && ! ((opcodeOf f.word == 0x61 || opcodeOf f.word == 0x62) && (s.queue f.q).state == 2 &&
      (s.queue f.q).head == f.pos))

/-- A set takes effect with its event 0x0A06, and its commit word becomes due. -/
def swapIn (c : ConfigSet) (aff : List Nat) (msHeld : Nat) (s : State) : State :=
  let old := s.wmc.active.setSeq
  let s1 := modWmc (fun w => { w with armed := none, shadow := none, held := [], commitDue := some s.now, factoryCfg := false })
    (applySet c s)
  eventD 0x0A06 1 (le 8 old ++ le 8 c.setSeq ++ le 1 (partMap aff) ++ le 4 msHeld) s1

/-- SWAP_APPLY: once every affected partition is held and idle and every engine that changes owner is disabled. -/
def execSwapApply (s : State) : Host.Outcome State Fault Refusal :=
  .next (
    match s.wmc.armed, s.wmc.shadow with
    | some a, some c =>
      if ! a.affected.all (fun p => s.wmc.held.contains p && ! busyPart s p) ||
          (List.range 16).any (fun d => s.wmc.active.dmaOwner d != c.dmaOwner d && (s.dma d).enable) then s
      else
        let why := stagedReason s c.raw
        if why ≠ 0 then abandonSwap why s
        else swapIn c a.affected ((a.heldAt.map (fun t => (s.now - t) / 1000000)).getD 0) s
    | _, _ => s)

/-- SWAP_TIMEOUT. -/
def execSwapTimeout (s : State) : Host.Outcome State Fault Refusal :=
  .next (
    match s.wmc.armed with
    | some a => if a.at_ + a.timeoutMs * 1000000 ≤ s.now then abandonSwap 0 s else s
    | none => s)

/-- Programs the commit word of the slot that holds the active set. -/
def commitSlot (seq : Nat) (x : Option CfgSlot) : Option CfgSlot :=
  x.map (fun v => if v.set.setSeq = seq then { v with committed := true } else v)

/-- COMMIT_WORD_PROGRAM. -/
def execCommitWordProgram (s : State) : Host.Outcome State Fault Refusal :=
  .next (
    if s.wmc.commitDue.isNone then s
    else
      modWmc (fun w =>
        { w with commitDue := none,
                 nor := { w.nor with cfg0 := commitSlot w.active.setSeq w.nor.cfg0, cfg1 := commitSlot w.active.setSeq w.nor.cfg1 } }) s)

/-- READ_ACTIVE. -/
def execReadActive (path : MgmtPath) (s : State) : Host.Outcome State Fault Refusal :=
  .next (served path s (reply path 0 (setBytes s.wmc.active) s))

/-- READ_LOG: the SRAM log from a seq on, the persistent ring from a position counted from its oldest record on. -/
def execReadLog (path : MgmtPath) (persistent : Bool) (index count : Nat) (s : State) : Host.Outcome State Fault Refusal :=
  .next (served path s (
    let rs :=
      if persistent then (s.wmc.nor.ring.reverse).drop index
      else (s.evt.log.reverse).filter (fun r => decide (index ≤ r.seq.toNat))
    reply path 0 ((rs.take count).map eventBytes).flatten s))

/-! ### Coordinates and switch-in (R296, R335) -/

/-- COORD, from the rack controller alone. -/
def execCoord (fromRack : Bool) (rack : BitVec 16) (spare : Bool) (spareSlot : Fin 8) (z y x : Fin 4) (s : State) :
    Host.Outcome State Fault Refusal :=
  .next (
    if fromRack && s.wmcUp then
      modCol (fun c =>
        { c with coord := { rack := rack.toNat, valid := true, spare := spare, spareSlot := spareSlot.val, z := z.val, y := y.val, x := x.val } }) s
    else s)

/-- SWITCH_IN_MESSAGE: a spare takes the failed module's coordinates and its configuration set; E0–E5 cold-train. -/
def execSwitchInMessage (fromRack : Bool) (coord : BitVec 22) (set : List Byte) (s : State) : Host.Outcome State Fault Refusal :=
  .next (
    if ! fromRack || ! s.wmcUp || ! s.col.coord.spare then s
    else
      let n := coord.toNat
      let s1 := modCol (fun c =>
        { c with coord :=
            { rack := n / 64, valid := true, spare := false, spareSlot := c.coord.spareSlot, z := n / 16 % 4, y := n / 4 % 4, x := n % 4 } }) s
      let r := parseSet set none
      let why := if r.1 ≠ 0 then r.1 else setReason s1 r.2
      let s2 :=
        if why = 0 then swapIn r.2 (affectedBy s1 r.2) 0 (writeCfgSlot r.2 s1)
        else eventD 0x0A07 1 (le 8 r.2.setSeq ++ le 1 why ++ le 1 0) (modWmc (fun w => { w with reason := why }) s1)
      (List.range 6).foldl (fun s e =>
        if (s.port e).enable && (s.port e).state == 0 then modPort e (fun p => { p with state := 1 }) s else s) s2)

/-! ### Versions, receiver and sensors (R388–R390) -/

/-- GET_VERSION_SUPPORT: the message types of R389 and R401. -/
def execGetVersionSupport (path : MgmtPath) (msgType : Byte) (s : State) : Host.Outcome State Fault Refusal :=
  .next (served path s (
    if msgType = 0 ∨ msgType = 1 ∨ msgType = 5 ∨ msgType = 0x7E then
      reply path 0 (le 4 (Config.mgmtVersion msgType.toNat 0).toNat) s
    else reply path stInvalid [] s))

/-- GET_PLDM_VERSION: types 0, 2 and 5. -/
def execGetPldmVersion (path : MgmtPath) (pldmType : Byte) (s : State) : Host.Outcome State Fault Refusal :=
  .next (served path s (
    if pldmType = 0 ∨ pldmType = 2 ∨ pldmType = 5 then reply path 0 (le 4 (Config.mgmtVersion 1 pldmType.toNat).toNat) s
    else reply path stInvalid [] s))

/-- SET_EVENT_RECEIVER. -/
def execSetEventReceiver (path : MgmtPath) (receiver : Byte) (s : State) : Host.Outcome State Fault Refusal :=
  .next (served path s (reply path 0 [] (modWmc (fun w => { w with receiver := some receiver }) s)))

/-- Sensor IDs of R388. -/
def sensorKnown (i : Nat) : Bool :=
  (decide (0x0001 ≤ i) && decide (i ≤ 0x0060)) || (decide (0x0101 ≤ i) && decide (i ≤ 0x0118)) || i == 0x0201 || i == 0x0202 ||
  (decide (0x0301 ≤ i) && decide (i ≤ 0x0304)) || (decide (0x1000 ≤ i) && decide (i < 0x1800) && decide (i % 256 < 72))

/-- A sensor's reading; an optical monitor reads what its port's lanes report (R280, R291). -/
def State.sensor (s : State) (i : Nat) : Sensor :=
  if i < 0x1000 then tabGet {} s.wmc.sensors i
  else
    let w := (s.port ((i - 0x1000) / 256)).wave (i % 256 / 4)
    let v := match i % 4 with
      | 0 => w.monL
      | 1 => w.monC
      | 2 => w.monM
      | _ => w.monR
    { value := BitVec.ofInt 32 v, failed := false, time := s.now }

/-- PLDM_SENSOR_READ: status 0 valid, 1 no such sensor, 2 failed, as in WMC_SENSOR_DATA. -/
def execPldmSensorRead (path : MgmtPath) (sensor : BitVec 16) (s : State) : Host.Outcome State Fault Refusal :=
  .next (served path s (
    if ! sensorKnown sensor.toNat then reply path 1 [] s
    else
      let r := s.sensor sensor.toNat
      reply path (if r.failed then 2 else 0) (le 4 r.value.toNat) s))

/-! ### Firmware update (R391, R396, R397) -/

/-- Code of a path, in the order of R389, then Data Object Exchange. -/
def pathCode : MgmtPath → Nat
  | .pcie => 1
  | .i3c => 2
  | .sgmii => 3
  | .doe => 4

/-- A firmware update is served while the WMC runs, in recovery too. -/
def servedFw (path : MgmtPath) (s : State) (body : State) : State :=
  if (s.wmcUp || s.wmc.step == 0xFE) && path != .doe then body else s

/-- The component table of a bundle: type, offset, length and digest (R396). -/
def componentsOf (b : List Byte) : List (Nat × Nat × Nat × List Byte) :=
  (List.range (min 8 (fieldAt b 14 2))).map (fun i =>
    let o := 1856 + 80 * i
    (fieldAt b o 4, fieldAt b (o + 4) 4, fieldAt b (o + 8) 8, (b.drop (o + 16)).take 64))

/-- What the boot ROM finds in a bundle. -/
def imageOf (b : List Byte) : Image where
  formOk := fieldAt b 0 4 == 0x4D474B53 && fieldAt b 4 2 == 1 && decide (1 ≤ fieldAt b 14 2) && decide (fieldAt b 14 2 ≤ 8) &&
    (componentsOf b).all (fun c => decide (c.2.1 + c.2.2.1 ≤ b.length)) && decide (b.length ≤ 0x04000000)
  keySlot := fieldAt b 6 1
  revokeSlot0 := fieldAt b 7 1 % 2 == 1
  svn := fieldAt b 8 1
  fwMajor := fieldAt b 9 1
  fwMinor := fieldAt b 10 2
  fwBuild := fieldAt b 12 2
  keyHashOk := digestOf ((b.drop 32).take 1793) == Config.vendorKeyHash (fieldAt b 6 1)
  sigOk := Config.falconVerify ((b.drop 32).take 1793) (digestOf (b.take 2816)) ((b.drop 2816).take 1280)
  digestsOk := (componentsOf b).all (fun c => shake512 ((b.drop c.2.1).take c.2.2.1) == c.2.2.2)
  digests := digestOf (b.take 2816) :: ([1, 2, 3, 4] : List Nat).map (fun t =>
    match (componentsOf b).find? (fun c => c.1 == t) with
    | some c => digestOf ((b.drop c.2.1).take c.2.2.1)
    | none => 0)

/-- The rollback counter: 1 + the highest blown bit, 0 when none is blown (R395). -/
def rollbackCount (v : BitVec 64) : Nat := if v = 0 then 0 else v.toNat.log2 + 1

/-- The first check of R397 that an image fails, 0 when it passes. -/
def verifyReason (s : State) (g : Image) : Nat :=
  if ! g.formOk then 1
  else if 1 < g.keySlot ∨ (g.keySlot = 0 ∧ s.sec.slot0Revoked) then 2
  else if ! g.keyHashOk then 3
  else if 64 < g.svn ∨ g.svn < rollbackCount s.sec.rollback then 4
  else if ! g.sigOk then 5
  else if ! g.digestsOk then 6
  else 0

/-- Version of an image as the directory holds it. -/
def Image.version (g : Image) : Nat := g.fwMajor * 2 ^ 32 + g.fwMinor * 2 ^ 16 + g.fwBuild

/-- Slot A or B of the NOR. -/
def NorSt.imageSlot (n : NorSt) (k : Nat) : ImageSlot := if k = 0 then n.slotA else n.slotB
/-- Replaces an image slot. -/
def setSlot (k : Nat) (v : ImageSlot) (s : State) : State :=
  modWmc (fun w => { w with nor := if k = 0 then { w.nor with slotA := v } else { w.nor with slotB := v } }) s

/-- Event 0x0A08: outcome 1 started, 2 ended with success, 3 ended with a failure. -/
def eventUpdate (slot : Nat) (version : List Byte) (path : MgmtPath) (outcome : Nat) (s : State) : State :=
  eventD 0x0A08 1 (le 1 slot ++ version ++ le 1 (pathCode path) ++ le 1 outcome) s

/-- Version bytes of an event: major, minor, build. -/
def versionBytes (g : Image) : List Byte := le 1 g.fwMajor ++ le 2 g.fwMinor ++ le 2 g.fwBuild

/-- REQUEST_UPDATE; the version is not known yet: free bytes. -/
def execRequestUpdate (path : MgmtPath) (s : State) : Host.Outcome State Fault Refusal :=
  .next (servedFw path s (
    if s.wmc.update.isSome then reply path stBusy [] s
    else
      let slot := 1 - s.wmc.slot
      let s1 := modWmc (fun w => { w with update := some { path := path, slot := slot, cells := [], length := 0, verified := false } }) s
      reply path 0 [] (eventUpdate slot ((List.range 5).map (Config.freeByte s.free)) path 1 (bumpFree 1 s1))))

/-- FIRMWARE_DATA_TRANSFER: the bundle overwrites what the slot held. -/
def execFirmwareDataTransfer (path : MgmtPath) (offset : Nat) (data : List Byte) (s : State) : Host.Outcome State Fault Refusal :=
  .next (servedFw path s (
    match s.wmc.update with
    | none => reply path stNothing [] s
    | some u =>
      if u.path ≠ path then reply path stBusy [] s
      else if 4096 < data.length then reply path stInvalid [] s
      else
        let old := s.wmc.nor.imageSlot u.slot
        let s1 := setSlot u.slot { old with image := { old.image with formOk := false } } s
        let u' : FwUpdate := { u with cells := putCells offset data u.cells, length := max u.length (offset + data.length), verified := false }
        reply path 0 [] (modWmc (fun w => { w with update := some u' }) s1)))

/-- Event 0x0B01. -/
def eventVerify (slot reason svn : Nat) (s : State) : State := eventD 0x0B01 1 (le 1 slot ++ le 1 reason ++ le 1 svn) s

/-- VERIFY_COMPLETE: a bundle that passes takes the slot's directory entry; a failing one leaves the directory. -/
def execVerifyComplete (path : MgmtPath) (s : State) : Host.Outcome State Fault Refusal :=
  .next (servedFw path s (
    match s.wmc.update with
    | none => reply path stNothing [] s
    | some u =>
      if u.path ≠ path then reply path stBusy [] s
      else
        let g := imageOf ((List.range u.length).map (fun i => tabGet 0#8 u.cells i))
        let why := verifyReason s g
        if why = 0 then
          reply path 0 [] (setSlot u.slot { valid := true, trial := false, version := g.version, image := g }
            (modWmc (fun w => { w with update := some { u with verified := true } }) s))
        else
          reply path why [] (eventVerify u.slot why g.svn (eventUpdate u.slot (versionBytes g) path 3
            (modWmc (fun w => { w with update := none }) s)))))

/-- ACTIVATE_FIRMWARE. -/
def execActivateFirmware (path : MgmtPath) (s : State) : Host.Outcome State Fault Refusal :=
  .next (servedFw path s (
    match s.wmc.update with
    | none => reply path stNothing [] s
    | some u =>
      if u.path ≠ path then reply path stBusy [] s
      else if ! u.verified then reply path stInvalid [] s
      else
        let v := s.wmc.nor.imageSlot u.slot
        reply path 0 [] (eventUpdate u.slot (versionBytes v.image) path 2
          (modWmc (fun w => { w with update := none }) (setSlot u.slot { v with trial := true } s)))))

end Sys2Proof.Machine
end

