-- ==== Sys2Proof/Machine/Security.lean ====
section
/-! DEFINITION. Security (R395–R410): the SPDM responder with its vendor-defined commands, attestation reports, erasure of
flash keys and the entropy source. -/

namespace Sys2Proof.Machine

/-! ### Identity (R399, R400) -/

/-- The label "SKGIDENT". -/
def identLabel : List Byte := [0x53#8, 0x4B#8, 0x47#8, 0x49#8, 0x44#8, 0x45#8, 0x4E#8, 0x54#8]
/-- Seed of the identity key. -/
def identitySeed : BitVec 512 := digestOf (le 32 Config.deviceSecret.toNat ++ identLabel)
/-- The identity public key. -/
def identityPublic : List Byte := le 1793 (Config.falconPublic identitySeed).toNat
/-- Bytes of one certificate. -/
def certBytes : Nat := 2 + 1793 + 8 + 8 + 1280
/-- The certificate chain, root first; the device certificate holds the identity key and the fused serial number. -/
def certChain : List Byte :=
  let part (a n : Nat) : List Byte := (List.range n).map (fun i => Config.certByte (a + i))
  part 0 (2 * certBytes + 2) ++ identityPublic ++ le 8 Config.serial.toNat ++
    part (2 * certBytes + 2 + 1793 + 8) (8 + 1280)

/-! ### SPDM (R401, R402) -/

/-- A request is served on DOE and on every management path, one at a time. -/
def spdm (s : State) (f : State → State) : State :=
  if s.wmcUp then f s else s

/-- SPDM_GET_VERSION: 1.2 and 1.1. -/
def execSpdmGetVersion (path : MgmtPath) (s : State) : Host.Outcome State Fault Refusal :=
  .next (spdm s (reply path 0 [0x12#8, 0x11#8]))

/-- SPDM_GET_CAPABILITIES: CT exponent 15, no CERT, CHAL or MEAS capability. -/
def execSpdmGetCapabilities (path : MgmtPath) (s : State) : Host.Outcome State Fault Refusal :=
  .next (spdm s (reply path 0 (le 1 15 ++ le 4 0)))

/-- SPDM_NEGOTIATE_ALGORITHMS: no standard asymmetric and no measurement algorithm. -/
def execSpdmNegotiateAlgorithms (path : MgmtPath) (s : State) : Host.Outcome State Fault Refusal :=
  .next (spdm s (reply path 0 (le 4 0 ++ le 4 0)))

/-- SPDM's error code UnsupportedRequest (DSP0274; notes/assumptions/50.md). -/
def spdmUnsupported : Nat := 7

/-- SPDM_UNSUPPORTED_REQUEST. -/
def execSpdmUnsupportedRequest (path : MgmtPath) (code : Byte) (s : State) : Host.Outcome State Fault Refusal :=
  .next (spdm s (fun s => reply path spdmUnsupported [] (eventD 0x0B06 1 (le 1 (pathCode path) ++ [code]) s)))

/-- Bytes of an object from an offset, at most 1,024 and at most length (R402); beyond the object status 0x02. -/
def objectReply (path : MgmtPath) (obj : List Byte) (offset length : Nat) (s : State) : State :=
  if obj.length ≤ offset then reply path 2 [] s else reply path 0 ((obj.drop offset).take (min 1024 length)) s

/-- GET_CERT. -/
def execGetCert (path : MgmtPath) (offset : BitVec 32) (length : BitVec 16) (s : State) : Host.Outcome State Fault Refusal :=
  .next (spdm s (objectReply path certChain offset.toNat length.toNat))

/-! ### Attestation reports (R403, R404) -/

/-- Digest M0–M7. -/
def measurement (s : State) (i : Nat) : BitVec 512 :=
  if i = 0 then Config.bootRomDigest
  else if i = 6 then s.sec.m6
  else if i = 7 then s.sec.m7
  else ((s.wmc.running.map (fun g => g.digests)).getD [])[i - 1]?.getD (Config.imageDigest i)

/-- Four bytes of a partition in a report. -/
def reportPart (s : State) (p : Nat) : Nat :=
  (if s.enabled p then 1 else 0) + (if p + 1 ≤ s.pci.numVfs then 2 else 0) + (s.part p).keyId % 256 * 256 +
  (if s.enabled p then (s.arraysOf p).length * 65536 else 0)

/-- Bytes 0–655 of a report. -/
def reportBytes (s : State) (nonce : BitVec 256) : List Byte :=
  let g := s.wmc.running.getD Image.shipped
  le 2 1 ++ le 2 1936 ++ le 32 nonce.toNat ++ le 32 (Config.entropy s.sec.draws).toNat ++ le 8 Config.serial.toNat ++
  le 8 s.now ++ versionBytes g ++ le 1 g.svn ++ le 1 (rollbackCount s.sec.rollback) ++
  le 1 (g.keySlot % 2 + (if s.sec.slot0Revoked then 2 else 0)) ++
  le 1 ((if s.wmc.imgFallback then 1 else 0) + (if s.wmc.cfgFallback then 2 else 0) + (if s.wmc.factoryCfg then 4 else 0)) ++
  [Config.stepping] ++ le 2 0 ++ le 8 s.wmc.active.setSeq ++ le 8 0 ++
  ((List.range 8).map (fun i => le 64 (measurement s i).toNat)).flatten ++ (allParts.map (fun p => le 4 (reportPart s p))).flatten

/-- A new report, signed with the identity key. -/
def buildReport (nonce : BitVec 256) (s : State) : State :=
  let b := reportBytes s nonce
  let sig := Config.falconSign identitySeed (digestOf b) s.sec.draws
  modSec (fun x => { x with report := some (b ++ le 1280 sig.toNat), draws := x.draws + 1 }) s

/-- GET_REPORT. -/
def execGetReport (path : MgmtPath) (offset : BitVec 32) (length : BitVec 16) (nonce : BitVec 256) (s : State) :
    Host.Outcome State Fault Refusal :=
  .next (spdm s (fun s =>
    if s.sec.trngFail then reply path 3 [] s
    else
      let s1 := if offset = 0 then buildReport nonce s else s
      match s1.sec.report with
      | none => reply path 2 [] s1
      | some r => objectReply path r offset.toNat length.toNat s1))

/-! ### Flash keys and entropy (R406–R408) -/

/-- A partition is enabled in the active or an armed set, or has a mapped region (R407, result 0x02). -/
def keyInUse (s : State) (p : Nat) : Bool :=
  s.enabled p || (s.wmc.armed.isSome && (s.wmc.shadow.map (fun c => (c.part p).enabled)).getD false) || ! (s.regions p).isEmpty

/-- A checkpoint command of the partition is in progress. -/
def ckptRunning (s : State) (p : Nat) : Bool := s.nvt.commits.any (fun c => c.part == p)

/-- Replaces the salt and releases the checkpoints under it. -/
def eraseKey (p k : Nat) (s : State) : State :=
  let slots := (List.range 16).filter (fun i => (s.ckpt p i).any (fun c => c.keyId == k))
  let s1 := slots.foldl (fun s i => freeImage p (i + 1) s) s
  let s2 := modNvt (fun n =>
    { n with ckpts := slots.foldl (fun t i => tabDel t (p * 16 + i)) n.ckpts, salts := tabPut 0 n.salts (p * 256 + k) (s.sec.draws + 1) }) s1
  eventP 0x0B04 1 p (le 1 p ++ le 1 k ++ le 2 slots.length) (modSec (fun x => { x with draws := x.draws + 1 }) s2)

/-- KEY_ERASE, through DOE and I3C alone. -/
def execKeyErase (path : MgmtPath) (p : Part) (keyId : Byte) (s : State) : Host.Outcome State Fault Refusal :=
  .next (spdm s (fun s =>
    if path ≠ .doe ∧ path ≠ .i3c then reply path 4 [1#8] s
    else if keyInUse s p then reply path 4 [2#8] s
    else if ckptRunning s p then reply path 4 [3#8] s
    else if s.sec.trngFail then reply path 3 [] s
    else reply path 0 [0#8] (eraseKey p keyId.toNat s)))

/-- ENTROPY_HEALTH_FAIL; the attempts of the event are free bytes. -/
def execEntropyHealthFail (test : Byte) (s : State) : Host.Outcome State Fault Refusal :=
  .next (bumpFree 1 (eventD 0x0B05 3 ([test] ++ (List.range 2).map (Config.freeByte s.free))
    (modSec (fun x => { x with trngFail := true }) s)))

end Sys2Proof.Machine
end

