-- ==== Sys2Proof/Machine/Power.lean ====
section
/-! DEFINITION. Power, clocks and sensors (R388, R411–R427, R465, R467): rails and trips, the droop response, the power and
thermal loops with their single clock steps, coolant, and PLLs. Die temperatures are in 0.25 °C (R388). -/

namespace Sys2Proof.Machine

/-! ### Row clocks (R415–R417) -/

/-- Row r. -/
def State.rowClk (s : State) (r : Nat) : RowClk := tabGet {} s.pwr.rows r
/-- Updates row r. -/
def modRow (r : Nat) (f : RowClk → RowClk) (s : State) : State :=
  modPwr (fun w => { w with rows := tabMod {} w.rows r f }) s
/-- The step s of a row (R417). -/
def State.rowStep (s : State) (r : Nat) : Nat := max (s.rowClk r).thermal s.pwr.sPower
/-- The rows. -/
def gridRows : List Nat := List.range 8

/-- A row whose present step differs from its step begins a single step of 2 µs, unless one runs. -/
def startRamp (s : State) (r : Nat) : State :=
  if (s.rowClk r).applied ≠ s.rowStep r ∧ (s.rowClk r).ramp = none then modRow r (fun x => { x with ramp := some s.now }) s else s
/-- Begins the ramps of every row. -/
def startRamps (s : State) : State := gridRows.foldl startRamp s

/-- CLOCK_STEP_RAMP_END: the single step has been applied, and the next one begins. -/
def execClockStepRampEnd (row : GridRow) (s : State) : Host.Outcome State Fault Refusal :=
  .next (
    let x := s.rowClk row
    match x.ramp with
    | none => s
    | some t =>
      if s.now < t + 2000 then s
      else
        let goal := s.rowStep row
        let a := if x.applied < goal then x.applied + 1 else if goal < x.applied then x.applied - 1 else x.applied
        startRamp (modRow row (fun y => { y with applied := a, ramp := none }) s) row)

/-- DROOP_DETECT: a detector reads more than 35 mV below the setpoint. -/
def execDroopDetect (row : GridRow) (belowMv : Nat) (s : State) : Host.Outcome State Fault Refusal :=
  .next (
    if belowMv ≤ 35 ∨ (s.rowClk row).stretch then s
    else
      modPwr (fun w => { w with stretches := satAdd 20 w.stretches 1 })
        (modRow row (fun x => { x with stretch := true, recovering := none }) s))

/-- DROOP_RECOVER: the detectors' largest reading below the setpoint, and for how long. -/
def execDroopRecover (row : GridRow) (belowMv ns : Nat) (s : State) : Host.Outcome State Fault Refusal :=
  .next (
    if (s.rowClk row).stretch && decide (belowMv ≤ 20) && decide (20 ≤ ns) then
      modRow row (fun x => { x with stretch := false, recovering := some s.now }) s
    else s)

/-! ### The loops (R418, R419, R421) -/

/-- One row of the thermal loop. -/
def thermalRow (t : Int) (s : State) (r : Nat) : State :=
  let x := s.rowClk r
  if 380 ≤ t then
    if x.thermal < 16 then modRow r (fun x => { x with thermal := x.thermal + 1, thermalAt := s.now }) s else s
  else if t < 368 ∧ 0 < x.thermal ∧ x.thermalAt + 100000 ≤ s.now then
    modRow r (fun x => { x with thermal := x.thermal - 1, thermalAt := s.now }) s
  else s

/-- The episode of R419; the sensor that event 0x0C02 names is a free value. -/
def noteThrottle (temps : List Int) (s : State) : State :=
  match gridRows.find? (fun r => decide (3 ≤ s.rowStep r)) with
  | none => modPwr (fun w => { w with throttle := false }) s
  | some r =>
    if s.pwr.throttle then s
    else
      let t := temps.getD r 0
      bumpFree 1 (eventD 0x0C02 1 (le 1 r ++ (List.range 2).map (Config.freeByte s.free) ++ le 4 (BitVec.ofInt 32 t).toNat)
        (modPwr (fun w => { w with throttle := true }) s))

/-- THERMAL_LOOP_SAMPLE: the hottest sensor of each row, and of the control cores. -/
def execThermalLoopSample (rows : List Int) (core : Int) (s : State) : Host.Outcome State Fault Refusal :=
  .next (
    let temps := gridRows.map (fun r => max (rows.getD r core) core)
    let s1 := gridRows.foldl (fun s r => thermalRow (temps.getD r 0) s r) s
    noteThrottle temps (startRamps s1))

/-- A change of s_power; while the coolant hold lasts it stays at 4 or more. -/
def setPower (v : Nat) (s : State) : State :=
  let v := if s.pwr.coolant then max 4 v else v
  if v = s.pwr.sPower then s
  else startRamps (modPwr (fun w => { w with sPower := v, sPowerAt := s.now, cap := w.cap && v != 0 }) s)

/-- The power loop raises s_power: the start of an episode records 0x0C03 with its window (1: 10 ms, 2: 1 s). -/
def raisePower (by_ window avg : Nat) (o : PowerObs) (s : State) : State :=
  let s1 :=
    if s.pwr.cap then s
    else
      eventD 0x0C03 1 (le 1 window ++ le 2 avg ++ le 2 o.iin)
        (modPwr (fun w => { w with cap := true, capEpisodes := satAdd 20 w.capEpisodes 1 }) s)
  setPower (min 16 (s1.pwr.sPower + by_)) s1

/-- POWER_LOOP_SAMPLE. -/
def execPowerLoopSample (o : PowerObs) (s : State) : Host.Outcome State Fault Refusal :=
  .next (
    let s1 := modPwr (fun w =>
      { w with vin := o.vin, iin := o.iin, pin := o.pin,
               vinLow := w.vinLow && decide (o.vin < 4000), vinHigh := w.vinHigh && decide (6000 < o.vin) }) s
    if 3000 < o.avg10ms ∨ 750 < o.iin then raisePower 4 1 o.avg10ms o s1
    else if 2400 < o.avg1s ∨ (o.vin < 4000 ∧ 600 < o.iin) then raisePower 1 2 o.avg1s o s1
    else if o.avg1s < 2350 ∧ o.iin < 580 ∧ s1.pwr.sPowerAt + 1000000 ≤ s1.now then setPower (s1.pwr.sPower - 1) s1
    else s1)

/-- COOLANT_LIMIT: the readings and whether they have been outside the limits for 1 s. The hold ends 10 s after both were
back. -/
def execCoolantLimit (inletDeciC : Int) (flowCentiL : Nat) (outside : Bool) (s : State) : Host.Outcome State Fault Refusal :=
  .next (
    let bad := decide (450 < inletDeciC) || decide (flowCentiL < 150)
    if bad then
      let s1 := modPwr (fun w => { w with coolantOkAt := none }) s
      if ! outside || s1.pwr.coolant then s1
      else
        let s2 := eventD 0x0C08 1 (le 4 (BitVec.ofInt 32 inletDeciC).toNat ++ le 4 flowCentiL)
          (modPwr (fun w => { w with coolant := true }) s1)
        setPower s2.pwr.sPower s2
    else
      match s.pwr.coolantOkAt with
      | none => modPwr (fun w => { w with coolantOkAt := some s.now }) s
      | some t => if t + 10000000000 ≤ s.now then modPwr (fun w => { w with coolant := false }) s else s)

/-! ### Rails, trips and sensors (R388, R413, R420, R421) -/

/-- The WMC switches off every package rail. -/
def railsOff (s : State) : State := modWmc (fun w => { w with railsOn := false }) s

/-- RAIL_OUT_OF_TOLERANCE: rail is the low byte of its sensor ID; VIN (1) follows R411 instead. -/
def execRailOutOfTolerance (rail : BitVec 8) (reading : BitVec 16) (us : Nat) (s : State) : Host.Outcome State Fault Refusal :=
  .next (
    if us < 100 ∨ rail.toNat < 2 ∨ 0x18 < rail.toNat then s
    else railsOff (eventD 0x0C06 3 (le 1 rail.toNat ++ le 2 reading.toNat ++ le 1 s.wmc.step) s))

/-- The die of a temperature sensor with its warning and trip limits: 0 compute, 1 base, 2–5 memory dies, 6
host-and-management, 7–14 optical engines. -/
def dieOf (i : Nat) : Option (Nat × Int × Int) :=
  if i = 0 then none
  else if i ≤ 0x3C then some (0, 400, 440)
  else if i ≤ 0x44 then some (1, 400, 440)
  else if i ≤ 0x54 then some (2 + (i - 0x45) / 4, 380, 420)
  else if i ≤ 0x58 then some (6, 380, 420)
  else if i ≤ 0x60 then some (7 + (i - 0x59), 360, 400)
  else none

/-- The hottest sensor of a die, the lowest ID among equals, and its reading. -/
def hottest (s : State) (die : Nat) : Nat × Int :=
  s.wmc.sensors.foldl (fun (m : Nat × Int) x =>
    if (dieOf x.1).any (fun d => d.1 == die) && ! x.2.failed && decide (m.2 < x.2.value.toInt) then (x.1, x.2.value.toInt) else m)
    (0, -1000)

/-- Reaction of a die to its hottest sensor (R420). -/
def dieLimits (die : Nat) (warn trip : Int) (s : State) : State :=
  let t := (hottest s die).2
  let data := le 1 die ++ le 2 (hottest s die).1 ++ le 4 (BitVec.ofInt 32 t).toNat
  let s1 :=
    if die ≠ 0 then s
    else modPwr (fun w => { w with hotSince := if 420 < t then some (w.hotSince.getD s.now) else none }) s
  let long := die = 0 && (s1.pwr.hotSince.map (fun x => decide (x + 1000000 ≤ s1.now))).getD false
  if s1.wmc.railsOn && (decide (trip ≤ t) || long) then railsOff (eventD 0x0C04 3 data s1)
  else if t < warn then modPwr (fun w => { w with warned := w.warned.filter (fun x => x != die) }) s1
  else if s1.pwr.warned.contains die then s1
  else eventD 0x0C07 1 data (modPwr (fun w => { w with warned := w.warned ++ [die] }) s1)

/-- SENSOR_UPDATE: a die temperature, the leak detector (0x0304, a value other than 0 reports a leak) or another
reading. -/
def execSensorUpdate (sensor : BitVec 16) (value : BitVec 32) (failed : Bool) (s : State) : Host.Outcome State Fault Refusal :=
  .next (
    let i := sensor.toNat
    if ! sensorKnown i then s
    else
      let v : Sensor := { value := value, failed := failed, time := s.now }
      let s1 := modWmc (fun w => { w with sensors := tabPut {} w.sensors i v }) s
      if failed then s1
      else if i = 0x0304 then
        if value ≠ 0 ∧ s1.wmc.railsOn then railsOff (eventD 0x0C05 3 (le 1 value.toNat) s1) else s1
      else
        match dieOf i with
        | some d => dieLimits d.1 d.2.1 d.2.2 s1
        | none => s1)

/-! ### PLLs (R424, R426) -/

/-- CLK_STATUS. -/
def clkStatus (s : State) : Nat :=
  let c := s.clk
  c.oeLock.toNat + (if c.refOk then 256 else 0) + (if c.rootLock then 512 else 0) + (if c.pcieLock then 1024 else 0) +
  (if c.sgmiiLock then 2048 else 0) + c.unlocks * 2 ^ 48

/-- REFERENCE_CLOCK_LOSS: event 0x0D01 with the clock (1 reference, 2 root PLL). -/
def execReferenceClockLoss (rootPll : Bool) (s : State) : Host.Outcome State Fault Refusal :=
  .next (
    let s1 := modClk (fun c =>
      { c with rootLock := false, refOk := c.refOk && rootPll, unlocks := if rootPll then satAdd 16 c.unlocks 1 else c.unlocks }) s
    railsOff (eventD 0x0D01 3 (le 1 (if rootPll then 2 else 1) ++ le 8 (clkStatus s1)) s1))

/-- Event 0x0D02: PLL 0–7 of OE0–OE7, 8 SGMII; the relock time is not known yet: free bytes. -/
def eventPll (pll : Nat) (s : State) : State :=
  bumpFree 1 (eventD 0x0D02 1 (le 1 pll ++ (List.range 4).map (Config.freeByte s.free)) s)

/-- PLL_UNLOCK; the loss of the host reference is a PCIe link down. -/
def execPllUnlock (pll : PllName) (s : State) : Host.Outcome State Fault Refusal :=
  .next (
    let s1 := modClk (fun c => { c with unlocks := satAdd 16 c.unlocks 1 }) s
    match pll with
    | .optical p =>
      eventPll p.val (portDown p .pllUnlock (modClk (fun c => { c with oeLock := c.oeLock &&& ~~~(1#8 <<< p.val) }) s1))
    | .sgmii => eventPll 8 (modClk (fun c => { c with sgmiiLock := false }) s1)
    | .pcie => modPci (fun p => { p with speed := 0, width := 0 }) (modClk (fun c => { c with pcieLock := false }) s1))

/-- PLL_RELOCK: an optical port cold-trains. -/
def execPllRelock (pll : PllName) (s : State) : Host.Outcome State Fault Refusal :=
  .next (
    match pll with
    | .optical p =>
      let s1 := modClk (fun c => { c with oeLock := c.oeLock ||| (1#8 <<< p.val) }) s
      if (s1.port p).enable && (s1.port p).state == 0 then modPort p (fun k => { k with state := 1 }) s1 else s1
    | .sgmii => modClk (fun c => { c with sgmiiLock := true }) s
    | .pcie => modClk (fun c => { c with pcieLock := true }) s)

end Sys2Proof.Machine
end

