-- ==== Sys2Proof/Machine/Boot.lean ====
section
/-! DEFINITION. Resets of the module and the boot sequence (R375–R379, R387, R397–R399, R411, R414, R440–R443, R452, R458,
R462), and the hardware records in NOR (R73). A module reset leaves the state that R443 gives at once; each
BOOT_STEP_COMPLETE then ends one step of R376. -/

namespace Sys2Proof.Machine

/-! ### What a module reset leaves (R439, R443) -/

/-- Blocks once the relocations whose RELOC record is not durable have left their new pages as free space (R250). -/
def undoRelocs (n : NvtSt) : Tab FBlock :=
  n.journal.foldl (fun bs j =>
    match j with
    | .reloc g b => bs.map (fun x => if x.1 = b then x else (x.1, { x.2 with pages := x.2.pages.erase g }))
    | _ => bs) n.blocks

/-- The flash tier as a reset leaves it: records and programs not durable are lost, the counts of NVT_GC are at their
reset values. -/
def resetNvt (n : NvtSt) : NvtSt :=
  { n with
    blocks := undoRelocs n
    journal := []
    work := []
    wrote := []
    userPages := []
    throttleUs := 0
    episodes := 0
    throttled := [] }

/-- State of a cold reset or power-on: everything at its reset value but the NOR, the fuses, T2 with its checkpoints and
the pins. -/
def coldState (resetType trigger : Nat) (s : State) : State :=
  { State.reset with
    pending := s.pending
    free := s.free
    wmc :=
      { WmcSt.reset with
        step := if s.wmc.modRstLow then 0 else 1
        resetType := resetType
        trigger := trigger
        failedSlot := s.wmc.failedSlot
        slot := s.wmc.slot
        stage1On := s.wmc.stage1On
        present := s.wmc.present
        modRstLow := s.wmc.modRstLow
        perstLow := s.wmc.perstLow
        nor := s.wmc.nor }
    pci := { PciSt.reset with hostOut := s.pci.hostOut, bar2Data := s.pci.bar2Data }
    mxa := { MxaSt.reset with hw := s.wmc.nor.hw }
    mem := { MemSt.reset with t1Deferred := s.mem.t1Deferred }
    nvt := resetNvt s.nvt
    sec := { SecSt.reset with rollback := s.sec.rollback, slot0Revoked := s.sec.slot0Revoked, draws := s.sec.draws } }

/-- Writes that a migration held: each 64-byte line ends with its old or its new content, as a free bit says (R208, R443;
notes/assumptions/1.md). -/
def settleHeld (s : State) : State :=
  s.mem.migrations.foldl (fun s m =>
    let keep := m.held.filter (fun w => (Config.freeWord s.free (w.1 / 64)).getLsbD 0)
    bumpFree 1 (keep.foldl (fun s w =>
      modMem (fun x => { x with bytes := rawPut x.bytes (byteKey m.part m.slot w.1) w.2 }) s) s)) s

/-- Memory over a warm reset: every bolt with its copies is kept, envelope protection and migrations end. -/
def warmMem (m : MemSt) : MemSt :=
  { m with
    bolts := m.bolts.map (fun x => (x.1, { x.2 with prot0 := none, prot1 := none }))
    migrations := []
    mbox := []
    mboxStatus := []
    mboxBusy := []
    raDiscarded := []
    raFetched := [] }

/-- State of a warm reset. -/
def warmState (trigger : Nat) (s0 : State) : State :=
  let s := settleHeld s0
  { State.reset with
    pending := s.pending
    free := s.free
    wmc :=
      { WmcSt.reset with
        step := 1
        resetType := 3
        trigger := trigger
        resetAt := s.now
        failedSlot := s.wmc.failedSlot
        slot := s.wmc.slot
        factoryCfg := s.wmc.factoryCfg
        cfgFallback := s.wmc.cfgFallback
        stage1On := s.wmc.stage1On
        railsOn := s.wmc.railsOn
        present := s.wmc.present
        perstLow := s.wmc.perstLow
        nor := s.wmc.nor
        hwDirty := s.wmc.hwDirty
        active := s.wmc.active
        sensors := s.wmc.sensors }
    evt :=
      { EventSt.reset with
        seq := s.evt.seq
        log := s.evt.log
        lastFatal := s.evt.lastFatal
        norStamp := s.evt.norStamp
        pldmStamp := s.evt.pldmStamp
        hostStamp := s.evt.hostStamp }
    pci := { PciSt.reset with hostOut := s.pci.hostOut, bar2Data := s.pci.bar2Data }
    mxa := { MxaSt.reset with hw := s.mxa.hw, retireDue := s.mxa.retireDue, colDue := s.mxa.colDue }
    mem := warmMem s.mem
    nvt := resetNvt s.nvt
    col := { ColSt.reset with coord := s.col.coord, withdrawn := s.col.withdrawn, laneErrors := s.col.laneErrors }
    fap := { FapSt.reset with failedModules := s.fap.failedModules, usedSlots := s.fap.usedSlots }
    sec := { s.sec with report := none }
    pwr := { s.pwr with stretches := 0, excessUs := 0, capEpisodes := 0 }
    clk := { s.clk with unlocks := 0 }
    cnt := { CntSt.reset with
      stall := (List.range 544).foldl (fun t k => tabPut {} t k { clearedAt := s.now, counts := [] }) [] } }

/-! ### Triggers (R440, R441, R452, R458, R462) -/

/-- Code of a cold reset's trigger, in the order of R440. -/
def coldTriggerCode : ColdTrigger → Nat
  | .modRstN => 1
  | .wmcRst => 2
  | .watchdog => 3
  | .inputLoss => 4

/-- A cold reset; after a loss of input the module waits unpowered. -/
def coldReset (t : ColdTrigger) (s : State) : State :=
  let s1 := coldState 2 (coldTriggerCode t) s
  if t = .inputLoss then modWmc (fun w => { w with stage1On := false, step := 0 }) s1 else s1

/-- POWER_ON: VIN above 40.0 V in an inserted module whose stage-1 converters were off. -/
def execPowerOn (vin10mV : Nat) (s : State) : Host.Outcome State Fault Refusal :=
  .next (
    if s.wmc.stage1On || ! s.wmc.present || decide (vin10mV ≤ 4000) then s
    else coldState 1 1 (modWmc (fun w => { w with stage1On := true }) s))

/-- COLD_RESET; while MOD_RST_N is low only it and the loss of input act. -/
def execColdReset (trigger : ColdTrigger) (s : State) : Host.Outcome State Fault Refusal :=
  .next (
    if ! s.wmc.stage1On then s
    else if trigger = .modRstN ∧ ! s.wmc.modRstLow then s
    else if s.wmc.modRstLow ∧ (trigger = .wmcRst ∨ trigger = .watchdog) then s
    else coldReset trigger s)

/-- The cases of R441 in which a warm trigger acts as a cold reset. -/
def warmIsCold (s : State) : Bool :=
  ! s.wmc.railsOn || s.mem.mapStoreErr || s.evt.fatal || s.evt.fatalDue || s.wmc.step == 0xFE

/-- A cold reset or power-on is in progress. -/
def coldRunning (s : State) : Bool := decide (s.wmc.step < 8) && s.wmc.resetType != 3

/-- A warm trigger: 1 PERST#, 2 WMC_RST. A cold reset that it turns into keeps it as its trigger's cause (WMC_RST). -/
def warmReset (trigger : Nat) (s : State) : State :=
  if ! s.wmc.stage1On || s.wmc.modRstLow || coldRunning s then s
  else if warmIsCold s then coldState 2 (4 + trigger) s
  else warmState trigger s

/-- WARM_RESET: PERST# is asserted. -/
def execWarmReset (s : State) : Host.Outcome State Fault Refusal :=
  .next (warmReset 1 (modWmc (fun w => { w with perstLow := true }) s))

/-- The key of WMC_RST and its type (R452). -/
def rstKeyed (value : BitVec 64) (type : Nat) : Bool :=
  value.extractLsb' 48 16 == 0x5253#16 && (value.extractLsb' 0 2).toNat == type

/-- WMC_RST_WARM. -/
def execWmcRstWarm (value : BitVec 64) (s : State) : Host.Outcome State Fault Refusal :=
  .next (if rstKeyed value 1 then warmReset 2 s else s)

/-- WMC_RST_COLD. -/
def execWmcRstCold (value : BitVec 64) (s : State) : Host.Outcome State Fault Refusal :=
  .next (if rstKeyed value 2 && s.wmc.stage1On && ! s.wmc.modRstLow then coldReset .wmcRst s else s)

/-- MOD_RST_N_ASSERT: a low level of 1 ms or longer holds the module in a cold reset. -/
def execModRstNAssert (lowUs : Nat) (s : State) : Host.Outcome State Fault Refusal :=
  .next (
    if lowUs < 1000 then s
    else
      let s1 := modWmc (fun w => { w with modRstLow := true }) s
      if s1.wmc.stage1On then coldReset .modRstN s1 else s1)

/-- MOD_RST_N_DEASSERT: step 1 begins. -/
def execModRstNDeassert (s : State) : Host.Outcome State Fault Refusal :=
  .next (
    if ! s.wmc.modRstLow then s
    else modWmc (fun w => { w with modRstLow := false, step := if w.stage1On then 1 else 0 }) s)

/-- PERST_DEASSERTION: the PCIe link trains; configuration requests get Request Retry Status until step 3 ends. While
MOD_RST_N is low only the level of the pin is noted. -/
def execPerstDeassertion (s : State) : Host.Outcome State Fault Refusal :=
  .next (modWmc (fun w =>
    { w with perstLow := false, rrs := if w.modRstLow then w.rrs else decide (w.step ≤ 3) }) s)

/-- MODULE_REMOVAL. -/
def execModuleRemoval (s : State) : Host.Outcome State Fault Refusal :=
  .next (
    let s1 := modWmc (fun w => { w with present := false }) s
    if s1.wmc.stage1On then coldReset .inputLoss s1 else s1)

/-- MODULE_INSERTION: MOD_PRSNT_N low for 50 ms. -/
def execModuleInsertion (lowMs : Nat) (s : State) : Host.Outcome State Fault Refusal :=
  .next (if lowMs < 50 then s else modWmc (fun w => { w with present := true }) s)

/-- Event 0x0C01: direction 1 below 40 V, 2 above 60 V. -/
def eventVin (vin dir : Nat) (s : State) : State := eventD 0x0C01 1 (le 2 vin ++ le 1 dir) s

/-- VIN_OUT_OF_RANGE: VIN in 10 mV, and for how long it has been there. -/
def execVinOutOfRange (vin10mV us : Nat) (s : State) : Host.Outcome State Fault Refusal :=
  .next (
    let s1 := modPwr (fun w => { w with vin := vin10mV }) s
    if (vin10mV < 3600 ∧ 50 ≤ us) ∨ (6300 < vin10mV ∧ 10 ≤ us) then
      if s1.wmc.stage1On then coldReset .inputLoss s1 else s1
    else if us < 100 then s1
    else if vin10mV < 4000 then
      if s1.pwr.vinLow then s1 else eventVin vin10mV 1 (modPwr (fun w => { w with vinLow := true, vinHigh := false }) s1)
    else if 6000 < vin10mV then
      if s1.pwr.vinHigh then s1 else eventVin vin10mV 2 (modPwr (fun w => { w with vinHigh := true, vinLow := false }) s1)
    else modPwr (fun w => { w with vinLow := false, vinHigh := false }) s1)

/-- IMAGE_TRIAL_TIMEOUT: the trial flag is cleared, and the other slot boots. -/
def execImageTrialTimeout (s : State) : Host.Outcome State Fault Refusal :=
  .next (
    let v := s.wmc.nor.imageSlot s.wmc.slot
    if decide (1 ≤ s.wmc.step) && decide (s.wmc.step < 8) && v.trial && decide (s.wmc.resetAt + 30000000000 ≤ s.now) then
      coldReset .watchdog (modWmc (fun w => { w with failedSlot := some w.slot }) (setSlot s.wmc.slot { v with trial := false } s))
    else s)

/-! ### Boot steps 1 and 2: the image (R378, R397, R399) -/

/-- The slot tried first. -/
def firstSlot (s : State) : Nat :=
  let a := s.wmc.nor.slotA
  let b := s.wmc.nor.slotB
  match s.wmc.failedSlot with
  | some k => if (s.wmc.nor.imageSlot (1 - k)).valid then 1 - k else k
  | none =>
    if a.valid && a.trial then 0
    else if b.valid && b.trial then 1
    else if ! a.valid then 1
    else if b.valid && decide (a.version < b.version) then 1
    else 0

/-- Result of a slot: 0 passes, 1–6 the reason of R397, 0xFF no valid directory entry. -/
def slotResult (s : State) (k : Nat) : Nat :=
  let v := s.wmc.nor.imageSlot k
  if v.valid then verifyReason s v.image else 0xFF

/-- The WMC starts from a verified image. -/
def startImage (k : Nat) (s : State) : State :=
  modWmc (fun w => { w with slot := k, step := 3, running := some (w.nor.imageSlot k).image }) s

/-- Event 0x0A03: cause 1 verification, 2 trial watchdog. -/
def eventFallback (slot cause : Nat) (s : State) : State := eventD 0x0A03 1 (le 1 slot ++ le 1 cause) s

/-- Events of images that failed verification, once the WMC runs. -/
def eventsVerify (ks : List Nat) (s : State) : State :=
  (ks.filter (fun k => slotResult s k != 0 && slotResult s k != 0xFF)).foldl (fun s k =>
    eventVerify k (slotResult s k) (s.wmc.nor.imageSlot k).image.svn s) s

/-- Step 2: the chosen image, then the other valid slot, then recovery. -/
def verifyStep (s : State) : State :=
  let k := s.wmc.slot
  let fell := s.wmc.failedSlot
  let s := modWmc (fun w => { w with failedSlot := none }) s
  let s := match fell with
    | some j => if j = k then s else modWmc (fun w => { w with imgFallback := true }) s
    | none => s
  let watchdog (s : State) : State := match fell with
    | some j => eventFallback j 2 s
    | none => s
  if slotResult s k = 0 then watchdog (startImage k s)
  else if slotResult s (1 - k) = 0 then
    let s1 := modWmc (fun w => { w with imgFallback := true }) (startImage (1 - k) s)
    eventsVerify [k] (eventFallback k 1 (watchdog s1))
  else
    let s1 := modWmc (fun w => { w with step := 0xFE }) s
    eventsVerify [0, 1] (eventD 0x0A04 3 (le 1 (slotResult s1 0) ++ le 1 (slotResult s1 1)) (watchdog s1))

/-! ### Step 3: rails, PLLs and hardware records (R414, R73) -/

/-- Step 3. A cold boot counts; a rail outside tolerance stops the sequence with its rails off (its reading is free). -/
def railStep (o : BootObs) (s : State) : State :=
  let cold := s.wmc.resetType ≠ 3
  match (if cold then o.railFail else none) with
  | some rail =>
    bumpFree 1 (railsOff (eventD 0x0C06 3 ([rail] ++ (List.range 2).map (Config.freeByte s.free) ++ le 1 3) s))
  | none =>
    let s1 := if cold then
        modHw (fun h => { h with bootCount := satAdd 16 h.bootCount 1 })
          (modClk (fun c => { c with refOk := true, rootLock := true, oeLock := 0xFF, sgmiiLock := true, pcieLock := true }) s)
      else s
    bumpFree 1 (modSec (fun x => { x with m7 := Config.recordDigest s.free })
      (modWmc (fun w => { w with railsOn := true, rrs := false, step := if cold then 4 else 5 }) s1))

/-! ### Step 4: the configuration set (R379) -/

/-- A configuration slot whose set may be chosen: committed, with a valid header. -/
def bootSets (s : State) : List ConfigSet :=
  let ok (x : Option CfgSlot) : List ConfigSet := match x with
    | some v => if v.committed then [v.set] else []
    | none => []
  sortBy (fun a b => decide (b.setSeq ≤ a.setSeq)) (ok s.wmc.nor.cfg0 ++ ok s.wmc.nor.cfg1)

/-- The factory set lowered to the present capacities (R379). -/
def factorySet (s : State) : ConfigSet :=
  let r : PartRec := {}
  let used := (List.range 8).filter (fun e => r.role e != 0)
  let r' : PartRec :=
    { r with
      resT1 := min r.resT1 s.mem.t1Rate
      resLink := used.foldl (fun m e => min m (s.portCapacity e)) r.resLink
      quotaT1 := min r.quotaT1 s.mem.t1Pages
      arraySet := s.mxa.hw.offline.foldl (fun v l => v &&& ~~~(1#128 <<< l)) r.arraySet }
  { ({} : ConfigSet) with parts := [(0, r')] }

/-- Event 0x0A05. -/
def eventPassed (seq reason used : Nat) (s : State) : State := eventD 0x0A05 1 (le 8 seq ++ le 1 reason ++ le 8 used) s

/-- Why a set is passed over at boot (R383; its set_seq is not checked). -/
def bootReason (s : State) (c : ConfigSet) : Nat :=
  if c.raw.isEmpty then setReason s c
  else
    let r := parseSet c.raw none
    if r.1 ≠ 0 then r.1 else setReason s c

/-- T1 without the channels retired so far or at this reset (R231). -/
def applyT1Records (s : State) : State :=
  let late := s.mem.t1Deferred.filter (fun ch => ! s.mxa.hw.t1Retired.contains ch)
  let s1 := if late.isEmpty then s else modHw (fun h => { h with t1Retired := h.t1Retired ++ late }) s
  let n := s1.mxa.hw.t1Retired.length
  modMem (fun m => { m with t1Deferred := [], t1Pages := 757760 - 3968 * n, t1Rate := 3200000 - 17000 * n }) s1

/-- The array map at a cold reset: the spare list of the set while the record holds no retirement (R386). -/
def applySpares (c : ConfigSet) (s : State) : State :=
  if s.mxa.hw.retired.isEmpty ∧ s.mxa.hw.sparesFree ≠ c.device.spares then
    modHw (fun h => { h with phys := defaultMap c.device.spares, sparesFree := c.device.spares }) s
  else s

/-- Step 4: the sets in order of set_seq, then the factory set; each one passed over records 0x0A05. An uncommitted newer
set counts as passed over (R387). -/
def configStep (s0 : State) : State :=
  let s := applyT1Records s0
  let sets := bootSets s
  let bad := sets.takeWhile (fun c => bootReason s c != 0)
  let rest := sets.drop bad.length
  let c := match rest with
    | c :: _ => c
    | [] => factorySet s
  let newer := ([s.wmc.nor.cfg0, s.wmc.nor.cfg1].filterMap (fun x => x)).filter (fun v =>
    ! v.committed && decide (c.setSeq < v.set.setSeq))
  let s1 := modWmc (fun w =>
    { w with factoryCfg := rest.isEmpty, cfgFallback := ! bad.isEmpty || ! newer.isEmpty, step := 5,
             reason := (bad.head?.map (fun b => bootReason s b)).getD 0 }) (applySpares c s)
  let s2 := grantQuotas (makeActive c s1)
  let s3 := newer.foldl (fun s v => eventPassed v.set.setSeq 0 c.setSeq s) s2
  let s4 := bad.foldl (fun t b => eventPassed b.setSeq (bootReason s b) c.setSeq t) s3
  if sets.isEmpty && newer.isEmpty then eventPassed 0 0 0 s4 else s4

/-! ### Steps 5 to 8 -/

/-- Step 5: enabled ports begin their cold training; a warm reset grants the GAB quotas here (R107). -/
def linkStep (s : State) : State :=
  let s1 := (List.range 8).foldl (fun s e =>
    if (s.port e).enable then modPort e (fun p => { p with state := 1 }) s else s) s
  let warm := s.wmc.resetType = 3
  modWmc (fun w => { w with step := if warm then 7 else 6 }) (if warm then grantQuotas s1 else s1)

/-- Step 6: T1 trains; a channel whose training fails is retired (R231). -/
def t1Step (o : BootObs) (s : State) : State :=
  modWmc (fun w => { w with step := 7 }) (o.t1Fail.foldl (fun s ch => retireT1 ch.val s) s)

/-- The outcome of each commit (R253), and after a cold reset the T2 pages that no checkpoint holds (R252). -/
def replay (s : State) : State :=
  let gone := s.nvt.commits.filter (fun c => decide (c.phase ≤ 2))
  let s1 := gone.foldl (fun s c => discardCommit c s) s
  let s2 := modNvt (fun n => { n with commits := [] }) s1
  if s.wmc.resetType = 3 then s2 else ftlFree (fun g => g.origin == 0) s2

/-- Step 7: journal replay with 0x0506 (its count of records is free) and 0x0507. -/
def replayStep (o : BootObs) (s : State) : State :=
  let gone := s.nvt.commits.filter (fun c => decide (c.phase ≤ 2) && c.begun)
  let s1 := eventD 0x0506 1 (le 1 s.wmc.resetType ++ (List.range 2).map (Config.freeByte s.free) ++ le 2 o.crcAbsent)
    (bumpFree 1 (replay s))
  gone.foldl (fun t c => eventDiscarded s.wmc.resetType c t) s1

/-- The fuse changes that the committed image calls for (R398): a blow that fails records 0x0B05 with its fuse (1 counter,
2 slot 0 revoked) and 4 attempts. -/
def blowFuses (o : BootObs) (g : Image) (s : State) : State :=
  let old := rollbackCount s.sec.rollback
  let s1 :=
    if g.svn ≤ old then s
    else if o.blowFails then eventD 0x0B05 1 (le 1 1 ++ le 2 4) s
    else eventD 0x0B02 1 (le 1 old ++ le 1 g.svn) (modSec (fun x => { x with rollback := x.rollback ||| (1#64 <<< (g.svn - 1)) }) s)
  if ! g.revokeSlot0 || g.keySlot != 1 || s1.sec.slot0Revoked then s1
  else if o.blowFails then eventD 0x0B05 1 (le 1 2 ++ le 2 4) s1
  else eventD 0x0B03 1 (versionBytes g) (modSec (fun x => { x with slot0Revoked := true }) s1)

/-- State ready: 0x0A01, 0x0A09, and a trial image becomes the committed one. The records applied are a free count. -/
def readyStep (o : BootObs) (s : State) : State :=
  let k := s.wmc.slot
  let v := s.wmc.nor.imageSlot k
  let ns := s.now - s.wmc.resetAt
  let s1 := setSlot k { v with trial := false } (modWmc (fun w => { w with step := 8 }) s)
  let s2 := eventD 0x0A01 1
    (le 1 s.wmc.resetType ++ le 1 k ++ le 4 (ns / 1000000) ++ (List.range 2).map (Config.freeByte s.free)) (bumpFree 1 s1)
  let s3 := eventD 0x0A09 1 (le 1 s.wmc.resetType ++ le 1 s.wmc.trigger ++ le 4 (ns / 1000)) s2
  blowFuses o v.image s3

/-- BOOT_STEP_COMPLETE. A device-fatal stop or a low MOD_RST_N holds the sequence. -/
def execBootStepComplete (o : BootObs) (s : State) : Host.Outcome State Fault Refusal :=
  .next (
    if ! s.wmc.stage1On || s.wmc.modRstLow || s.evt.fatal || s.evt.fatalDue then s
    else
      match s.wmc.step with
      | 1 => modWmc (fun w => { w with slot := firstSlot s, step := 2 }) s
      | 2 => verifyStep s
      | 3 => railStep o s
      | 4 => configStep s
      | 5 => linkStep s
      | 6 => t1Step o s
      | 7 => readyStep o (replayStep o s)
      | _ => s)

/-! ### Hardware records (R73, R404) -/

/-- HW_RECORD_WRITE: the live facts go to the NOR records, and M7 is taken again. -/
def execHwRecordWrite (s : State) : Host.Outcome State Fault Refusal :=
  .next (
    if ! s.wmc.hwDirty then s
    else
      bumpFree 1 (modSec (fun x => { x with m7 := Config.recordDigest s.free })
        (modWmc (fun w => { w with nor := { w.nor with hw := s.mxa.hw }, hwDirty := false }) s)))

end Sys2Proof.Machine
end

