-- ==== Sys2Proof/Machine/Dispatch.lean ====
section
/-! DEFINITION. One arm for each command: a direct call of its meaning. -/

namespace Sys2Proof.Machine

def exec (i : Instr) (s : State) : Host.Outcome State Fault Refusal :=
  match i with
  | .powerOn vin10mV => Sys2Proof.Machine.execPowerOn vin10mV s
  | .coldReset trigger => Sys2Proof.Machine.execColdReset trigger s
  | .warmReset => Sys2Proof.Machine.execWarmReset s
  | .pfFlr trigger => Sys2Proof.Machine.execPfFlr trigger s
  | .partitionFlr p trigger => Sys2Proof.Machine.execPartitionFlr p trigger s
  | .modRstNAssert lowUs => Sys2Proof.Machine.execModRstNAssert lowUs s
  | .moduleRemoval => Sys2Proof.Machine.execModuleRemoval s
  | .moduleInsertion lowMs => Sys2Proof.Machine.execModuleInsertion lowMs s
  | .vinOutOfRange vin10mV us => Sys2Proof.Machine.execVinOutOfRange vin10mV us s
  | .imageTrialTimeout => Sys2Proof.Machine.execImageTrialTimeout s
  | .queueDoorbell q tail => Sys2Proof.Machine.execQueueDoorbell q tail s
  | .queueEnable fn q => Sys2Proof.Machine.execQueueEnable fn q s
  | .queueDisable q => Sys2Proof.Machine.execQueueDisable q s
  | .queueResume q => Sys2Proof.Machine.execQueueResume q s
  | .queueAbort q => Sys2Proof.Machine.execQueueAbort q s
  | .commandDispatch q errs => Sys2Proof.Machine.execCommandDispatch q s errs
  | .commandComplete q pos => Sys2Proof.Machine.execCommandComplete q pos s
  | .nop q pos => Sys2Proof.Machine.execNop q pos s
  | .rejectedOpcode q pos => Sys2Proof.Machine.execRejectedOpcode q pos s
  | .mxMul q pos errs => Sys2Proof.Machine.execMxMul q pos errs s
  | .mxMac q pos errs => Sys2Proof.Machine.execMxMac q pos errs s
  | .mxZacc q pos => Sys2Proof.Machine.execMxZacc q pos s
  | .mxSacc q pos errs => Sys2Proof.Machine.execMxSacc q pos s errs
  | .mxLacc q pos errs => Sys2Proof.Machine.execMxLacc q pos errs s
  | .shadowMismatchVote l vote => Sys2Proof.Machine.execShadowMismatchVote l vote s
  | .vxAdd q pos errs => Sys2Proof.Machine.execVxAdd q pos s errs
  | .vxSub q pos errs => Sys2Proof.Machine.execVxSub q pos s errs
  | .vxMul q pos errs => Sys2Proof.Machine.execVxMul q pos s errs
  | .vxFma q pos errs => Sys2Proof.Machine.execVxFma q pos s errs
  | .vxMax q pos errs => Sys2Proof.Machine.execVxMax q pos s errs
  | .vxMin q pos errs => Sys2Proof.Machine.execVxMin q pos s errs
  | .vxAbs q pos errs => Sys2Proof.Machine.execVxAbs q pos s errs
  | .vxNeg q pos errs => Sys2Proof.Machine.execVxNeg q pos s errs
  | .vxMov q pos errs => Sys2Proof.Machine.execVxMov q pos s errs
  | .vxSel q pos errs => Sys2Proof.Machine.execVxSel q pos s errs
  | .vxCeq q pos errs => Sys2Proof.Machine.execVxCeq q pos s errs
  | .vxClt q pos errs => Sys2Proof.Machine.execVxClt q pos s errs
  | .vxCle q pos errs => Sys2Proof.Machine.execVxCle q pos s errs
  | .vxCgt q pos errs => Sys2Proof.Machine.execVxCgt q pos s errs
  | .vxCge q pos errs => Sys2Proof.Machine.execVxCge q pos s errs
  | .vxCun q pos errs => Sys2Proof.Machine.execVxCun q pos s errs
  | .vxCvt q pos errs => Sys2Proof.Machine.execVxCvt q pos s errs
  | .vxExp q pos errs => Sys2Proof.Machine.execVxExp q pos s errs
  | .vxLog q pos errs => Sys2Proof.Machine.execVxLog q pos s errs
  | .vxRcp q pos errs => Sys2Proof.Machine.execVxRcp q pos s errs
  | .vxRsqrt q pos errs => Sys2Proof.Machine.execVxRsqrt q pos s errs
  | .vxTanh q pos errs => Sys2Proof.Machine.execVxTanh q pos s errs
  | .vxRsum q pos errs => Sys2Proof.Machine.execVxRsum q pos s errs
  | .vxRsumsq q pos errs => Sys2Proof.Machine.execVxRsumsq q pos s errs
  | .vxRmax q pos errs => Sys2Proof.Machine.execVxRmax q pos s errs
  | .vxRmin q pos errs => Sys2Proof.Machine.execVxRmin q pos s errs
  | .vxRmv q pos errs => Sys2Proof.Machine.execVxRmv q pos s errs
  | .vxPerm q pos errs => Sys2Proof.Machine.execVxPerm q pos s errs
  | .vxCompress q pos errs => Sys2Proof.Machine.execVxCompress q pos s errs
  | .vxExpand q pos errs => Sys2Proof.Machine.execVxExpand q pos s errs
  | .vxLd q pos errs => Sys2Proof.Machine.execVxLd q pos errs s
  | .vxSt q pos errs => Sys2Proof.Machine.execVxSt q pos s errs
  | .vxStf q pos errs => Sys2Proof.Machine.execVxStf q pos s errs
  | .txMove q pos errs => Sys2Proof.Machine.execTxMove q pos errs s
  | .txFetch q pos errs => Sys2Proof.Machine.execTxFetch q pos errs s
  | .txSpill q pos errs => Sys2Proof.Machine.execTxSpill q pos s errs
  | .txPin q pos => Sys2Proof.Machine.execTxPin q pos s
  | .txUnpin q pos => Sys2Proof.Machine.execTxUnpin q pos s
  | .txAttr q pos => Sys2Proof.Machine.execTxAttr q pos s
  | .txMap q pos => Sys2Proof.Machine.execTxMap q pos s
  | .txUnmap q pos => Sys2Proof.Machine.execTxUnmap q pos s
  | .txCkpt q pos errs => Sys2Proof.Machine.execTxCkpt q pos s errs
  | .txRestore q pos errs => Sys2Proof.Machine.execTxRestore q pos errs s
  | .txCkdrop q pos => Sys2Proof.Machine.execTxCkdrop q pos s
  | .txGbind q pos errs => Sys2Proof.Machine.execTxGbind q pos s errs
  | .txGzero q pos => Sys2Proof.Machine.execTxGzero q pos s
  | .txGflush q pos errs => Sys2Proof.Machine.execTxGflush q pos s errs
  | .gflushWaitTimeout q pos errs => Sys2Proof.Machine.execGflushWaitTimeout q pos s errs
  | .gabContributionAdd q pos band errs => Sys2Proof.Machine.execGabContributionAdd q pos band s errs
  | .gabWaitTimeout q pos band => Sys2Proof.Machine.execGabWaitTimeout q pos band s
  | .kpWait q pos => Sys2Proof.Machine.execKpWait q pos s
  | .kpWaitSatisfied q pos => Sys2Proof.Machine.execKpWaitSatisfied q pos s
  | .kpSet q pos => Sys2Proof.Machine.execKpSet q pos s
  | .kpAdd q pos => Sys2Proof.Machine.execKpAdd q pos s
  | .kpCas q pos => Sys2Proof.Machine.execKpCas q pos s
  | .keeperSetHost fn k value => Sys2Proof.Machine.execKeeperSetHost fn k value s
  | .keeperAddHost fn k value => Sys2Proof.Machine.execKeeperAddHost fn k value s
  | .phMark q pos => Sys2Proof.Machine.execPhMark q pos s
  | .envOpen q pos => Sys2Proof.Machine.execEnvOpen q pos s
  | .envJoin q pos => Sys2Proof.Machine.execEnvJoin q pos s
  | .envClose q pos => Sys2Proof.Machine.execEnvClose q pos s
  | .envelopeReady p uid errs => Sys2Proof.Machine.execEnvelopeReady p uid s errs
  | .admissionEvaluate p errs => Sys2Proof.Machine.execAdmissionEvaluate p s errs
  | .projectionEvaluate p uid draws => Sys2Proof.Machine.execProjectionEvaluate p uid draws s
  | .envelopeComplete p uid => Sys2Proof.Machine.execEnvelopeComplete p uid s
  | .fnEpoch q pos => Sys2Proof.Machine.execFnEpoch q pos s
  | .epochFenceClose q pos => Sys2Proof.Machine.execEpochFenceClose q pos s
  | .fnDrain q pos => Sys2Proof.Machine.execFnDrain q pos s
  | .coAred q pos errs => Sys2Proof.Machine.execCoAred q pos s errs
  | .coRscat q pos errs => Sys2Proof.Machine.execCoRscat q pos s errs
  | .coAgath q pos errs => Sys2Proof.Machine.execCoAgath q pos s errs
  | .coBcast q pos errs => Sys2Proof.Machine.execCoBcast q pos s errs
  | .coBarr q pos => Sys2Proof.Machine.execCoBarr q pos s
  | .coA2a q pos errs => Sys2Proof.Machine.execCoA2a q pos s errs
  | .coA2av q pos errs => Sys2Proof.Machine.execCoA2av q pos s errs
  | .coGbind q pos errs => Sys2Proof.Machine.execCoGbind q pos s errs
  | .collectiveSeqStart q pos errs => Sys2Proof.Machine.execCollectiveSeqStart q pos s errs
  | .collectiveComplete q pos errs => Sys2Proof.Machine.execCollectiveComplete q pos s errs
  | .collectiveDeadline q pos => Sys2Proof.Machine.execCollectiveDeadline q pos s
  | .feedRequest f errs => Sys2Proof.Machine.execFeedRequest f s errs
  | .streamOpen via c => Sys2Proof.Machine.execStreamOpen via c s
  | .streamAck via c => Sys2Proof.Machine.execStreamAck via c s
  | .streamClose via c => Sys2Proof.Machine.execStreamClose via c s
  | .streamRefuse via c => Sys2Proof.Machine.execStreamRefuse via c s
  | .chunkReceive c => Sys2Proof.Machine.execChunkReceive c s
  | .txSlot p measured => Sys2Proof.Machine.execTxSlot p s measured
  | .dataFlitReceive p flit => Sys2Proof.Machine.execDataFlitReceive p flit s
  | .lcfReceive p lcf retrained => Sys2Proof.Machine.execLcfReceive p lcf s retrained
  | .lcfTimeout p => Sys2Proof.Machine.execLcfTimeout p s
  | .portDown p cause => Sys2Proof.Machine.execPortDown p cause s
  | .portColdTrain p o => Sys2Proof.Machine.execPortColdTrain p o s
  | .trainingRetry p => Sys2Proof.Machine.execTrainingRetry p s
  | .switchPoint p index => Sys2Proof.Machine.execSwitchPoint p index s
  | .biasCheck p bias => Sys2Proof.Machine.execBiasCheck p bias s
  | .spareTrainComplete p w margin => Sys2Proof.Machine.execSpareTrainComplete p w margin s
  | .laserPowerDrop p w dropCentiDb => Sys2Proof.Machine.execLaserPowerDrop p w dropCentiDb s
  | .laneStepDown p lane newMargin => Sys2Proof.Machine.execLaneStepDown p lane newMargin s
  | .ringHoldEnter p w rx detunePct => Sys2Proof.Machine.execRingHoldEnter p w rx detunePct s
  | .ringHoldExit p w detunePct us => Sys2Proof.Machine.execRingHoldExit p w detunePct us s
  | .ringHoldTimeout p w => Sys2Proof.Machine.execRingHoldTimeout p w s
  | .laserShutdown p => Sys2Proof.Machine.execLaserShutdown p s
  | .exoStepUp p enob64 enob32 => Sys2Proof.Machine.execExoStepUp p enob64 enob32 s
  | .exoRetrain p o => Sys2Proof.Machine.execExoRetrain p o s
  | .exoEnable p enable => Sys2Proof.Machine.execExoEnable p enable s
  | .exoInjWrite p value half => Sys2Proof.Machine.execExoInjWrite p value s half
  | .exoCntClear p => Sys2Proof.Machine.execExoCntClear p s
  | .cinchCall m => Sys2Proof.Machine.execCinchCall m s
  | .cinchReport m => Sys2Proof.Machine.execCinchReport m s
  | .cinchPropose m => Sys2Proof.Machine.execCinchPropose m s
  | .cinchAccept m => Sys2Proof.Machine.execCinchAccept m s
  | .cinchDecide m => Sys2Proof.Machine.execCinchDecide m s
  | .reportCollectTimeout item => Sys2Proof.Machine.execReportCollectTimeout item s
  | .acceptCollectTimeout item => Sys2Proof.Machine.execAcceptCollectTimeout item s
  | .cinchRoundTimeout item => Sys2Proof.Machine.execCinchRoundTimeout item s
  | .drainCall slotFree => Sys2Proof.Machine.execDrainCall slotFree s
  | .fapDrainGo => Sys2Proof.Machine.execFapDrainGo s
  | .fapRoundCntClear => Sys2Proof.Machine.execFapRoundCntClear s
  | .fapShadowCntClear => Sys2Proof.Machine.execFapShadowCntClear s
  | .knownAnswerTest a o => Sys2Proof.Machine.execKnownAnswerTest a o s
  | .currentWindowGrant => Sys2Proof.Machine.execCurrentWindowGrant s
  | .fillFloorTimeout l => Sys2Proof.Machine.execFillFloorTimeout l s
  | .columnSpare a col => Sys2Proof.Machine.execColumnSpare a col s
  | .arrayRetire a errs => Sys2Proof.Machine.execArrayRetire a errs s
  | .hwRecordWrite => Sys2Proof.Machine.execHwRecordWrite s
  | .demandMigration p dva pendingSlot tier agent errs => Sys2Proof.Machine.execDemandMigration p dva pendingSlot tier agent errs s
  | .migrationComplete p dva pendingSlot => Sys2Proof.Machine.execMigrationComplete p dva pendingSlot s
  | .memRgnGo p => Sys2Proof.Machine.execMemRgnGo p s
  | .patrolScrub errs => Sys2Proof.Machine.execPatrolScrub errs s
  | .t1RehashComplete ch => Sys2Proof.Machine.execT1RehashComplete ch s
  | .memRaClear p => Sys2Proof.Machine.execMemRaClear p s
  | .staticWearLevelling worn => Sys2Proof.Machine.execStaticWearLevelling worn s
  | .readDisturbRefresh block => Sys2Proof.Machine.execReadDisturbRefresh block s
  | .retentionScan block correctedPct errs => Sys2Proof.Machine.execRetentionScan block correctedPct s errs
  | .retentionRefresh block => Sys2Proof.Machine.execRetentionRefresh block s
  | .badBlockRetire block failed => Sys2Proof.Machine.execBadBlockRetire block s failed
  | .garbageCollection => Sys2Proof.Machine.execGarbageCollection s
  | .gcThrottle ch us waiting => Sys2Proof.Machine.execGcThrottle ch us waiting s
  | .journalRecordDurable => Sys2Proof.Machine.execJournalRecordDurable s
  | .nvtGcClear => Sys2Proof.Machine.execNvtGcClear s
  | .hostBar2Access fn offset acc errs => Sys2Proof.Machine.execHostBar2Access fn offset acc errs s
  | .noRegisterAccess fn offset => Sys2Proof.Machine.execNoRegisterAccess fn offset s
  | .misalignedRegisterAccess fn offset => Sys2Proof.Machine.execMisalignedRegisterAccess fn offset s
  | .registerWrite fn offset half value => Sys2Proof.Machine.execRegisterWrite fn offset half value s
  | .linkChange speed width flit => Sys2Proof.Machine.execLinkChange speed width flit s
  | .pciAbiOffer fn major minor => Sys2Proof.Machine.execPciAbiOffer fn major minor s
  | .msixCoalesceExpire fn vector => Sys2Proof.Machine.execMsixCoalesceExpire fn vector s
  | .msixUnmask fn vector => Sys2Proof.Machine.execMsixUnmask fn vector s
  | .dmaDoorbell d tail => Sys2Proof.Machine.execDmaDoorbell d tail s
  | .dmaEnable fn d enable => Sys2Proof.Machine.execDmaEnable fn d enable s
  | .dmaAbort d => Sys2Proof.Machine.execDmaAbort d s
  | .dmaDescriptorStart d desc data moved errs => Sys2Proof.Machine.execDmaDescriptorStart d desc data moved s errs
  | .dmaDescriptorComplete d errs => Sys2Proof.Machine.execDmaDescriptorComplete d s errs
  | .dmaHostRequestFail d kind hostAddr => Sys2Proof.Machine.execDmaHostRequestFail d kind hostAddr s
  | .respRpWrite p rp => Sys2Proof.Machine.execRespRpWrite p rp s
  | .tcsAdmCntClear p => Sys2Proof.Machine.execTcsAdmCntClear p s
  | .normRpWrite p rp => Sys2Proof.Machine.execNormRpWrite p rp s
  | .evtRpWrite rp => Sys2Proof.Machine.execEvtRpWrite rp s
  | .cntClampClear p sameCycle => Sys2Proof.Machine.execCntClampClear p sameCycle s
  | .cntAccClear p => Sys2Proof.Machine.execCntAccClear p s
  | .cntLateClear p => Sys2Proof.Machine.execCntLateClear p s
  | .colCntClear p => Sys2Proof.Machine.execColCntClear p s
  | .pwrCntClear => Sys2Proof.Machine.execPwrCntClear s
  | .cntStallClear e => Sys2Proof.Machine.execCntStallClear e s
  | .cntSnap parts shared => Sys2Proof.Machine.execCntSnap parts shared s
  | .cntSelvClear p => Sys2Proof.Machine.execCntSelvClear p s
  | .cntFillClear => Sys2Proof.Machine.execCntFillClear s
  | .wmcRstWarm value => Sys2Proof.Machine.execWmcRstWarm value s
  | .wmcRstCold value => Sys2Proof.Machine.execWmcRstCold value s
  | .haltClear bits => Sys2Proof.Machine.execHaltClear bits s
  | .partitionHalt p => Sys2Proof.Machine.execPartitionHalt p s
  | .deviceFatalStop => Sys2Proof.Machine.execDeviceFatalStop s
  | .stageBegin path => Sys2Proof.Machine.execStageBegin path s
  | .stageData path offset data => Sys2Proof.Machine.execStageData path offset data s
  | .stageEnd path => Sys2Proof.Machine.execStageEnd path s
  | .stageTimeout => Sys2Proof.Machine.execStageTimeout s
  | .arm path swapStep timeoutMs => Sys2Proof.Machine.execArm path swapStep timeoutMs s
  | .abort path => Sys2Proof.Machine.execAbort path s
  | .swapApply => Sys2Proof.Machine.execSwapApply s
  | .swapTimeout => Sys2Proof.Machine.execSwapTimeout s
  | .commitWordProgram => Sys2Proof.Machine.execCommitWordProgram s
  | .readActive path => Sys2Proof.Machine.execReadActive path s
  | .readLog path persistent index count => Sys2Proof.Machine.execReadLog path persistent index count s
  | .coord fromRack rack spare spareSlot z y x => Sys2Proof.Machine.execCoord fromRack rack spare spareSlot z y x s
  | .getVersionSupport path msgType => Sys2Proof.Machine.execGetVersionSupport path msgType s
  | .getPldmVersion path pldmType => Sys2Proof.Machine.execGetPldmVersion path pldmType s
  | .setEventReceiver path receiver => Sys2Proof.Machine.execSetEventReceiver path receiver s
  | .pldmSensorRead path sensor => Sys2Proof.Machine.execPldmSensorRead path sensor s
  | .requestUpdate path => Sys2Proof.Machine.execRequestUpdate path s
  | .firmwareDataTransfer path offset data => Sys2Proof.Machine.execFirmwareDataTransfer path offset data s
  | .verifyComplete path => Sys2Proof.Machine.execVerifyComplete path s
  | .activateFirmware path => Sys2Proof.Machine.execActivateFirmware path s
  | .spdmGetVersion path => Sys2Proof.Machine.execSpdmGetVersion path s
  | .spdmGetCapabilities path => Sys2Proof.Machine.execSpdmGetCapabilities path s
  | .spdmNegotiateAlgorithms path => Sys2Proof.Machine.execSpdmNegotiateAlgorithms path s
  | .spdmUnsupportedRequest path code => Sys2Proof.Machine.execSpdmUnsupportedRequest path code s
  | .getCert path offset length => Sys2Proof.Machine.execGetCert path offset length s
  | .getReport path offset length nonce => Sys2Proof.Machine.execGetReport path offset length nonce s
  | .keyErase path p keyId => Sys2Proof.Machine.execKeyErase path p keyId s
  | .entropyHealthFail test => Sys2Proof.Machine.execEntropyHealthFail test s
  | .sensorUpdate sensor value failed => Sys2Proof.Machine.execSensorUpdate sensor value failed s
  | .coolantLimit inletDeciC flowCentiL outside => Sys2Proof.Machine.execCoolantLimit inletDeciC flowCentiL outside s
  | .railOutOfTolerance rail reading us => Sys2Proof.Machine.execRailOutOfTolerance rail reading us s
  | .droopDetect row belowMv => Sys2Proof.Machine.execDroopDetect row belowMv s
  | .droopRecover row belowMv ns => Sys2Proof.Machine.execDroopRecover row belowMv ns s
  | .thermalLoopSample rows core => Sys2Proof.Machine.execThermalLoopSample rows core s
  | .powerLoopSample o => Sys2Proof.Machine.execPowerLoopSample o s
  | .referenceClockLoss rootPll => Sys2Proof.Machine.execReferenceClockLoss rootPll s
  | .pllUnlock pll => Sys2Proof.Machine.execPllUnlock pll s
  | .clkRefEdge => Sys2Proof.Machine.execClkRefEdge s
  | .modRstNDeassert => Sys2Proof.Machine.execModRstNDeassert s
  | .perstDeassertion => Sys2Proof.Machine.execPerstDeassertion s
  | .pllRelock pll => Sys2Proof.Machine.execPllRelock pll s
  | .vfEnable numVfs => Sys2Proof.Machine.execVfEnable numVfs s
  | .bootStepComplete o => Sys2Proof.Machine.execBootStepComplete o s
  | .flashProgramComplete errs => Sys2Proof.Machine.execFlashProgramComplete s errs
  | .clockStepRampEnd row => Sys2Proof.Machine.execClockStepRampEnd row s
  | .switchInMessage fromRack coord set => Sys2Proof.Machine.execSwitchInMessage fromRack coord set s

end Sys2Proof.Machine
end

