-- ==== Sys2Proof/Machine/ConfigSpace.lean ====
section
/-! DEFINITION. The configuration space of the PCIe functions as the host reads it: identification (R353) and the capabilities of
R355, with the fields of theirs that this block acts on. The layouts inside a capability are those of the PCI Express
standards (notes/assumptions/86.md). -/

namespace Sys2Proof.Machine

/-- A capability: its identifier, its offset, whether it is an extended one, and whether the PF and the VFs carry it. -/
structure Capability where
  id : Nat
  offset : Nat
  extended : Bool
  pf : Bool
  vf : Bool
  deriving DecidableEq, Repr

/-- The capability list of R355; ARI lies elsewhere in a VF. -/
def capabilities : List Capability :=
  [{ id := 0x01, offset := 0x40, extended := false, pf := true, vf := true },
   { id := 0x11, offset := 0x50, extended := false, pf := true, vf := true },
   { id := 0x10, offset := 0x70, extended := false, pf := true, vf := true },
   { id := 0x0001, offset := 0x100, extended := true, pf := true, vf := false },
   { id := 0x000E, offset := 0x100, extended := true, pf := false, vf := true },
   { id := 0x0003, offset := 0x150, extended := true, pf := true, vf := false },
   { id := 0x0019, offset := 0x160, extended := true, pf := true, vf := false },
   { id := 0x0025, offset := 0x190, extended := true, pf := true, vf := false },
   { id := 0x0026, offset := 0x1A0, extended := true, pf := true, vf := false },
   { id := 0x002A, offset := 0x1D0, extended := true, pf := true, vf := false },
   { id := 0x0031, offset := 0x210, extended := true, pf := true, vf := false },
   { id := 0x0027, offset := 0x230, extended := true, pf := true, vf := false },
   { id := 0x000E, offset := 0x280, extended := true, pf := true, vf := false },
   { id := 0x0010, offset := 0x290, extended := true, pf := true, vf := false },
   { id := 0x0015, offset := 0x2D0, extended := true, pf := true, vf := false },
   { id := 0x0024, offset := 0x2E0, extended := true, pf := true, vf := false },
   { id := 0x002E, offset := 0x2F0, extended := true, pf := true, vf := false }]

/-- Capabilities of a function, in ascending offset. -/
def capsOf (fn : Nat) : List Capability := capabilities.filter (fun c => if fn = 0 then c.pf else c.vf)

/-- First 32 bits of the capability of a function at an offset, none where none begins: identifier and the offset of the next
one of its kind, 0 after the last. -/
def capHeader (fn off : Nat) : Option Nat :=
  ((capsOf fn).find? (fun c => c.offset == off)).map (fun c =>
    let next := ((capsOf fn).find? (fun d => d.extended == c.extended && decide (c.offset < d.offset))).map (fun d => d.offset)
    if c.extended then c.id + 2 ^ 16 + next.getD 0 * 2 ^ 20 else c.id + next.getD 0 * 2 ^ 8)

/-- Fields of the capabilities that the block acts on, as bits of the aligned 32-bit register at an offset. -/
def State.capFields (s : State) (fn off : Nat) : Nat :=
  let c := s.pciCfg fn
  let b (x : Bool) : Nat := if x then 1 else 0
  if off = 0x50 then (vectorCount fn - 1) * 2 ^ 16 + b c.functionMask * 2 ^ 30 + b c.msixEnable * 2 ^ 31
  else if off = 0x54 then (if fn = 0 then 0x09010000 else 0x4000)
  else if off = 0x58 then (if fn = 0 then 0x09020000 else 0x5000)
  else if off = 0x74 then 2 + 2 ^ 28
  else if off = 0x78 then b c.relaxed * 2 ^ 4
  else if fn ≠ 0 then 0
  else if off = 0x104 then b c.poisoned.isSome * 2 ^ 12
  else if off = 0x154 then Config.serial.toNat % 2 ^ 32
  else if off = 0x158 then Config.serial.toNat / 2 ^ 32
  else if off = 0x298 then b (s.pci.numVfs != 0)
  else if off = 0x29C then 8 + 8 * 2 ^ 16
  else if off = 0x2A0 then s.pci.numVfs
  else if off = 0x2A4 then 1 + 2 ^ 16
  else if off = 0x2D4 ∨ off = 0x2E4 then 31 * 2 ^ 20
  else if off = 0x2D8 then 2 + 2 ^ 5 + (16 + c.bar2Size) * 2 ^ 8
  else if off = 0x2E8 then 2 + 2 ^ 5 + (16 + (s.pciCfg 1).bar2Size) * 2 ^ 8
  else 0

/-- The aligned 32-bit register of a function's configuration space at an offset (R353, R355). -/
def State.readConfig (s : State) (fn off : Nat) : BitVec 32 :=
  BitVec.ofNat 32 (
    if off = 0 then Config.vendorId.toNat + (if fn = 0 then 0x5C06 else 0x5C07) * 2 ^ 16
    else if off = 0x08 then Config.stepping.toNat + 0x120000 * 2 ^ 8
    else if off = 0x2C then Config.vendorId.toNat + 0x0006 * 2 ^ 16
    else if off = 0x34 then 0x40
    else (capHeader fn off).getD 0 + s.capFields fn off)

end Sys2Proof.Machine
end

