-- ==== Sys2Proof/Machine/Registers.lean ====
section
/-! DEFINITION. What the registers read as (R8–R10, R357, R359) and the levels of the output pins (R456, R461). The table
of commands has no row for a register read, which changes no state; these are the values it returns. -/

namespace Sys2Proof.Machine

/-- A register from its fields, each as (lowest bit, width, value); reserved and WO fields read as zero (R9, R10). -/
def regOf (fields : List (Nat × Nat × Nat)) : BitVec 64 :=
  BitVec.ofNat 64 ((fields.map (fun f => f.2.2 % 2 ^ f.2.1 * 2 ^ f.1)).sum)

/-- A truth value as a bit. -/
def bit (b : Bool) : Nat := if b then 1 else 0
/-- A signed value in 0.1 dB or a PM code as the bits of its field. -/
def sgn (w : Nat) (v : Int) : Nat := (BitVec.ofInt w v).toNat

/-! ### MXA and VEC -/

/-- MXA_LMAPn (R74), eight logical arrays. -/
def State.regLmap (s : State) (n : Nat) : BitVec 64 :=
  regOf ((List.range 8).flatMap (fun j =>
    let l := 8 * n + j
    if l < 120 then [(8 * j + 7, 1, bit (! s.offline l)), (8 * j, 7, s.physOf l)] else []))

/-- Spare columns in use on a physical array (R76). -/
def State.colsSpared (s : State) (a : Nat) : Nat :=
  if s.mxa.hw.retired.contains a then 2 else min 2 (tabGet [] s.mxa.hw.failedCols a).length

/-- A register of the MXA block. -/
def State.readMxa (s : State) (o : Nat) : BitVec 64 :=
  if o < 0x78 then s.regLmap (o / 8)
  else if o = 0x80 then
    regOf [(32, 8, s.mxa.hw.lastSpare), (24, 8, s.mxa.hw.lastRetired), (8, 7, s.mxa.hw.offline.length),
      (4, 4, s.mxa.hw.retired.length), (0, 4, s.mxa.hw.sparesFree.length)]
  else if o = 0x180 then regOf [(16, 8, 20), (8, 8, s.dev.slewLimit), (0, 7, s.dev.fillFloor)]
  else regOf ((List.range 32).map (fun j => (2 * j, 2, s.colsSpared (32 * ((o - 0x100) / 8) + j))))

/-- VEC_MODE (R160). -/
def State.readVec (s : State) : BitVec 64 := regOf (allParts.map (fun p => (p, 1, bit (s.part p).vecMode)))

/-! ### TCS -/

/-- TCS_Qn_BASE, CTL and PTR (R165). -/
def State.regQueue (s : State) (q reg : Nat) : BitVec 64 :=
  let k := s.queue q
  if reg = 0 then k.base.setWidth 64
  else if reg = 8 then regOf [(32, 8, k.state), (10, 11, k.vector), (4, 1, bit k.enable), (0, 4, k.sizeCode)]
  else k.head ++ k.tail

/-- A register of the TCS block (R165, R176, R194). -/
def State.readTcs (s : State) (o : Nat) : BitVec 64 :=
  if o < 0x2000 then s.regQueue (o / 0x20) (o % 0x20)
  else if o < 0x2080 then
    let r := s.respRing ((o - 0x2000) / 0x10)
    if o % 0x10 = 0 then r.base.setWidth 64 ||| regOf [(0, 4, r.sizeCode)]
    else regOf [(48, 16, r.dropped), (32, 16, r.wp), (0, 16, r.rp)]
  else if o < 0x2140 then
    let c := tabGet {} s.tcs.admCnt ((o - 0x2100) / 8)
    regOf [(40, 20, c.revoked), (20, 20, c.refused), (0, 20, c.admitted)]
  else (s.keeper ((o - 0x00100000) / 8)).setWidth 64

/-! ### MEM and NVT -/

/-- A register with the layout of MEM_QUOTA_Pn, in pages (R221). -/
def pagesReg (f : Tier → Nat) : BitVec 64 := regOf [(40, 24, f .t2), (20, 20, f .t1), (0, 10, f .t0)]

/-- A tier by its number. -/
def tierOfNat (n : Nat) : Tier := if n = 0 then .t0 else if n = 1 then .t1 else .t2

/-- MEM_GAB_Pn (R122). -/
def State.regGab (s : State) (p : Nat) : BitVec 64 :=
  let es := tabGet [] s.gab.maps p
  let g := es.filter (fun e => ! e.ms)
  regOf [(48, 14, tabGet 0 s.gab.quota p), (32, 14, (g.map (fun e => e.units)).sum), (16, 16, g.length),
    (0, 16, es.length - g.length)]

/-- A register of the MEM block (R122, R204, R221, R226, R231). -/
def State.readMem (s : State) (o : Nat) : BitVec 64 :=
  if o = 0 then pagesReg (fun x => s.capacity x / 32)
  else if o < 0x80 then pagesReg (fun x => s.quota ((o - 0x40) / 8) x / 32)
  else if o < 0xC0 then pagesReg (fun x => s.pinnedPages ((o - 0x80) / 8) x)
  else if o < 0x200 then
    let x := tierOfNat ((o - 0x100) / 0x40)
    let p := (o - 0x100) % 0x40 / 8
    regOf [(32, 32, s.held p x), (0, 32, s.committed p x)]
  else if o < 0x240 then
    let p := (o - 0x200) / 8
    regOf [(30, 30, tabGet 0 s.mem.raDiscarded p), (0, 30, tabGet 0 s.mem.raFetched p)]
  else if o < 0x318 then
    let k := (o - 0x300) / 8
    regOf ((List.range 64).map (fun i =>
      (i, 1, bit (s.mxa.hw.t1Retired.contains (64 * k + i)))))
  else if o < 0x2000 then
    let p := (o - 0x1000) / 0x40
    let j := o % 0x40 / 8
    if j < 4 then tabGet 0 s.mem.mbox (4 * p + j) else regOf [(8, 8, tabGet 0 s.mem.mboxStatus p), (1, 1, bit (s.mboxCmd p).isSome)]
  else s.regGab ((o - 0x2000) / 8)

/-- Mean erase count as a percentage of 3,000 erasures over all blocks (R234, R256). -/
def State.lifeUsed (s : State) : Nat :=
  min 255 ((s.nvt.blocks.map (fun b => b.2.erases)).sum * 100 / (3000 * (16 * blocksPerChannel)))

/-- A register of the NVT block (R256–R258). -/
def State.readNvt (s : State) (o : Nat) : BitVec 64 :=
  let h := s.mxa.hw
  if o = 0 then
    regOf [(56, 2, h.nvtMode), (48, 8, h.spareUsed), (40, 8, s.lifeUsed), (20, 20, h.grownBad), (0, 20, h.factoryBad)]
  else if o = 8 then regOf [(44, 16, s.waMilli), (20, 24, s.nvt.throttleUs), (0, 20, s.nvt.episodes)]
  else
    let p := (o - 0x100) / 8
    let valid := (List.range 16).map (fun i => (i, 1, bit (s.ckpt p i).isSome))
    match s.commit p with
    | some c => regOf ([(56, 3, c.phase), (52, 4, c.slot), (16, 32, c.bolts)] ++ valid)
    | none => regOf valid

/-! ### EXO, COL and FAP -/

/-- EXO_LANE_Ep_Wk and EXO_MON_Ep_Wk (R294). -/
def Wave.reg (w : Wave) (state : Nat) (mon : Bool) : BitVec 64 :=
  if mon then regOf [(36, 12, sgn 12 w.monL), (24, 12, sgn 12 w.monC), (12, 12, sgn 12 w.monM), (0, 12, sgn 12 w.monR)]
  else
    regOf [(56, 8, sgn 8 w.txMargin), (48, 8, sgn 8 w.rxMargin), (40, 8, w.rxEnob), (32, 8, w.bias),
      (16, 5, w.lane.getD 0x1F), (12, 4, state), (8, 3, if state = 6 then 0 else w.mode), (0, 3, w.rxMode)]

/-- A register of a port (R291–R294). -/
def State.readExo (s : State) (o : Nat) : BitVec 64 :=
  let e := o / 0x1000
  let r := o % 0x1000
  let p := s.port e
  let c := s.portRec e
  if r = 0 then regOf [(0, 1, bit p.enable)]
  else if r = 8 then
    regOf [(56, 8, p.partnerVer.toNat), (48, 8, p.version.toNat), (40, 8, p.lanes), (32, 8, s.sparesFree e),
      (8, 24, p.payload), (0, 3, p.state)]
  else if r = 0x10 then regOf [(24, 8, c.spareMarginDb), (16, 8, c.spareBiasPct), (8, 4, c.dacBits), (0, 3, c.modeMax)]
  else if r = 0x18 then regOf [(32, 16, p.injInterval), (16, 16, p.injCount), (8, 5, p.injMask), (0, 2, p.injKind)]
  else if r = 0x20 then regOf [(45, 15, p.injected), (30, 15, p.replays), (15, 15, p.holds), (0, 15, p.lcfLost)]
  else
    let k := (r - 0x100) / 0x10
    (p.wave k).reg (s.waveState e k) (r % 0x10 == 8)

/-- A register of the COL block (R296, R298, R322, R323). -/
def State.readCol (s : State) (o : Nat) : BitVec 64 :=
  if o = 0 then
    let c := s.col.coord
    regOf [(24, 16, c.rack), (23, 1, bit c.valid), (22, 1, bit c.spare), (19, 3, c.spareSlot), (4, 2, c.z), (2, 2, c.y),
      (0, 2, c.x)]
  else if o < 0x140 then
    let r := s.part ((o - 0x100) / 8)
    regOf [(32, 3, r.own), (0, 32, r.roles.toNat)]
  else if o < 0x240 then
    let c := tabGet {} s.col.cnt ((o - 0x200) / 8)
    regOf [(48, 12, c.feedRefused), (36, 12, c.fed), (24, 12, c.dropped), (12, 12, c.carried), (0, 12, c.excluded)]
  else
    regOf ((32, 16, s.col.mismatches) ::
      (List.range 4).map (fun m => (8 * m, 8, min 255 (tabGet [] s.mxa.hw.lanesRetired m).length)))

/-- A register of the FAP block (R347). -/
def State.readFap (s : State) (o : Nat) : BitVec 64 :=
  if o = 0 then regOf [(32, 8, s.dev.suspectCount), (0, 5, Nat.log2 s.dev.shadowInterval)]
  else if o = 8 then
    regOf [(8, 8, s.lateCount), (4, 4, min 15 (s.fap.rounds.filter (fun r => r.decided.isNone)).length), (1, 1, bit (s.fap.drainState != 0)),
      (0, 1, bit s.fap.suspect)]
  else if o = 0x10 then s.fap.hist
  else if o = 0x18 then regOf [(45, 15, s.fap.failed), (30, 15, s.fap.later), (15, 15, s.fap.first), (0, 15, s.fap.called)]
  else if o = 0x20 then
    regOf [(48, 8, s.fap.katFail), (40, 8, s.fap.mismatches), (20, 20, s.fap.skipped), (0, 20, s.fap.samples)]
  else regOf [(8, 8, s.fap.drainSlot), (2, 2, s.fap.drainState)]

/-! ### PCI -/

/-- A pending-bit word of a function's MSI-X table (R364). -/
def State.regPba (s : State) (fn k : Nat) : BitVec 64 :=
  regOf ((List.range 64).map (fun i => (i, 1, bit (s.msixEntry fn (64 * k + i)).pendingBit)))

/-- Half an MSI-X table entry (R364). -/
def State.regMsix (s : State) (fn vec reg : Nat) : BitVec 64 :=
  let m := s.msixEntry fn vec
  if reg = 0 then m.addr else regOf [(32, 1, bit m.masked), (0, 32, m.data.toNat)]

/-- A register of a DMA engine (R367). -/
def State.regDma (s : State) (d reg : Nat) : BitVec 64 :=
  let k := s.dma d
  if reg = 0 then k.base
  else if reg = 8 then regOf [(32, 8, k.state), (10, 11, k.vector), (4, 1, bit k.enable), (0, 4, k.sizeCode)]
  else k.head ++ k.tail

/-- A register of the PCI block (R353, R350, R363, R367, R373, R451). -/
def State.readPci (s : State) (o : Nat) : BitVec 64 :=
  if o = 0 then
    let g := s.wmc.running
    let f (h : Image → Nat) : Nat := (g.map h).getD 0
    regOf [(48, 16, 0x5C06), (40, 8, Config.stepping.toNat), (32, 8, f (fun x => x.fwMajor)), (16, 16, f (fun x => x.fwMinor)),
      (0, 16, f (fun x => x.fwBuild))]
  else if o = 8 then regOf [(16, 16, s.pci.changes), (8, 1, bit s.pci.flit), (3, 5, s.pci.width), (0, 3, s.pci.speed)]
  else if o = 0x18 then regOf ((List.range 16).map (fun d => (4 * d, 4, (s.dmaOwner d).getD 0xF)))
  else if o < 0x148 then
    let a := s.abi ((o - 0x100) / 8)
    regOf [(56, 8, 1), (48, 8, 0), (40, 8, 1), (32, 8, 0), (24, 8, a.activeMajor), (16, 8, a.activeMinor),
      (8, 8, a.hostMajor), (0, 8, a.hostMinor)]
  else if o < 0x248 then
    let w := s.winOf ((o - 0x200) / 8)
    regOf [(0, 52, w.1), (0, 3, w.2)]
  else if o = 0x400 then s.evt.pfBase
  else if o = 0x408 then regOf [(48, 16, s.evt.pfDropped), (32, 16, s.evt.pfWp), (0, 16, s.evt.pfRp)]
  else if o = 0x410 then regOf [(6, 2, s.evt.pfMinSev), (0, 4, s.evt.pfSize)]
  else if o < 0x1200 then s.regDma ((o - 0x1000) / 0x20) (o % 0x20)
  else if o < 0x00020000 then s.regMsix 0 ((o - 0x00010000) / 0x10) (o % 0x10)
  else s.regPba 0 ((o - 0x00020000) / 8)

/-! ### WMC, SEC, PWR, CLK and CNT -/

/-- Stage of a configuration change (R384, R385); a swap is applied within one step, so 4 is never seen. -/
def State.cfgStage (s : State) : Nat :=
  if s.wmc.armed.isSome then 3 else if s.wmc.shadow.isSome then 2 else if s.wmc.reception.isSome then 1 else 0

/-- A register of the WMC block (R393, R452, R453). -/
def State.readWmc (s : State) (o : Nat) : BitVec 64 :=
  let w := s.wmc
  if o = 0 then
    regOf [(48, 16, s.mxa.hw.bootCount), (32, 2, w.resetType), (22, 1, bit w.factoryCfg), (21, 1, bit w.cfgFallback),
      (20, 1, bit w.imgFallback), (16, 1, w.slot), (0, 8, w.step)]
  else if o = 8 then
    regOf ([(32, 32, w.active.setSeq), (24, 8, w.reason), (0, 3, s.cfgStage)] ++ allParts.map (fun p => (8 + p, 1, bit (w.held.contains p))))
  else if o = 0x10 then regOf [(8, 8, 1), (0, 8, 0)]
  else if o = 0x18 then w.sensorSel.setWidth 64
  else if o = 0x20 then
    if ! sensorKnown w.sensorSel.toNat then regOf [(32, 8, 1)]
    else
      let r := s.sensor w.sensorSel.toNat
      regOf [(48, 16, min 65535 ((s.now - r.time) / 1000)), (32, 8, if r.failed then 2 else 0), (0, 32, r.value.toNat)]
  else if o = 0x28 then 0
  else regOf [(48, 16, s.evt.lastFatal.toNat), (28, 20, s.evt.suppressed), (8, 1, bit s.evt.fatal), (0, 8, s.evt.halted.toNat)]

/-- A register of the SEC block (R409). -/
def State.readSec (s : State) (o : Nat) : BitVec 64 :=
  let f (h : Image → Nat) : Nat := (s.wmc.running.map h).getD 0
  if o = 0 then
    regOf [(32, 1, bit s.sec.trngFail), (24, 8, f (fun x => x.svn)), (16, 8, rollbackCount s.sec.rollback), (9, 1, bit s.sec.slot0Revoked),
      (8, 1, f (fun x => x.keySlot))]
  else BitVec.ofNat 64 (unle ((shake512 identityPublic).drop (8 * ((o - 0x40) / 8)) |>.take 8))

/-- A register of the PWR block (R425). -/
def State.readPwr (s : State) (o : Nat) : BitVec 64 :=
  let w := s.pwr
  if o = 0 then regOf [(32, 16, w.pin), (16, 16, w.iin), (0, 16, w.vin)]
  else if o = 8 then
    regOf (gridRows.flatMap (fun r =>
      let x := s.rowClk r
      let top := s.rowStep r
      let cause := if top = 0 then 0 else (if x.thermal = top then 1 else 0) + (if w.sPower = top then 2 else 0)
      [(8 * r + 6, 2, cause), (8 * r + 5, 1, bit x.stretch), (8 * r, 5, x.applied)]))
  else if o = 0x10 then
    regOf [(8, 5, w.sPower), (4, 1, bit w.coolant), (3, 1, bit w.throttle), (2, 1, bit w.cap), (1, 1, bit w.vinHigh),
      (0, 1, bit w.vinLow)]
  else regOf [(40, 20, w.stretches), (20, 20, w.excessUs), (0, 20, w.capEpisodes)]

/-- CLK_STATUS (R426). -/
def State.readClk (s : State) : BitVec 64 :=
  let c := s.clk
  regOf [(48, 16, c.unlocks), (11, 1, bit c.sgmiiLock), (10, 1, bit c.pcieLock), (9, 1, bit c.rootLock), (8, 1, bit c.refOk),
    (0, 8, c.oeLock.toNat)]

/-- A clamp register (R34). -/
def Clamp.reg (c : Clamp) : BitVec 64 := regOf [(56, 8, c.lastId), (0, 48, c.count)]

/-- A counter of a partition (R439), by its place among the six. -/
def State.regPartCnt (s : State) (p j : Nat) : BitVec 64 :=
  if j = 0 then (tabGet {} s.cnt.clamp p).reg
  else if j = 1 then
    let c := tabGet {} s.cnt.acc p
    regOf [(40, 20, c.longSum), (20, 20, c.saturations), (0, 20, c.retries)]
  else if j = 2 then
    let c := tabGet {} s.cnt.late p
    regOf [(32, 28, c.commands), (12, 20, c.envelopes), (0, 12, c.staleFences)]
  else if j = 3 then
    let n := tabGet {} s.cnt.norm p
    regOf [(32, 32, n.dropped), (0, 32, n.wp)]
  else if j = 4 then regOf [(0, 32, (tabGet {} s.cnt.norm p).rp)]
  else
    let v := tabGet {} s.cnt.selv p
    regOf [(32, 28, v.maxUs), (0, 32, v.drawn)]

/-- A register of the CNT block (R428, R432–R434, R438, R439). -/
def State.readCnt (s : State) (o : Nat) : BitVec 64 :=
  if o = 0 then BitVec.ofNat 64 s.clk.time
  else if o = 8 then 0
  else if o = 0x10 then BitVec.ofNat 64 s.cnt.snapTime
  else if o = 0x18 then s.cnt.clampDev.reg
  else if o = 0x20 then regOf [(40, 20, s.cnt.fillPeriods), (0, 40, s.cnt.fillUs)]
  else if o < 0x300 then s.regPartCnt ((o - 0x100) / 0x40) (o % 0x40 / 8)
  else if o < 0x3000 then
    let t := tabGet {} s.cnt.phase ((o - 0x1000) / 0x10)
    if o % 0x10 = 0 then BitVec.ofNat 64 t.time
    else regOf [(47, 16, t.count), (42, 5, t.queue), (32, 10, t.hi), (0, 32, t.tag.toNat)]
  else
    let k := (o - 0x00010000) / 0x80
    let j := o % 0x80 / 8
    if j = 15 then 0 else BitVec.ofNat 64 ((tabGet [] s.cnt.snap k).getD j 0)

/-! ### The two maps (R357, R359) -/

/-- What an offset of PF BAR0 reads as; where no register lies, zero (R357). -/
def State.readPf (s : State) (off : Nat) : BitVec 64 :=
  if ! pfRegister off then 0
  else
    let o := off % 0x01000000
    match off / 0x01000000 with
    | 0x01 => s.readMxa o
    | 0x02 => s.readVec
    | 0x03 => s.readTcs o
    | 0x04 => s.readMem o
    | 0x05 => s.readNvt o
    | 0x06 => s.readExo o
    | 0x07 => s.readCol o
    | 0x08 => s.readFap o
    | 0x09 => s.readPci o
    | 0x0A => s.readWmc o
    | 0x0B => s.readSec o
    | 0x0C => s.readPwr o
    | 0x0D => s.readClk
    | 0x0E => s.readCnt o
    | _ => 0

/-- What an offset of a function's BAR0 reads as (R359, R360). -/
def State.readReg (s : State) (fn off : Nat) : BitVec 64 :=
  if fn = 0 then s.readPf off
  else
    let n := fn - 1
    match vfRegister n off with
    | some o => if 0x3000 ≤ off ∧ off < 0x3200 ∧ s.dmaOwner ((off - 0x3000) / 0x20) ≠ some n then 0 else s.readPf o
    | none =>
      if 0x4000 ≤ off ∧ off < 0x4400 ∧ off % 8 = 0 then s.regMsix fn ((off - 0x4000) / 0x10) (off % 0x10)
      else if off = 0x5000 then s.regPba fn 0
      else if 0x80000 ≤ off ∧ off < 0x100000 ∧ off % 8 = 0 then
        match s.keeperOf n ((off - 0x80000) / 8) with
        | some k => (s.keeper k).setWidth 64
        | none => 0
      else 0

/-- What an access of 32 or 64 bits to a function's BAR0 reads: the whole register, or either half in bits 31:0; any other
access reads zeros (R8). -/
def State.readBar0 (s : State) (fn off bits : Nat) : BitVec 64 :=
  if bits = 64 ∧ off % 8 = 0 then s.readReg fn off
  else if bits = 32 ∧ off % 8 = 0 then ((s.readReg fn off).extractLsb' 0 32).setWidth 64
  else if bits = 32 ∧ off % 8 = 4 then ((s.readReg fn (off - 4)).extractLsb' 32 32).setWidth 64
  else 0

/-! ### Pins (R456, R461, R462) -/

/-- READY. -/
def State.pinReady (s : State) : Bool := s.wmc.step == 8
/-- ALERT_N is low while fatal or any halted bit is 1, and in recovery (R462). -/
def State.pinAlertN (s : State) : Bool := ! (s.evt.fatal || s.evt.halted != 0 || s.wmc.step == 0xFE)
/-- PWR_GOOD. -/
def State.pinPwrGood (s : State) : Bool := s.wmc.railsOn
/-- The amber status LED, which LED_EXT mirrors: lit for a halted partition or a device-fatal event in force (R448). -/
def State.ledAmber (s : State) : Bool :=
  s.evt.fatal || s.evt.halted != 0 || s.evt.fatalHeld || s.sec.trngFail || s.mxa.hw.nvtMode == 2
/-- The green status LED. -/
def State.ledGreen (s : State) : Bool := s.wmc.step == 8

end Sys2Proof.Machine
end

