-- ==== Sys2Proof/Safety.lean ====
section
/-! DEFINITION. The terms that statements about runs are written in: the parts of the machine, what it means that two
states agree but for some of them, the parts that each command may change, and what every step keeps. -/

namespace Sys2Proof.Machine

/-! ### Parts of the machine -/

/-- The pieces of the machine that a frame names; every field of State belongs to exactly one, but for the queue of
waiting commands. -/
inductive Part where
  /-- The model's counter of free values. -/
  | free
  /-- The event record: sequence number, SRAM log, delivery stamps, and the halts and rounds that fall due. -/
  | events
  /-- The registers of the PF device ring. -/
  | eventRing
  /-- The halted partitions and the device-fatal stop. -/
  | halts
  /-- The NOR persistent ring and the latest PLDM event. -/
  | logs
  /-- MSI-X tables, host memory written, sources with a bad vector. -/
  | messages
  /-- The PCI link and the enabled VFs. -/
  | link
  /-- ABI and window registers and the configuration space of the functions. -/
  | functions
  /-- The DMA engines. -/
  | dma
  /-- The data that BAR2 reads returned. -/
  | bar2
  /-- The queues. -/
  | queues
  /-- The keepers. -/
  | keepers
  /-- The commands in flight. -/
  | inflight
  /-- The response rings. -/
  | response
  /-- The admission counters. -/
  | admission
  /-- The envelopes and the admission queues. -/
  | envelopes
  /-- The logical arrays with their vector units. -/
  | arrays
  /-- The array map and repair, and the known-answer results. -/
  | arrayFacts
  /-- The current window. -/
  | current
  /-- The region maps. -/
  | regions
  /-- Where the bolts lie, their versions and migrations. -/
  | bolts
  /-- The bytes of memory. -/
  | bytes
  /-- The region mailboxes. -/
  | mailbox
  /-- The run-ahead counters. -/
  | runAhead
  /-- Present reservations and T1's present capacity. -/
  | reservations
  /-- Errors and retirements of T1. -/
  | t1Faults
  /-- The bound GAB entries and the quotas. -/
  | gab
  /-- The contributions on their way to the GAB, and the flushes that wait. -/
  | contributions
  /-- The flash blocks and the pages written of late. -/
  | flash
  /-- Checkpoints, commits and flash keys. -/
  | checkpoints
  /-- The journal records that are not durable yet. -/
  | journal
  /-- Garbage collection state. -/
  | collection
  /-- The Exano ports. -/
  | ports
  /-- Module coordinates, withdrawn modules and lane errors. -/
  | coordinates
  /-- The collective groups. -/
  | groups
  /-- Collectives at the engine, chunks kept early, decisions kept, and feeds asked for and served. -/
  | collectives
  /-- The streams. -/
  | streams
  /-- The collective counters. -/
  | colCounters
  /-- Rounds, messages sent, drain and exclusions. -/
  | agreement
  /-- The agreement and shadow counters. -/
  | fapCounters
  /-- The fuses. -/
  | fuses
  /-- Entropy, the attestation report and its measurements. -/
  | secrets
  /-- The power block. -/
  | power
  /-- Clock lock state. -/
  | clocks
  /-- CNT_TIME. -/
  | time
  /-- The clamp registers. -/
  | clampCounters
  /-- The accumulation counters. -/
  | accCounters
  /-- The late counters. -/
  | lateCounters
  /-- The projection counters. -/
  | selvCounters
  /-- The phase timers. -/
  | phases
  /-- The norm rings. -/
  | normRings
  /-- Stall blocks and snapshots. -/
  | stallCounters
  /-- CNT_FILL. -/
  | fillCounter
  /-- The boot sequence, rails and pins. -/
  | boot
  /-- The image slots of NOR and the firmware update in progress. -/
  | images
  /-- The configuration slots and hardware records of NOR. -/
  | records
  /-- The active configuration. -/
  | config
  /-- Staging, arming and swap state. -/
  | staging
  /-- The sensors. -/
  | sensors
  /-- The answer to the latest management request and the event receiver. -/
  | answers
  deriving DecidableEq, Repr

/-- Two states hold the same in a part. -/
def Part.same (s t : State) : Part → Prop
  | .free => s.free = t.free
  | .events => s.evt.seq = t.evt.seq ∧ s.evt.log = t.evt.log ∧ s.evt.pfDropped = t.evt.pfDropped ∧
    s.evt.pfWp = t.evt.pfWp ∧ s.evt.suppressed = t.evt.suppressed ∧ s.evt.lastFatal = t.evt.lastFatal ∧
    s.evt.haltSeq = t.evt.haltSeq ∧ s.evt.haltDue = t.evt.haltDue ∧ s.evt.fatalDue = t.evt.fatalDue ∧
    s.evt.fatalHeld = t.evt.fatalHeld ∧ s.evt.roundDue = t.evt.roundDue ∧ s.evt.norStamp = t.evt.norStamp ∧
    s.evt.pldmStamp = t.evt.pldmStamp ∧ s.evt.hostStamp = t.evt.hostStamp
  | .eventRing => s.evt.pfBase = t.evt.pfBase ∧ s.evt.pfSize = t.evt.pfSize ∧ s.evt.pfMinSev = t.evt.pfMinSev ∧
    s.evt.pfRp = t.evt.pfRp
  | .halts => s.evt.fatal = t.evt.fatal ∧ s.evt.halted = t.evt.halted
  | .logs => s.wmc.nor.ring = t.wmc.nor.ring ∧ s.wmc.pldmLast = t.wmc.pldmLast
  | .messages => s.pci.msix = t.pci.msix ∧ s.pci.hostOut = t.pci.hostOut ∧ s.pci.hostRo = t.pci.hostRo ∧
    s.pci.badVec = t.pci.badVec
  | .link => s.pci.speed = t.pci.speed ∧ s.pci.width = t.pci.width ∧ s.pci.flit = t.pci.flit ∧
    s.pci.changes = t.pci.changes ∧ s.pci.numVfs = t.pci.numVfs
  | .functions => s.pci.abi = t.pci.abi ∧ s.pci.win = t.pci.win ∧ s.pci.cfg = t.pci.cfg
  | .dma => s.pci.dma = t.pci.dma
  | .bar2 => s.pci.bar2Data = t.pci.bar2Data
  | .queues => s.tcs.queues = t.tcs.queues
  | .keepers => s.tcs.keepers = t.tcs.keepers
  | .inflight => s.tcs.inflight = t.tcs.inflight ∧ s.tcs.nextOrd = t.tcs.nextOrd
  | .response => s.tcs.resp = t.tcs.resp
  | .admission => s.tcs.admCnt = t.tcs.admCnt
  | .envelopes => s.tcs.envs = t.tcs.envs ∧ s.tcs.admQueue = t.tcs.admQueue ∧ s.tcs.nextUid = t.tcs.nextUid ∧
    s.tcs.admSeq = t.tcs.admSeq
  | .arrays => s.mxa.arrays = t.mxa.arrays
  | .arrayFacts => s.mxa.hw = t.mxa.hw ∧ s.mxa.katBin = t.mxa.katBin ∧ s.mxa.katAt = t.mxa.katAt ∧
    s.mxa.retireDue = t.mxa.retireDue ∧ s.mxa.colDue = t.mxa.colDue
  | .current => s.mxa.windowUsed = t.mxa.windowUsed ∧ s.mxa.windowAt = t.mxa.windowAt
  | .regions => s.mem.regions = t.mem.regions
  | .bolts => s.mem.bolts = t.mem.bolts ∧ s.mem.vers = t.mem.vers ∧ s.mem.migrations = t.mem.migrations
  | .bytes => s.mem.bytes = t.mem.bytes
  | .mailbox => s.mem.mbox = t.mem.mbox ∧ s.mem.mboxStatus = t.mem.mboxStatus ∧ s.mem.mboxBusy = t.mem.mboxBusy
  | .runAhead => s.mem.raDiscarded = t.mem.raDiscarded ∧ s.mem.raFetched = t.mem.raFetched
  | .reservations => s.mem.res = t.mem.res ∧ s.mem.t1Pages = t.mem.t1Pages ∧ s.mem.t1Rate = t.mem.t1Rate
  | .t1Faults => s.mem.t1Errors = t.mem.t1Errors ∧ s.mem.t1Rehash = t.mem.t1Rehash ∧
    s.mem.t1Deferred = t.mem.t1Deferred ∧ s.mem.mapStoreErr = t.mem.mapStoreErr
  | .gab => s.gab.maps = t.gab.maps ∧ s.gab.quota = t.gab.quota
  | .contributions => s.gab.contribs = t.gab.contribs ∧ s.gab.flushes = t.gab.flushes
  | .flash => s.nvt.blocks = t.nvt.blocks ∧ s.nvt.open_ = t.nvt.open_ ∧ s.nvt.wrote = t.nvt.wrote ∧
    s.nvt.userPages = t.nvt.userPages
  | .checkpoints => s.nvt.ckpts = t.nvt.ckpts ∧ s.nvt.gens = t.nvt.gens ∧ s.nvt.commits = t.nvt.commits ∧
    s.nvt.work = t.nvt.work ∧ s.nvt.salts = t.nvt.salts ∧ s.nvt.halfTold = t.nvt.halfTold
  | .journal => s.nvt.journal = t.nvt.journal
  | .collection => s.nvt.throttleUs = t.nvt.throttleUs ∧ s.nvt.episodes = t.nvt.episodes ∧
    s.nvt.throttled = t.nvt.throttled
  | .ports => s.exo.ports = t.exo.ports
  | .coordinates => s.col.coord = t.col.coord ∧ s.col.mismatches = t.col.mismatches ∧
    s.col.laneErrors = t.col.laneErrors ∧ s.col.withdrawn = t.col.withdrawn
  | .groups => s.col.groups = t.col.groups
  | .collectives => s.col.colls = t.col.colls ∧ s.col.early = t.col.early ∧ s.col.decided = t.col.decided ∧
    s.col.fed = t.col.fed ∧ s.col.lasts = t.col.lasts ∧ s.col.requests = t.col.requests
  | .streams => s.col.streams = t.col.streams
  | .colCounters => s.col.cnt = t.col.cnt
  | .agreement => s.fap.hist = t.fap.hist ∧ s.fap.suspect = t.fap.suspect ∧ s.fap.drainState = t.fap.drainState ∧
    s.fap.drainSlot = t.fap.drainSlot ∧ s.fap.drainAt = t.fap.drainAt ∧ s.fap.draining = t.fap.draining ∧
    s.fap.rounds = t.fap.rounds ∧ s.fap.sentMsgs = t.fap.sentMsgs ∧ s.fap.failedModules = t.fap.failedModules ∧
    s.fap.usedSlots = t.fap.usedSlots
  | .fapCounters => s.fap.failed = t.fap.failed ∧ s.fap.later = t.fap.later ∧ s.fap.first = t.fap.first ∧
    s.fap.called = t.fap.called ∧ s.fap.katFail = t.fap.katFail ∧ s.fap.mismatches = t.fap.mismatches ∧
    s.fap.skipped = t.fap.skipped ∧ s.fap.samples = t.fap.samples
  | .fuses => s.sec.rollback = t.sec.rollback ∧ s.sec.slot0Revoked = t.sec.slot0Revoked
  | .secrets => s.sec.trngFail = t.sec.trngFail ∧ s.sec.draws = t.sec.draws ∧ s.sec.report = t.sec.report ∧
    s.sec.m6 = t.sec.m6 ∧ s.sec.m7 = t.sec.m7
  | .power => s.pwr = t.pwr
  | .clocks => s.clk.refOk = t.clk.refOk ∧ s.clk.rootLock = t.clk.rootLock ∧ s.clk.oeLock = t.clk.oeLock ∧
    s.clk.sgmiiLock = t.clk.sgmiiLock ∧ s.clk.pcieLock = t.clk.pcieLock ∧ s.clk.unlocks = t.clk.unlocks
  | .time => s.clk.time = t.clk.time
  | .clampCounters => s.cnt.clampDev = t.cnt.clampDev ∧ s.cnt.clamp = t.cnt.clamp
  | .accCounters => s.cnt.acc = t.cnt.acc
  | .lateCounters => s.cnt.late = t.cnt.late
  | .selvCounters => s.cnt.selv = t.cnt.selv
  | .phases => s.cnt.phase = t.cnt.phase
  | .normRings => s.cnt.norm = t.cnt.norm
  | .stallCounters => s.cnt.stall = t.cnt.stall ∧ s.cnt.snap = t.cnt.snap ∧ s.cnt.snapTime = t.cnt.snapTime
  | .fillCounter => s.cnt.fillPeriods = t.cnt.fillPeriods ∧ s.cnt.fillUs = t.cnt.fillUs
  | .boot => s.wmc.step = t.wmc.step ∧ s.wmc.resetType = t.wmc.resetType ∧ s.wmc.trigger = t.wmc.trigger ∧
    s.wmc.resetAt = t.wmc.resetAt ∧ s.wmc.factoryCfg = t.wmc.factoryCfg ∧ s.wmc.cfgFallback = t.wmc.cfgFallback ∧
    s.wmc.imgFallback = t.wmc.imgFallback ∧ s.wmc.slot = t.wmc.slot ∧ s.wmc.failedSlot = t.wmc.failedSlot ∧
    s.wmc.running = t.wmc.running ∧ s.wmc.stage1On = t.wmc.stage1On ∧ s.wmc.railsOn = t.wmc.railsOn ∧
    s.wmc.present = t.wmc.present ∧ s.wmc.modRstLow = t.wmc.modRstLow ∧ s.wmc.perstLow = t.wmc.perstLow ∧
    s.wmc.rrs = t.wmc.rrs
  | .images => s.wmc.nor.slotA = t.wmc.nor.slotA ∧ s.wmc.nor.slotB = t.wmc.nor.slotB ∧ s.wmc.update = t.wmc.update
  | .records => s.wmc.nor.cfg0 = t.wmc.nor.cfg0 ∧ s.wmc.nor.cfg1 = t.wmc.nor.cfg1 ∧ s.wmc.nor.hw = t.wmc.nor.hw ∧
    s.wmc.hwDirty = t.wmc.hwDirty
  | .config => s.wmc.active = t.wmc.active
  | .staging => s.wmc.held = t.wmc.held ∧ s.wmc.reason = t.wmc.reason ∧ s.wmc.shadow = t.wmc.shadow ∧
    s.wmc.reception = t.wmc.reception ∧ s.wmc.armed = t.wmc.armed ∧ s.wmc.commitDue = t.wmc.commitDue
  | .sensors => s.wmc.sensorSel = t.wmc.sensorSel ∧ s.wmc.sensors = t.wmc.sensors
  | .answers => s.wmc.receiver = t.wmc.receiver ∧ s.wmc.answer = t.wmc.answer

/-- Two states agree but for some parts. -/
def SameBut (ps : List Part) (s t : State) : Prop := ∀ p : Part, p ∈ ps ∨ p.same s t

/-! ### The parts that a command may change -/

/-- What recording an event may change: the record itself, the logs and messages it goes to, and the response rings
with the memory they lie in (R449, R450). -/
def eventParts : List Part := [.events, .logs, .messages, .response, .bolts, .bytes, .runAhead, .flash, .journal]
/-- What a command at an engine may change beside its own effect: its flight, and, when it is late, the discard
(R127, R129). -/
def engineParts : List Part :=
  [.events, .logs, .messages, .inflight, .response, .envelopes, .arrays, .bolts, .bytes, .runAhead, .contributions, .flash, .journal, .lateCounters]
/-- Every part but some. -/
def allBut (ps : List Part) : List Part :=
  [.free, .events, .eventRing, .halts, .logs, .messages, .link, .functions,
    .dma, .bar2, .queues, .keepers, .inflight, .response, .admission, .envelopes,
    .arrays, .arrayFacts, .current, .regions, .bolts, .bytes, .mailbox, .runAhead,
    .reservations, .t1Faults, .gab, .contributions, .flash, .checkpoints, .journal, .collection,
    .ports, .coordinates, .groups, .collectives, .streams, .colCounters, .agreement, .fapCounters,
    .fuses, .secrets, .power, .clocks, .time, .clampCounters, .accCounters, .lateCounters,
    .selvCounters, .phases, .normRings, .stallCounters, .fillCounter, .boot, .images, .records,
    .config, .staging, .sensors, .answers].filter (fun p => ! ps.contains p)

/-- The parts that a command may change; it changes nothing else. -/
def partsOf : Instr → List Part
  | .powerOn _ | .coldReset _ | .warmReset | .modRstNAssert _ | .moduleRemoval | .vinOutOfRange _ _
  | .imageTrialTimeout | .wmcRstWarm _ | .wmcRstCold _ =>
    allBut [.bar2, .fuses]
  | .pfFlr _ =>
    engineParts ++ [.free, .eventRing, .halts, .link, .functions, .dma, .bar2, .queues, .keepers, .regions,
      .mailbox, .gab, .checkpoints, .groups, .collectives, .streams, .agreement, .clampCounters, .accCounters,
      .selvCounters, .phases, .normRings, .stallCounters, .staging]
  | .partitionFlr _ _ =>
    engineParts ++ [.free, .halts, .functions, .dma, .queues, .keepers, .regions, .mailbox, .gab, .checkpoints,
      .groups, .collectives, .streams, .agreement, .clampCounters, .accCounters, .selvCounters, .phases,
      .normRings, .stallCounters, .staging]
  | .moduleInsertion _ | .modRstNDeassert | .perstDeassertion => [.boot]
  | .queueDoorbell _ _ | .queueEnable _ _ => eventParts ++ [.queues]
  | .queueDisable _ => [.queues, .staging]
  | .queueResume _ => [.queues]
  | .queueAbort _ => eventParts ++ [.queues, .inflight, .envelopes, .staging]
  | .commandDispatch _ _ =>
    eventParts ++ [.queues, .inflight, .admission, .envelopes, .arrayFacts, .reservations, .t1Faults, .gab,
      .checkpoints, .selvCounters, .records]
  | .commandComplete _ _ => eventParts ++ [.keepers, .inflight]
  | .nop _ _ | .rejectedOpcode _ _ | .fnEpoch _ _ => engineParts
  | .mxMul _ _ _ | .mxMac _ _ _ =>
    engineParts ++ [.free, .admission, .arrayFacts, .reservations, .t1Faults, .gab, .checkpoints, .fapCounters,
      .clampCounters, .accCounters, .selvCounters, .records]
  | .mxZacc _ _ | .vxLd _ _ _ =>
    engineParts ++ [.admission, .arrayFacts, .reservations, .t1Faults, .checkpoints, .clampCounters, .selvCounters,
      .records]
  | .mxSacc _ _ _ | .txGflush _ _ _ =>
    engineParts ++ [.free, .admission, .arrayFacts, .reservations, .t1Faults, .gab, .checkpoints, .clampCounters,
      .selvCounters, .records]
  | .mxLacc _ _ _ =>
    engineParts ++ [.free, .admission, .arrayFacts, .reservations, .t1Faults, .checkpoints, .clampCounters,
      .selvCounters, .records]
  | .shadowMismatchVote _ _ | .knownAnswerTest _ _ => eventParts ++ [.arrays, .arrayFacts, .fapCounters, .records]
  | .vxAdd _ _ _ | .vxSub _ _ _ | .vxMul _ _ _ | .vxFma _ _ _ | .vxMax _ _ _ | .vxMin _ _ _ | .vxAbs _ _ _
  | .vxNeg _ _ _ | .vxMov _ _ _ | .vxSel _ _ _ | .vxCeq _ _ _ | .vxClt _ _ _ | .vxCle _ _ _ | .vxCgt _ _ _
  | .vxCge _ _ _ | .vxCun _ _ _ | .vxCvt _ _ _ | .vxExp _ _ _ | .vxLog _ _ _ | .vxRcp _ _ _ | .vxRsqrt _ _ _
  | .vxTanh _ _ _ | .vxRsum _ _ _ | .vxRsumsq _ _ _ | .vxRmax _ _ _ | .vxRmin _ _ _ | .vxRmv _ _ _
  | .vxPerm _ _ _ | .vxCompress _ _ _ | .vxExpand _ _ _ =>
    engineParts ++ [.admission, .arrayFacts, .reservations, .t1Faults, .clampCounters, .selvCounters, .records]
  | .vxSt _ _ _ | .vxStf _ _ _ =>
    engineParts ++ [.admission, .arrayFacts, .reservations, .t1Faults, .gab, .checkpoints, .clampCounters,
      .selvCounters, .records]
  | .txMove _ _ _ | .txFetch _ _ _ | .txSpill _ _ _ | .txCkpt _ _ _ =>
    engineParts ++ [.admission, .arrayFacts, .reservations, .t1Faults, .gab, .checkpoints, .selvCounters, .records]
  | .txPin _ _ | .txUnpin _ _ | .txAttr _ _ | .txMap _ _ | .txUnmap _ _ => engineParts ++ [.regions, .checkpoints]
  | .txRestore _ _ _ =>
    engineParts ++ [.admission, .arrayFacts, .regions, .reservations, .t1Faults, .gab, .checkpoints, .selvCounters,
      .records]
  | .txCkdrop _ _ => engineParts ++ [.checkpoints]
  | .txGbind _ _ _ =>
    engineParts ++ [.free, .admission, .arrayFacts, .reservations, .t1Faults, .gab, .checkpoints, .selvCounters,
      .records]
  | .txGzero _ _ => engineParts ++ [.free, .gab]
  | .gflushWaitTimeout _ _ _ =>
    eventParts ++ [.free, .inflight, .admission, .envelopes, .arrayFacts, .reservations, .t1Faults, .gab,
      .contributions, .checkpoints, .selvCounters, .records]
  | .gabContributionAdd _ _ _ _ =>
    eventParts ++ [.free, .inflight, .admission, .envelopes, .arrayFacts, .reservations, .t1Faults, .gab,
      .contributions, .accCounters, .selvCounters, .records]
  | .gabWaitTimeout _ _ _ => eventParts ++ [.free, .inflight, .gab, .contributions]
  | .kpWait _ _ | .kpWaitSatisfied _ _ =>
    eventParts ++ [.queues, .inflight, .envelopes, .contributions, .lateCounters]
  | .kpSet _ _ | .kpAdd _ _ => engineParts ++ [.keepers]
  | .kpCas _ _ => engineParts ++ [.keepers, .gab, .checkpoints]
  | .keeperSetHost _ _ _ | .keeperAddHost _ _ _ => eventParts ++ [.keepers]
  | .phMark _ _ => engineParts ++ [.phases]
  | .envOpen _ _ => [.inflight, .envelopes]
  | .envJoin _ _ => [.queues, .inflight, .envelopes]
  | .envClose _ _ => eventParts ++ [.queues, .inflight, .envelopes]
  | .envelopeReady _ _ _ | .retentionScan _ _ _ =>
    eventParts ++ [.admission, .envelopes, .arrayFacts, .reservations, .t1Faults, .gab, .selvCounters, .records]
  | .admissionEvaluate _ _ =>
    eventParts ++ [.queues, .inflight, .admission, .envelopes, .arrayFacts, .reservations, .t1Faults, .gab,
      .selvCounters, .records]
  | .projectionEvaluate _ _ _ => eventParts ++ [.admission, .envelopes, .selvCounters]
  | .envelopeComplete _ _ => eventParts ++ [.inflight, .envelopes, .selvCounters]
  | .epochFenceClose _ _ => eventParts ++ [.inflight, .gab, .lateCounters, .normRings, .staging]
  | .fnDrain _ _ => eventParts ++ [.inflight, .envelopes, .contributions, .lateCounters]
  | .coAred _ _ _ | .coRscat _ _ _ | .coAgath _ _ _ | .coBcast _ _ _ | .coBarr _ _ | .coA2a _ _ _
  | .coA2av _ _ _ =>
    engineParts ++ [.admission, .arrayFacts, .reservations, .t1Faults, .gab, .checkpoints, .ports, .groups,
      .collectives, .streams, .agreement, .fapCounters, .clampCounters, .selvCounters, .records]
  | .coGbind _ _ _ =>
    engineParts ++ [.admission, .arrayFacts, .reservations, .t1Faults, .gab, .checkpoints, .groups, .collectives,
      .colCounters, .agreement, .selvCounters, .records]
  | .collectiveSeqStart _ _ _ =>
    eventParts ++ [.inflight, .admission, .envelopes, .arrayFacts, .reservations, .t1Faults, .gab, .contributions,
      .checkpoints, .ports, .groups, .collectives, .streams, .agreement, .fapCounters, .lateCounters,
      .selvCounters, .records]
  | .collectiveComplete _ _ _ =>
    eventParts ++ [.free, .inflight, .admission, .envelopes, .arrayFacts, .reservations, .t1Faults, .gab,
      .checkpoints, .ports, .groups, .collectives, .streams, .colCounters, .agreement, .selvCounters, .records]
  | .collectiveDeadline _ _ =>
    eventParts ++ [.inflight, .ports, .groups, .collectives, .streams, .agreement, .fapCounters]
  | .feedRequest _ _ =>
    eventParts ++ [.admission, .envelopes, .arrayFacts, .reservations, .t1Faults, .gab, .checkpoints, .ports,
      .collectives, .streams, .colCounters, .selvCounters, .records]
  | .streamOpen _ _ => eventParts ++ [.ports, .streams]
  | .streamAck _ _ | .streamClose _ _ | .streamRefuse _ _ => [.ports, .streams]
  | .chunkReceive _ => eventParts ++ [.arrayFacts, .ports, .coordinates, .collectives, .streams, .records]
  | .txSlot _ _ | .ringHoldExit _ _ _ _ =>
    eventParts ++ [.admission, .envelopes, .reservations, .ports, .selvCounters]
  | .dataFlitReceive _ _ | .trainingRetry _ | .biasCheck _ _ | .spareTrainComplete _ _ _ | .laneStepDown _ _ _
  | .exoStepUp _ _ _ | .exoCntClear _ =>
    [.ports]
  | .lcfReceive _ _ _ | .portColdTrain _ _ | .switchPoint _ _ | .exoRetrain _ _ =>
    eventParts ++ [.inflight, .admission, .envelopes, .arrayFacts, .reservations, .ports, .coordinates, .groups,
      .collectives, .streams, .agreement, .fapCounters, .selvCounters, .records]
  | .lcfTimeout _ | .portDown _ _ | .laserShutdown _ | .exoEnable _ _ =>
    eventParts ++ [.inflight, .admission, .envelopes, .reservations, .ports, .coordinates, .groups, .collectives,
      .streams, .agreement, .fapCounters, .selvCounters]
  | .laserPowerDrop _ _ _ | .ringHoldEnter _ _ _ _ => eventParts ++ [.ports]
  | .ringHoldTimeout _ _ =>
    eventParts ++ [.admission, .envelopes, .arrayFacts, .reservations, .ports, .selvCounters, .records]
  | .exoInjWrite _ _ _ => [.ports, .clampCounters]
  | .cinchCall _ | .cinchReport _ | .cinchPropose _ | .cinchAccept _ | .cinchDecide _ | .reportCollectTimeout _
  | .drainCall _ =>
    eventParts ++ [.inflight, .ports, .coordinates, .groups, .collectives, .streams, .agreement, .fapCounters]
  | .acceptCollectTimeout _ => [.agreement]
  | .cinchRoundTimeout _ =>
    eventParts ++ [.inflight, .gab, .ports, .coordinates, .groups, .collectives, .streams, .agreement, .fapCounters]
  | .fapDrainGo =>
    eventParts ++ [.free, .admission, .envelopes, .reservations, .coordinates, .agreement, .selvCounters]
  | .fapRoundCntClear | .fapShadowCntClear => [.fapCounters]
  | .currentWindowGrant => [.arrays, .current, .fillCounter]
  | .fillFloorTimeout _ => [.arrays]
  | .columnSpare _ _ => eventParts ++ [.arrayFacts, .records]
  | .arrayRetire _ _ =>
    eventParts ++ [.free, .admission, .envelopes, .arrays, .arrayFacts, .reservations, .selvCounters, .records]
  | .hwRecordWrite => [.free, .secrets, .records]
  | .demandMigration _ _ _ _ _ _ =>
    eventParts ++ [.admission, .envelopes, .arrayFacts, .reservations, .t1Faults, .gab, .checkpoints,
      .selvCounters, .records]
  | .migrationComplete _ _ _ => [.inflight, .regions, .bolts, .bytes, .mailbox, .flash, .checkpoints, .journal]
  | .memRgnGo _ => [.regions, .bolts, .bytes, .mailbox, .flash, .checkpoints, .journal]
  | .patrolScrub _ =>
    eventParts ++ [.admission, .envelopes, .arrayFacts, .reservations, .t1Faults, .selvCounters, .records]
  | .t1RehashComplete _ => eventParts ++ [.t1Faults]
  | .memRaClear _ => [.runAhead]
  | .staticWearLevelling _ | .readDisturbRefresh _ | .retentionRefresh _ | .garbageCollection =>
    [.flash, .checkpoints, .collection]
  | .badBlockRetire _ _ => eventParts ++ [.arrayFacts, .checkpoints, .collection, .records]
  | .gcThrottle _ _ _ => eventParts ++ [.collection, .stallCounters]
  | .journalRecordDurable =>
    [.inflight, .regions, .bolts, .bytes, .mailbox, .flash, .checkpoints, .journal, .collection]
  | .nvtGcClear => [.collection]
  | .hostBar2Access _ _ _ _ =>
    eventParts ++ [.functions, .bar2, .admission, .envelopes, .arrayFacts, .reservations, .t1Faults, .gab,
      .checkpoints, .selvCounters, .records]
  | .noRegisterAccess _ _ | .misalignedRegisterAccess _ _ => eventParts
  | .registerWrite _ _ _ _ =>
    eventParts ++ [.eventRing, .functions, .dma, .queues, .mailbox, .clampCounters, .sensors]
  | .linkChange _ _ _ => eventParts ++ [.link]
  | .pciAbiOffer _ _ _ => eventParts ++ [.functions]
  | .msixCoalesceExpire _ _ | .msixUnmask _ _ => [.messages]
  | .dmaDoorbell _ _ | .dmaEnable _ _ _ | .dmaAbort _ => eventParts ++ [.dma]
  | .dmaDescriptorStart _ _ _ _ _ =>
    eventParts ++ [.dma, .admission, .envelopes, .arrayFacts, .reservations, .t1Faults, .gab, .checkpoints,
      .selvCounters, .records]
  | .dmaDescriptorComplete _ _ =>
    eventParts ++ [.dma, .keepers, .admission, .envelopes, .arrayFacts, .reservations, .t1Faults, .gab,
      .checkpoints, .selvCounters, .records]
  | .dmaHostRequestFail _ _ _ => eventParts ++ [.dma, .keepers, .checkpoints]
  | .respRpWrite _ _ => [.response]
  | .tcsAdmCntClear _ => [.admission]
  | .normRpWrite _ _ => [.normRings]
  | .evtRpWrite _ => [.eventRing]
  | .cntClampClear _ _ => [.clampCounters]
  | .cntAccClear _ => [.accCounters]
  | .cntLateClear _ => [.lateCounters]
  | .colCntClear _ => [.colCounters]
  | .pwrCntClear | .droopDetect _ _ | .droopRecover _ _ _ | .clockStepRampEnd _ => [.power]
  | .cntStallClear _ => [.stallCounters]
  | .cntSnap _ _ => [.free, .stallCounters]
  | .cntSelvClear _ => [.selvCounters]
  | .cntFillClear => [.fillCounter]
  | .haltClear _ => [.events, .halts]
  | .partitionHalt _ => eventParts ++ [.halts, .dma, .queues, .inflight, .envelopes, .staging]
  | .deviceFatalStop =>
    eventParts ++ [.halts, .dma, .queues, .inflight, .envelopes, .ports, .coordinates, .groups, .collectives,
      .streams, .agreement, .fapCounters, .staging]
  | .stageBegin _ | .stageData _ _ _ | .stageEnd _ => [.staging, .answers]
  | .stageTimeout => [.staging]
  | .arm _ _ _ => [.records, .staging, .answers]
  | .abort _ => eventParts ++ [.staging, .answers]
  | .swapApply =>
    engineParts ++ [.free, .halts, .functions, .dma, .queues, .keepers, .admission, .regions, .mailbox,
      .reservations, .gab, .checkpoints, .ports, .coordinates, .groups, .collectives, .streams, .agreement,
      .fapCounters, .secrets, .clampCounters, .accCounters, .selvCounters, .phases, .normRings, .stallCounters,
      .boot, .config, .staging]
  | .swapTimeout => eventParts ++ [.staging]
  | .commitWordProgram => [.records, .staging]
  | .readActive _ | .readLog _ _ _ _ | .getVersionSupport _ _ | .getPldmVersion _ _ | .setEventReceiver _ _
  | .pldmSensorRead _ _ | .spdmGetVersion _ | .spdmGetCapabilities _ | .spdmNegotiateAlgorithms _
  | .getCert _ _ _ =>
    [.answers]
  | .coord _ _ _ _ _ _ _ => [.coordinates]
  | .requestUpdate _ => eventParts ++ [.free, .images, .answers]
  | .firmwareDataTransfer _ _ _ => [.images, .answers]
  | .verifyComplete _ | .activateFirmware _ => eventParts ++ [.images, .answers]
  | .spdmUnsupportedRequest _ _ => eventParts ++ [.answers]
  | .getReport _ _ _ _ => [.secrets, .answers]
  | .keyErase _ _ _ => eventParts ++ [.checkpoints, .secrets, .answers]
  | .entropyHealthFail _ => eventParts ++ [.free, .secrets]
  | .sensorUpdate _ _ _ => eventParts ++ [.power, .boot, .sensors]
  | .coolantLimit _ _ _ | .powerLoopSample _ => eventParts ++ [.power]
  | .railOutOfTolerance _ _ _ => eventParts ++ [.boot]
  | .thermalLoopSample _ _ => eventParts ++ [.free, .power]
  | .referenceClockLoss _ => eventParts ++ [.clocks, .boot]
  | .pllUnlock _ =>
    eventParts ++ [.free, .link, .inflight, .admission, .envelopes, .reservations, .ports, .coordinates, .groups,
      .collectives, .streams, .agreement, .fapCounters, .clocks, .selvCounters]
  | .clkRefEdge => [.power, .time, .stallCounters, .fillCounter]
  | .pllRelock _ => [.ports, .clocks]
  | .vfEnable _ =>
    engineParts ++ [.free, .halts, .link, .functions, .dma, .queues, .keepers, .regions, .mailbox, .gab,
      .checkpoints, .groups, .collectives, .streams, .agreement, .clampCounters, .accCounters, .selvCounters,
      .phases, .normRings, .stallCounters, .staging]
  | .bootStepComplete _ =>
    eventParts ++ [.free, .admission, .envelopes, .arrayFacts, .reservations, .t1Faults, .gab, .checkpoints,
      .ports, .fuses, .secrets, .clocks, .clampCounters, .selvCounters, .boot, .images, .records, .config, .staging]
  | .flashProgramComplete _ =>
    eventParts ++ [.admission, .envelopes, .arrayFacts, .regions, .mailbox, .reservations, .t1Faults, .gab,
      .checkpoints, .collection, .selvCounters, .records]
  | .switchInMessage _ _ _ =>
    engineParts ++ [.free, .halts, .functions, .dma, .queues, .keepers, .admission, .regions, .mailbox,
      .reservations, .gab, .checkpoints, .ports, .coordinates, .groups, .collectives, .streams, .agreement,
      .fapCounters, .secrets, .clampCounters, .accCounters, .selvCounters, .phases, .normRings, .stallCounters,
      .boot, .records, .config, .staging]

/-! ### What every step keeps -/

/-- The fuses of one state stay set in another (R396): the rollback fuses and the revocation of key slot 0. -/
def FusesKept (s t : State) : Prop :=
  s.sec.rollback &&& t.sec.rollback = s.sec.rollback ∧ (s.sec.slot0Revoked = true → t.sec.slot0Revoked = true)

/-- Memory lies in its canonical form. -/
def MemoryOk (s : State) : Prop := Memory.wf s.mem.bytes = true

/-! ### Frames inside one part -/

/-- Every queue but one reads as before. -/
def OtherQueues (q : Nat) (s t : State) : Prop := ∀ j, j ≠ q → t.queue j = s.queue j
/-- Every keeper but one reads as before. -/
def OtherKeepers (k : Nat) (s t : State) : Prop := ∀ j, j ≠ k → t.keeper j = s.keeper j
/-- Every command in flight but that of a queue's ring index stands as before. -/
def OtherFlights (q : Nat) (pos : BitVec 32) (s t : State) : Prop :=
  ∀ j i, ¬ (j = q ∧ i = pos) → t.inflight j i = s.inflight j i
/-- Every logical array but one stands as before. -/
def OtherArrays (l : Nat) (s t : State) : Prop := ∀ j, j ≠ l → t.arr j = s.arr j
/-- Every port but one stands as before. -/
def OtherPorts (e : Nat) (s t : State) : Prop := ∀ j, j ≠ e → t.port j = s.port j
/-- The command of a queue at a ring index is in flight and has reached its completion point (R167). -/
def Completed (q : Nat) (pos : BitVec 32) (t : State) : Prop :=
  ∃ f, t.inflight q pos = some f ∧ f.started = true ∧ f.done = true
/-- A physical array is retired: a free spare has left the spares, another is due to be retired (R73, R346). -/
def Retired (s t : State) (a : Nat) : Prop :=
  (a ∈ s.mxa.hw.sparesFree → a ∈ t.mxa.hw.retired ∧ ¬ a ∈ t.mxa.hw.sparesFree) ∧
  (¬ a ∈ s.mxa.hw.sparesFree → a ∈ t.mxa.retireDue)

end Sys2Proof.Machine
end

