-- ==== Sys2Proof/Certificates/Slice0/Obligations.lean ====
section
/-! DEFINITION. The statements for the provers. -/

open Sys2Proof Sys2Proof.Machine

/-- A step runs the front command. A step with a command at the front of the queue is that command's meaning on the
state with the rest of the queue; with no command waiting the state stays (the idle step is the model's choice, entry
17). (95_what_each_step_holds.md) -/
def Obligations.StepRunsFrontCommand : Prop :=
  (∀ (c : Instr) (rest : List Instr) (s : State), s.pending = c :: rest →
    step s = exec c { s with pending := rest }) ∧
  (∀ s : State, s.pending = [] → step s = .next s)

/-- Every step answers and takes exactly the front command. From every state a step answers a next state, whose
waiting commands are those that waited behind the front one: no command faults, refuses, adds a command or drops one.
(95_what_each_step_holds.md) -/
def Obligations.EveryStepAnswers : Prop :=
  ∀ s : State, ∃ t, step s = .next t ∧ t.pending = s.pending.tail

/-- What reset leaves. The machine right after reset holds no byte of memory, no event, no queue enabled, no command
in flight, CNT_TIME 0, and reads WMC_BOOT 0; its memory is in canonical form and no command waits. (R443, R428, R198,
R393) -/
def Obligations.ResetState : Prop :=
  MemoryOk State.reset ∧ State.reset.pending = [] ∧ State.reset.mem.bytes = [] ∧ State.reset.clk.time = 0 ∧
  State.reset.evt.log = [] ∧ State.reset.evt.seq = 0 ∧ State.reset.tcs.inflight = [] ∧ State.reset.isReady = false ∧
  (∀ q, (State.reset.queue q).enable = false ∧ (State.reset.queue q).state = 0) ∧
  (∀ k, State.reset.keeper k = 0) ∧ (∀ p dva, State.reset.regionAt p dva = none) ∧
  State.reset.readReg 0 0x0A000000 = 0

/-- Every step keeps memory in canonical form. From every state whose memory is in canonical form (keys strictly
rising, no byte listed that is zero), every step leaves it so. (R198, R206, R211) -/
def Obligations.StepsKeepMemoryCanonical : Prop :=
  ∀ s t : State, MemoryOk s → step s = .next t → MemoryOk t

/-- No step clears a fuse. A rollback fuse that is blown stays blown over every step, and key slot 0 once revoked
stays revoked. (R395, R398) -/
def Obligations.StepsNeverUnblowAFuse : Prop :=
  ∀ s t : State, step s = .next t → FusesKept s t

/-- Each command changes only its own parts of the machine. For every command and every state, every part of the
machine outside the list that partsOf gives for the command is the same in the next state.
(95_what_each_step_holds.md, R449) -/
def Obligations.CommandsKeepTheirFrame : Prop :=
  ∀ (c : Instr) (s t : State), exec c s = .next t → SameBut (partsOf c) s t

/-- CNT_TIME moves only at reference edges and cold resets. Every command leaves CNT_TIME as it is, but CLK_REF_EDGE,
which adds 10, and a power-on or cold reset, which sets it to 0. (R428) -/
def Obligations.TimeMovesOnlyAtReferenceEdges : Prop :=
  (∀ (c : Instr) (s t : State), exec c s = .next t →
    t.clk.time = s.clk.time ∨ (c = .clkRefEdge ∧ t.clk.time = s.clk.time + 10) ∨ t.clk.time = 0) ∧
  (∀ (s t : State), s.clk.refOk = true → exec .clkRefEdge s = .next t → t.clk.time = s.clk.time + 10)

/-- A stored byte reads back, every other byte stands. Storing a byte at a mapped address whose bolt does not migrate
makes an agent that reads the slot written read that byte there, and leaves what every agent reads at every other
address. (R198, R206, R214) -/
def Obligations.WrittenBytesReadBack : Prop :=
  ∀ (a b : Acc) (dva x : Nat) (v : Byte) (s : State), (s.regionAt a.part dva).isSome →
    s.migrating a.part (s.writeSlot a dva) (dva / 65536) = false → a.part < 8 → b.part < 8 → dva < 2 ^ 52 → x < 2 ^ 52 →
    (b.part = a.part → s.readSlot b dva = s.writeSlot a dva → (storeByte a dva v s).readByte b dva = v) ∧
    (¬ (b.part = a.part ∧ x = dva) → (storeByte a dva v s).readByte b x = s.readByte b x) ∧
    SameBut [.bytes] s (storeByte a dva v s)

/-- An access to an address in no region reads zero and writes nothing. An access by any agent to an address that lies
in no region reads a zero byte, a write to it changes nothing, and one 0x0401 records the address, the agent and the
command. (R210) -/
def Obligations.UnmappedAccesses : Prop :=
  (∀ (a : Acc) (dva : Nat) (s : State), s.regionAt a.part dva = none →
    s.readByte a dva = 0#8 ∧ (∀ v, storeByte a dva v s = s)) ∧
  (∀ (a : Acc) (dva len : Nat) (d : Nat) (s : State), s.unmappedIn a.part dva len = some d →
    s.regionAt a.part d = none ∧
    eventUnmapped a (s.unmappedIn a.part dva len) s =
      eventP 0x0401 2 a.part (le 1 a.part ++ le 1 a.agent ++ le 7 (d % 2 ^ 52) ++ le 2 a.q ++ le 4 a.pos) s)

/-- Recording an event numbers it and logs it. Recording one event gives it the next number of the device-wide
sequence and puts it, with its code, severity, partition, data and time, at the head of the log of 4,096 records;
memory is written only where response rings lie, and CNT_TIME, queues and registers outside the event parts stand.
(R449, R450) -/
def Obligations.EventsAreNumberedAndLogged : Prop :=
  ∀ (r : EvReq) (s : State),
    (deliver r s).1.evt.seq = s.evt.seq + 1 ∧
    (deliver r s).1.evt.log =
      ({ code := BitVec.ofNat 16 r.code, sev := r.sev, part := r.part, seq := s.evt.seq, time := s.now, data := r.data } ::
        s.evt.log).take 4096 ∧
    SameBut eventParts s (deliver r s).1

/-- A full response ring drops the record and counts it. A 32-byte record for a full response ring is not written: the
ring only counts it in dropped, and nothing else changes; a ring with room advances its write index by one slot.
(R193, R450) -/
def Obligations.ResponseRingFull : Prop :=
  ∀ (p : Nat) (r : List Byte) (s : State),
    (((s.respRing p).wp + 1) % ringSize (s.respRing p).sizeCode = (s.respRing p).rp →
      (putResp p r s).2.1 = false ∧
      (putResp p r s).1.respRing p = { s.respRing p with dropped := satAdd 16 (s.respRing p).dropped 1 } ∧
      SameBut [.response] s (putResp p r s).1) ∧
    (((s.respRing p).wp + 1) % ringSize (s.respRing p).sizeCode ≠ (s.respRing p).rp →
      (putResp p r s).2.1 = true ∧
      (putResp p r s).1.respRing p =
        { s.respRing p with wp := ((s.respRing p).wp + 1) % ringSize (s.respRing p).sizeCode } ∧
      SameBut [.response, .bolts, .bytes, .runAhead, .flash, .journal] s (putResp p r s).1)

/-- A doorbell moves the tail or is ignored. A tail write in range replaces the tail of its queue and nothing else.
One for which (t - head) mod 2^32 exceeds the ring size, or (t - old tail) mod 2^32 is 2^31 or more, keeps the old
tail and records 0x0301 with both values. (R164) -/
def Obligations.DoorbellsMoveTheTail : Prop :=
  ∀ (q : QIdx) (v : BitVec 32) (s : State),
    ((v - (s.queue q).head).toNat ≤ ringSize (s.queue q).sizeCode → (v - (s.queue q).tail).toNat < 2 ^ 31 →
      ∃ t, exec (.queueDoorbell q v) s = .next t ∧ t.queue q = { s.queue q with tail := v } ∧ OtherQueues q s t ∧
        SameBut [.queues] s t) ∧
    (ringSize (s.queue q).sizeCode < (v - (s.queue q).head).toNat ∨ 2 ^ 31 ≤ (v - (s.queue q).tail).toNat →
      ∃ t, exec (.queueDoorbell q v) s = .next t ∧ t.queue q = s.queue q ∧ SameBut eventParts s t ∧
        t = eventP 0x0301 2 (partOfQ q) (le 2 q.val ++ le 4 (s.queue q).tail.toNat ++ le 4 v.toNat) s)

/-- Enable, disable, resume and abort of a queue. Enabling a disabled queue of a ready device, whose function has an
ABI and whose partition is not halted, sets enable, state 1 and head to the present tail. Disabling clears enable and
sets state 0. A resume in state 3 sets state 1. An abort ends with head at tail, state 0 and enable cleared. (R165,
R173, R183) -/
def Obligations.QueuesStartStopResumeAbort : Prop :=
  (∀ (fn : Func) (q : QIdx) (s : State), (s.queue q).enable = false → s.isReady = true →
    (s.abi (s.ownerFn (partOfQ q))).activeMajor ≠ 0 → s.evt.halted.getLsbD (partOfQ q) = false →
    ∃ t, exec (.queueEnable fn q) s = .next t ∧ OtherQueues q s t ∧ SameBut [.queues] s t ∧
      t.queue q = { s.queue q with
        enable := true, state := 1, head := (s.queue q).tail, env := none, wait := none, aborted := false }) ∧
  (∀ (q : QIdx) (s : State), ∃ t, exec (.queueDisable q) s = .next t ∧ OtherQueues q s t ∧
      t.queue q = { s.queue q with enable := false, state := 0 } ∧ SameBut [.queues, .staging] s t) ∧
  (∀ (q : QIdx) (s : State), (s.queue q).state = 3 → ∃ t, exec (.queueResume q) s = .next t ∧ OtherQueues q s t ∧
      t.queue q = { s.queue q with state := 1, wait := none } ∧ SameBut [.queues] s t) ∧
  (∀ (q : QIdx) (s : State), ∃ t, exec (.queueAbort q) s = .next t ∧ (t.queue q).state = 0 ∧ (t.queue q).enable = false ∧
      (t.queue q).head = (t.queue q).tail ∧ (t.queue q).tail = (s.queue q).tail ∧
      SameBut (eventParts ++ [.queues, .inflight, .envelopes, .staging]) s t)

/-- An enable that is not taken. An enable before ready is ignored and records 0x0A02 with the function, the queue and
the boot step; one whose owner has no ABI records 0x0903; one of a halted partition records 0x0A0A with cause 2. The
queue stays disabled in each case. (R373, R377, R447) -/
def Obligations.EnablesAreRefused : Prop :=
  ∀ (fn : Func) (q : QIdx) (s : State), (s.queue q).enable = false →
    (s.isReady = false → exec (.queueEnable fn q) s =
      .next (eventD 0x0A02 1 (le 1 fn ++ le 2 q ++ le 1 s.wmc.step) s)) ∧
    (s.isReady = true → (s.abi (s.ownerFn (partOfQ q))).activeMajor = 0 → ∃ t, exec (.queueEnable fn q) s = .next t ∧
      t = eventAbi (s.ownerFn (partOfQ q)) (some (partOfQ q)) (queueOffset fn q 8) s) ∧
    (s.isReady = true → (s.abi (s.ownerFn (partOfQ q))).activeMajor ≠ 0 →
      s.evt.halted.getLsbD (partOfQ q) = true → ∃ t, exec (.queueEnable fn q) s = .next t ∧
      t = eventP 0x0A0A 2 (partOfQ q)
        (le 1 (partOfQ q) ++ le 1 2 ++ le 4 (tabGet 0 s.evt.haltSeq (partOfQ q)).toNat) s) ∧
    (∀ t, exec (.queueEnable fn q) s = .next t →
      (s.isReady = false ∨ (s.abi (s.ownerFn (partOfQ q))).activeMajor = 0 ∨ s.evt.halted.getLsbD (partOfQ q) = true) →
      t.queue q = s.queue q ∧ SameBut eventParts s t)

/-- Dispatch, completion, nop and rejected opcodes. Dispatching the head command of a queue that may dispatch, and whose
ring slot the control core can reach, hands over its copy as the read returns it, not yet started, and advances head
unless the command is an env.open or env.join, which holds the queue in state 2. A completed command leaves flight and adds 1 to the keeper it names when sig_en is set. A nop completes at
once. An opcode that the class table rejects completes with 0x0302. (R163, R167, R168, R169, R172) -/
def Obligations.DispatchAndCompletion : Prop :=
  (∀ (q : QIdx) (errs : List ReadError) (w : CmdWord) (s : State),
    let a := ringReader q (s.queue q).head
    w = (keepStored a errs s).slot q (s.queue q).head → mayDispatch s q w = true → s.inflight q (s.queue q).head = none →
    s.blocked (readsOf a [((s.queue q).slotDva (s.queue q).head, 32)]) = false →
    ∃ t, exec (.commandDispatch q errs) s = .next t ∧ OtherQueues q s t ∧ OtherFlights q (s.queue q).head s t ∧
      t.inflight q (s.queue q).head = some (handOver s q w) ∧ (t.queue q).tail = (s.queue q).tail ∧
      (if opcodeOf w = 0x61 ∨ opcodeOf w = 0x62 then (t.queue q).head = (s.queue q).head ∧ (t.queue q).state = 2
       else (t.queue q).head = (s.queue q).head + 1 ∧ (t.queue q).state = (s.queue q).state) ∧
      (errs = [] → SameBut (eventParts ++ [.queues, .inflight]) s t) ∧ SameBut (partsOf (.commandDispatch q errs)) s t) ∧
  (∀ (q : QIdx) (pos : BitVec 32) (f : Inflight) (s : State), s.inflight q pos = some f → f.done = true →
    ∃ t, exec (.commandComplete q pos) s = .next t ∧ t.inflight q pos = none ∧ OtherFlights q pos s t ∧
      (∀ k, fld f.word 9 1 = 1 → s.keeperOf (partOfQ q) (fld f.word 16 16) = some k →
        t.keeper k = s.keeper k + 1 ∧ OtherKeepers k s t) ∧
      (fld f.word 9 1 = 0 → ∀ k, t.keeper k = s.keeper k) ∧
      (fld f.word 9 1 = 0 → fld f.word 10 1 = 0 → SameBut [.inflight] s t) ∧
      SameBut (eventParts ++ [.keepers, .inflight]) s t) ∧
  (∀ (q : QIdx) (pos : BitVec 32) (f : Inflight) (s : State), s.gate (isOp 0) q pos noReads = .go f →
    ∃ t, exec (.nop q pos) s = .next t ∧ Completed q pos t ∧ OtherFlights q pos s t ∧ SameBut [.inflight] s t) ∧
  (∀ (q : QIdx) (pos : BitVec 32) (f : Inflight) (s : State),
    s.gate (fun w => rejectedOp (opcodeOf w)) q pos noReads = .go f →
    ∃ t, exec (.rejectedOpcode q pos) s = .next t ∧ Completed q pos t ∧ OtherFlights q pos s t ∧
      SameBut (eventParts ++ [.inflight]) s t ∧
      t = markDone q pos (eventP 0x0302 2 (partOfQ q) (le 2 q.val ++ le 4 pos.toNat ++ le 1 (opcodeOf f.word))
        (markStarted q pos s)))

/-- kp.set, kp.add and kp.cas. A keeper command on a keeper below kp_count sets it to x, adds x modulo 2^32, or
replaces it by y when it equals x, changes no other keeper, and completes; a kp.cas with dva 0 writes no memory,
another writes the old value as 4 bytes at dva once the control core can reach it. A reference at or beyond kp_count does nothing but record 0x0303 and
completes. (R172, R174) -/
def Obligations.KeeperCommands : Prop :=
  ∀ (q : QIdx) (pos : BitVec 32) (f : Inflight) (k : Nat) (s : State),
    (s.keeperOf (partOfQ q) (fld f.word 48 16) = some k →
      (s.gate (isOp 0x41) q pos noReads = .go f → ∃ t, exec (.kpSet q pos) s = .next t ∧
        t.keeper k = f.word.extractLsb' 64 32 ∧ OtherKeepers k s t ∧ Completed q pos t ∧ OtherFlights q pos s t ∧
        SameBut [.keepers, .inflight] s t) ∧
      (s.gate (isOp 0x42) q pos noReads = .go f → ∃ t, exec (.kpAdd q pos) s = .next t ∧
        t.keeper k = s.keeper k + f.word.extractLsb' 64 32 ∧ OtherKeepers k s t ∧ Completed q pos t ∧
        OtherFlights q pos s t ∧ SameBut [.keepers, .inflight] s t) ∧
      (s.gate (isOp 0x43) q pos noReads = .go f →
        (fld f.word 128 52 ≠ 0 → s.blocked (writesOf (coreAcc f) [(fld f.word 128 52, 4)]) = false) →
        let v := if s.keeper k = f.word.extractLsb' 64 32 then f.word.extractLsb' 96 32 else s.keeper k
        ∃ t, exec (.kpCas q pos) s = .next t ∧ t.keeper k = v ∧
        OtherKeepers k s t ∧ Completed q pos t ∧ OtherFlights q pos s t ∧
        (fld f.word 128 52 = 0 → SameBut [.keepers, .inflight] s t) ∧
        (fld f.word 128 52 ≠ 0 →
          t = markDone q pos (eventUnmapped (coreAcc f) (s.unmappedIn (partOfQ q) (fld f.word 128 52) 4)
            (cmdWrite (coreAcc f) (fld f.word 128 52) (le 4 (s.keeper k).toNat)
              (if s.keeper k = f.word.extractLsb' 64 32 then setKeeper k v (markStarted q pos s) else markStarted q pos s)))) ∧
        SameBut (partsOf (.kpCas q pos)) s t)) ∧
    (s.keeperOf (partOfQ q) (fld f.word 48 16) = none → s.inflight q pos = some f →
      let t := markDone q pos (eventP 0x0303 2 (partOfQ q) (le 2 q.val ++ le 4 pos.toNat ++ le 2 (fld f.word 48 16))
        (markStarted q pos s))
      Completed q pos t ∧ OtherFlights q pos s t ∧ SameBut (eventParts ++ [.inflight]) s t ∧
      (s.gate (isOp 0x41) q pos noReads = .go f → exec (.kpSet q pos) s = .next t) ∧
      (s.gate (isOp 0x42) q pos noReads = .go f → exec (.kpAdd q pos) s = .next t) ∧
      (s.gate (isOp 0x43) q pos noReads = .go f → exec (.kpCas q pos) s = .next t))

/-- kp.wait blocks its queue until its condition holds. A kp.wait whose condition holds completes and releases its
queue; one whose condition does not hold starts and leaves its queue blocked; KP_WAIT_SATISFIED completes a blocked
one whose condition holds. The condition is (v - x) mod 2^32 < 2^31, v = x, v /= x, or v AND x = x, as cond selects.
(R169, R172, R174) -/
def Obligations.KeeperWaits : Prop :=
  (∀ (v x : BitVec 32), waitHolds 0 v x = decide ((v - x).toNat < 2 ^ 31) ∧ waitHolds 1 v x = decide (v = x) ∧
    waitHolds 2 v x = decide (v ≠ x) ∧ waitHolds 3 v x = decide (v &&& x = x)) ∧
  (∀ (q : QIdx) (pos : BitVec 32) (f : Inflight) (k : Nat) (s : State), s.inflight q pos = some f →
    opcodeOf f.word = 0x40 → f.done = false → f.started = true ∨ s.inOrder f = true → s.isLate f [] = false →
    waitIsExternal s f = false → s.keeperOf (partOfQ q) (fld f.word 48 16) = some k →
    (f.started = false → waitHolds (fld f.word 96 2) (s.keeper k) (f.word.extractLsb' 64 32) = true →
      ∃ t, exec (.kpWait q pos) s = .next t ∧ Completed q pos t ∧ OtherFlights q pos s t ∧ OtherQueues q s t ∧
        (t.queue q).wait = (if (s.queue q).wait = some pos then none else (s.queue q).wait) ∧
        SameBut [.queues, .inflight] s t) ∧
    (f.started = false → waitHolds (fld f.word 96 2) (s.keeper k) (f.word.extractLsb' 64 32) = false →
      ∃ t, exec (.kpWait q pos) s = .next t ∧ t.inflight q pos = some { f with started := true, since := s.now } ∧
        SameBut [.inflight] s t) ∧
    (f.started = true → waitHolds (fld f.word 96 2) (s.keeper k) (f.word.extractLsb' 64 32) = true →
      ∃ t, exec (.kpWaitSatisfied q pos) s = .next t ∧ Completed q pos t ∧ OtherFlights q pos s t ∧ OtherQueues q s t ∧
        (t.queue q).wait = (if (s.queue q).wait = some pos then none else (s.queue q).wait) ∧
        SameBut [.queues, .inflight] s t))

/-- The host sets and adds to keepers. A host set or add on a keeper that the function reaches (any through the PF,
one below kp_count in a VF window) gives that keeper the value or the sum modulo 2^32 and changes no other; one beyond
kp_count changes none and records 0x0303. (R172, R176, R360) -/
def Obligations.HostKeeperWrites : Prop :=
  ∀ (fn : Func) (k : BitVec 16) (v : BitVec 32) (s : State),
    (∀ d, (if fn.val = 0 then some k.toNat else s.keeperOf (fn.val - 1) k.toNat) = some d →
      (∃ t, exec (.keeperSetHost fn k v) s = .next t ∧ t.keeper d = v ∧ OtherKeepers d s t ∧ SameBut [.keepers] s t) ∧
      (∃ t, exec (.keeperAddHost fn k v) s = .next t ∧ t.keeper d = s.keeper d + v ∧ OtherKeepers d s t ∧
        SameBut [.keepers] s t)) ∧
    (fn.val ≠ 0 → s.keeperOf (fn.val - 1) k.toNat = none → ∀ c ∈ [Instr.keeperSetHost fn k v, Instr.keeperAddHost fn k v],
      exec c s = .next (eventP 0x0303 2 (fn.val - 1) (le 2 0xFFFE ++ le 4 fn.val ++ le 2 k.toNat) s))

/-- ph.mark and fn.drain. A ph.mark gives the phase timer of its phase the local time, one more count, the queue and
the tag, changes no other timer, and completes. A fn.drain that no earlier keeper or fence command of its queue holds
completes once every earlier command of its queue has; until then it waits. (R177, R434) -/
def Obligations.PhaseMarksAndDrains : Prop :=
  (∀ (q : QIdx) (pos : BitVec 32) (f : Inflight) (s : State), s.gate (isOp 0x60) q pos noReads = .go f →
    ∃ t, exec (.phMark q pos) s = .next t ∧ Completed q pos t ∧ OtherFlights q pos s t ∧
      SameBut [.inflight, .phases] s t ∧
      (let key := phaseKey (partOfQ q) (fld f.word 48 16 % 64)
       tabGet {} t.cnt.phase key =
         { time := s.now, count := ((tabGet {} s.cnt.phase key).count + 1) % 2 ^ 16, queue := q.val % 32,
           hi := fld f.word 48 16 / 64, tag := f.word.extractLsb' 64 32 } ∧
       ∀ j, j ≠ key → tabGet {} t.cnt.phase j = tabGet {} s.cnt.phase j)) ∧
  (∀ (q : QIdx) (pos : BitVec 32) (f : Inflight) (s : State), s.inflight q pos = some f → opcodeOf f.word = 0x65 →
    f.done = false → f.started = true ∨ s.inOrder f = true → s.isLate f [] = false →
    (drained s f = true → ∃ t, exec (.fnDrain q pos) s = .next t ∧ Completed q pos t ∧ OtherFlights q pos s t ∧
      SameBut [.inflight] s t) ∧
    (drained s f = false → ∃ t, exec (.fnDrain q pos) s = .next t ∧ OtherFlights q pos s t ∧
      (∃ g, t.inflight q pos = some g ∧ g.started = true ∧ g.done = false) ∧ SameBut [.inflight] s t))

/-- env.open, env.join and env.close. An env.open at its marker appends an envelope of its env_id, members, deadline,
seed, step, update mark and on_refuse, holding its own queue. An env.join attaches its queue to the envelope that
joinTarget names: held while it is not answered, entering its part once it runs. An env.close of the part its queue
runs ends the part; any other records 0x0304 and completes. (R178, R179, R180, R182) -/
def Obligations.EnvelopeMarkers : Prop :=
  (∀ (f : Inflight) (u : Nat), (openEnvelope f u).uid = u ∧ (openEnvelope f u).part = f.q / 32 ∧
    (openEnvelope f u).envId = f.word.extractLsb' 48 16 ∧ (openEnvelope f u).members = f.word.extractLsb' 64 32 ∧
    (openEnvelope f u).deadline = fld f.word 96 32 ∧ (openEnvelope f u).seed = f.word.extractLsb' 128 64 ∧
    (openEnvelope f u).step = f.word.extractLsb' 192 32 ∧ (openEnvelope f u).status = .opening ∧
    (openEnvelope f u).update = decide (fld f.word 224 1 = 1) ∧ (openEnvelope f u).onRefuse = fld f.word 225 2) ∧
  (∀ (q : QIdx) (pos : BitVec 32) (f : Inflight) (s : State), s.inflight q pos = some f → f.started = false →
    s.inOrder f = true →
    (opcodeOf f.word = 0x61 → ∃ t, exec (.envOpen q pos) s = .next t ∧
      t.tcs.envs = s.tcs.envs ++ [openEnvelope f s.tcs.nextUid] ∧ t.tcs.nextUid = s.tcs.nextUid + 1 ∧
      t.inflight q pos = some { f with started := true, since := s.now, env := some s.tcs.nextUid } ∧
      OtherFlights q pos s t ∧ SameBut [.inflight, .envelopes] s t) ∧
    (opcodeOf f.word = 0x62 → joinTarget s f = none → exec (.envJoin q pos) s = .next s) ∧
    (∀ e, opcodeOf f.word = 0x62 → joinTarget s f = some e → s.env e.uid = some e →
      (e.status = .opening ∨ e.status = .queued → ∃ t, exec (.envJoin q pos) s = .next t ∧
        t.env e.uid = some { e with parts := e.parts ++ [{ q := q.val, first := pos, close := none }] } ∧
        t.inflight q pos = some { f with started := true, since := s.now, env := some e.uid } ∧
        OtherFlights q pos s t ∧ SameBut [.inflight, .envelopes] s t) ∧
      (e.status = .admitted ∨ e.status = .unguaranteed → ∃ t, exec (.envJoin q pos) s = .next t ∧
        t.queue q = { s.queue q with
          state := 1, head := (s.queue q).head + 1, env := some e.uid, seed := e.seed, step := e.step, wait := none } ∧
        OtherQueues q s t ∧ OtherFlights q pos s t ∧ SameBut [.queues, .inflight, .envelopes] s t) ∧
      (e.status = .skipping → (s.queue q).head = pos → ∃ t, exec (.envJoin q pos) s = .next t ∧
        (t.queue q).state = 1 ∧ (t.queue q).env = none ∧ (t.queue q).wait = none ∧ t.inflight q pos = none ∧
        OtherQueues q s t ∧ SameBut [.queues, .inflight, .envelopes] s t)) ∧
    (∀ u e, opcodeOf f.word = 0x63 → (s.queue q).env = some u → s.env u = some e → e.envId = f.word.extractLsb' 48 16 →
      ∃ t, exec (.envClose q pos) s = .next t ∧ (t.queue q).env = none ∧ OtherQueues q s t ∧ OtherFlights q pos s t ∧
        t.env u = some { e with parts := e.parts.map (fun y =>
          if y.q = q.val ∧ y.close = none then { y with close := some pos } else y) } ∧
        t.inflight q pos = some { f with started := true, since := s.now } ∧
        SameBut [.queues, .inflight, .envelopes] s t) ∧
    (opcodeOf f.word = 0x63 →
      (((s.queue q).env).bind s.env).filter (fun e => e.envId == f.word.extractLsb' 48 16) = none →
      ∃ t, exec (.envClose q pos) s = .next t ∧ Completed q pos t ∧
      OtherFlights q pos s t ∧ OtherQueues q s t ∧ SameBut (eventParts ++ [.queues, .inflight]) s t ∧
      t = markDone q pos (eventP 0x0304 2 (partOfQ q) (le 2 q.val ++ le 4 pos.toNat ++ le 2 (fld f.word 48 16))
        (releaseWait f s))))

/-- A ready envelope queues and the unit answers it. A ready envelope enters its partition's admission queue last, and
takes the present time as its admission instant, and the keepers of that instant, when it is first. The unit accepts the first envelope when its
evaluation finds no reason: it is admitted with W, M, the bookings and the deadline as its bound, leaves the admission
queue, and counts as admitted. With a reason, the envelope leaves the admission queue and counts as refused; with
on_refuse 0 or 3 its held queues stop in state 3. Where the unit's reads meet uncorrectable errors it answers from the
stored bits, and their events follow. An evaluation never accepts an envelope whose deadline lies below W
+ M. That the unit waits while its partition is held is DEDUCED (entry 12). (R181, R183, R184, R187, R188, R193, R194)
-/
def Obligations.AdmissionAnswers : Prop :=
  (∀ (p : Fin 8) (uid : Nat) (e : Envelope) (s : State), s.env uid = some e → e.part = p.val → envReady s e = true →
    ∃ t, exec (.envelopeReady p uid []) s = .next t ∧
      tabGet [] t.tcs.admQueue p.val = tabGet [] s.tcs.admQueue p.val ++ [uid] ∧
      t.env uid = some { e with
        status := .queued
        tA := if tabGet [] s.tcs.admQueue p.val = [] then s.now else e.tA
        kpAt := if tabGet [] s.tcs.admQueue p.val = [] then s.tcs.keepers else e.kpAt } ∧
      SameBut [.envelopes] s t) ∧
  (∀ (p : Fin 8) (uid : Nat) (e : Envelope) (errs : List ReadError) (s u : State), s.env uid = some e → e.part = p.val →
    u = keepStored (planAcc p) errs s →
    (envReady u e = true → ∃ t, exec (.envelopeReady p uid []) u = .next t ∧
      exec (.envelopeReady p uid errs) s = .next (noteErrors 4 errs t)) ∧
    ((tabGet [] s.tcs.admQueue p.val).head? = some uid → s.wmc.held.contains p.val = false →
      ∃ t, exec (.admissionEvaluate p []) u = .next t ∧
        exec (.admissionEvaluate p errs) s = .next (noteErrors 4 errs t))) ∧
  (∀ (s : State) (e : Envelope), (evaluate s e).reason = 0 → (evaluate s e).w + (evaluate s e).m ≤ e.deadline) ∧
  (∀ (p : Fin 8) (uid : Nat) (rest : List Nat) (e : Envelope) (s : State),
    tabGet [] s.tcs.admQueue p.val = uid :: rest → ¬ uid ∈ rest → s.env uid = some e → e.part = p.val →
    s.wmc.held.contains p.val = false →
    ((evaluate s e).reason = 0 → ∃ t, exec (.admissionEvaluate p []) s = .next t ∧
      tabGet [] t.tcs.admQueue p.val = rest ∧
      (tabGet {} t.tcs.admCnt p.val).admitted = satAdd 20 (tabGet {} s.tcs.admCnt p.val).admitted 1 ∧
      (∃ x, t.env uid = some x ∧ x.status = .admitted ∧ x.tA = e.tA ∧ x.w = (evaluate s e).w ∧ x.m = (evaluate s e).m ∧
        x.bound = e.deadline ∧ x.booked = (evaluate s e).booked ∧ x.fences = (evaluate s e).fences) ∧
      t.tcs.admSeq = s.tcs.admSeq + 1 ∧
      SameBut (eventParts ++ [.queues, .admission, .envelopes]) s t) ∧
    ((evaluate s e).reason ≠ 0 → ∃ t, exec (.admissionEvaluate p []) s = .next t ∧
      tabGet [] t.tcs.admQueue p.val = rest ∧
      (tabGet {} t.tcs.admCnt p.val).refused = satAdd 20 (tabGet {} s.tcs.admCnt p.val).refused 1 ∧
      t.tcs.admSeq = s.tcs.admSeq + 1 ∧
      (e.onRefuse = 0 ∨ e.onRefuse = 3 → ∀ x ∈ e.parts, (t.queue x.q).state = 3 ∧ (t.queue x.q).wait = none ∧
        (t.queue x.q).head = (s.queue x.q).head) ∧
      SameBut (eventParts ++ [.queues, .inflight, .admission, .envelopes]) s t))

/-- Projections revoke guarantees, and envelopes complete. Evaluating the projection of an admitted envelope whose
internal waits can all be met revokes its guarantee with reason 1 when P exceeds its bound, with reason 2 when P is
unbounded and the bound is not, and with reason 3 when another write has left an internal wait unmet; otherwise, and for one whose guarantee interference has
ended already, only the margin it drew is noted. A draw counts at most what the table allows its kind: nothing for a
switch-in, 80,000 ns for a retrain, 4,000 ns for a link retry. An envelope all of whose commands have completed ends: its markers complete and no bolt
stays protected by it. (R189, R190, R191, R193, R220) -/
def Obligations.ProjectionAndCompletion : Prop :=
  (∀ (p : Fin 8) (uid drawNs : Nat) (draws : List MarginDraw) (e : Envelope) (s : State), s.env uid = some e →
    e.part = p.val → e.status = .admitted → drawNs = drawSum s e draws →
    (e.dead = false → interfered s e = true → exec (.projectionEvaluate p uid draws) s = .next (revoke uid 3 drawNs s)) ∧
    (e.dead = false → interfered s e = false → projection s e drawNs = none → e.bound ≠ 0xFFFFFFFF →
      exec (.projectionEvaluate p uid draws) s = .next (revoke uid 2 drawNs s)) ∧
    (∀ x, e.dead = false → interfered s e = false → projection s e drawNs = some x → e.bound ≠ 0xFFFFFFFF →
      ((e.tA + e.bound * 1000 : Nat) : Rat) < x →
      exec (.projectionEvaluate p uid draws) s = .next (revoke uid 1 drawNs (noteDraw uid (marginUsed e x) s))) ∧
    (∀ x, projection s e drawNs = some x →
      e.dead = true ∨ (interfered s e = false ∧ (e.bound = 0xFFFFFFFF ∨ ¬ ((e.tA + e.bound * 1000 : Nat) : Rat) < x)) →
      ∃ t, exec (.projectionEvaluate p uid draws) s = .next t ∧ t = noteDraw uid (marginUsed e x) s ∧
        SameBut [.envelopes, .selvCounters] s t) ∧
    (∀ reason t, t = revoke uid reason drawNs s → ∃ y, t.env uid = some y ∧ y.revoked = true ∧
      (tabGet {} t.tcs.admCnt p.val).revoked = satAdd 20 (tabGet {} s.tcs.admCnt p.val).revoked 1 ∧
      t.tcs.admSeq = s.tcs.admSeq ∧
      SameBut (eventParts ++ [.admission, .envelopes, .selvCounters]) s t)) ∧
  (∀ (s : State) (e : Envelope) (ns : Nat), marginDrawn s e .switchIn = 0 ∧ marginDrawn s e (.retrain ns) = min ns 80000 ∧
    marginDrawn s e (.linkRetry ns) = min ns 4000 ∧ marginDrawn s e .storageCorrected = 0) ∧
  (∀ (p : Fin 8) (uid : Nat) (e : Envelope) (s : State), s.env uid = some e → e.part = p.val → envDone s e = true →
    ∃ t, exec (.envelopeComplete p uid) s = .next t ∧ t.env uid = none ∧
      (∀ x ∈ e.parts, ∀ f, s.inflight x.q x.first = some f → Completed x.q x.first t) ∧
      (e.status = .unguaranteed → ∀ slot b, (t.bolt p slot b).prot0 ≠ some uid ∧ (t.bolt p slot b).prot1 ≠ some uid) ∧
      SameBut (eventParts ++ [.inflight, .envelopes, .selvCounters]) s t)

/-- fn.epoch opens a fence, and its close swaps and counts versions. An fn.epoch starts its fence. While a command
that has started and not completed reads or writes a parameter region the fence stays open; then it closes: the
fn.epoch completes, every bolt in state TWO of the partition becomes ONE with its slots swapped, every bound entry
has version max(version, v + 1), and the entries' norm partials are cleared. A close whose step is stale changes no
version and counts a stale fence. (R124, R125, R129, R132) -/
def Obligations.EpochFences : Prop :=
  (∀ (q : QIdx) (pos : BitVec 32) (f : Inflight) (s : State), s.gate (isOp 0x64) q pos noReads = .go f →
    ∃ t, exec (.fnEpoch q pos) s = .next t ∧ t.inflight q pos = some { f with started := true, since := s.now } ∧
      OtherFlights q pos s t ∧ SameBut [.inflight] s t) ∧
  (∀ (q : QIdx) (pos : BitVec 32) (f : Inflight) (p : Nat) (u : State) (s : State),
    s.running (isOp 0x64) q pos = some f → p = partOfQ q → u = closeFence p (kpX f.word) s →
    (fenceClear s p = false → exec (.epochFenceClose q pos) s = .next s) ∧
    (fenceClear s p = true → ∃ t, exec (.epochFenceClose q pos) s = .next t ∧ Completed q pos t ∧
      OtherFlights q pos s t ∧ (∀ b, t.ver p b = u.ver p b) ∧
      (tabGet [] t.gab.maps p).map (fun e => (e.param, e.version)) =
        (tabGet [] u.gab.maps p).map (fun e => (e.param, e.version)) ∧
      (∀ e ∈ tabGet [] t.gab.maps p, e.grad = {} ∧ e.wgt = [] ∧ e.upd = []) ∧
      (∀ j, j ≠ p → tabGet [] t.gab.maps j = tabGet [] s.gab.maps j) ∧
      tabGet {} t.cnt.late p = tabGet {} u.cnt.late p ∧
      SameBut (eventParts ++ [.inflight, .gab, .lateCounters, .normRings, .staging]) s t)) ∧
  (∀ (p : Nat) (v : BitVec 32) (s : State),
    ((∀ e ∈ tabGet [] s.gab.maps p, e.wLen ≠ 0 → e.version ≤ v.toNat) →
      (∀ b, b < 2 ^ 36 → (closeFence p v s).ver p b =
        if (s.ver p b).two = true then { two := false, flip := ! (s.ver p b).flip } else s.ver p b) ∧
      tabGet [] (closeFence p v s).gab.maps p =
        (tabGet [] s.gab.maps p).map (fun e => { e with version := max e.version (v.toNat + 1) }) ∧
      SameBut [.gab, .bolts] s (closeFence p v s)) ∧
    (∀ e ∈ tabGet [] s.gab.maps p, e.wLen ≠ 0 → v.toNat < e.version →
      (tabGet {} (closeFence p v s).cnt.late p).staleFences = satAdd 12 (tabGet {} s.cnt.late p).staleFences 1 ∧
      SameBut [.lateCounters] s (closeFence p v s)))

/-- A matrix command that its checks reject. A matrix command that a check of R60 rejects, opcodes 0x15 to 0x1F among
them, writes no output: the tiles and flags of every array stand, its clamps are counted, the descriptors that its
checks read are placed and an unmapped one recorded, 0x0103 records its reason, and it completes. (R33, R60, R77, R206,
R210) -/
def Obligations.MatrixCommandsAreChecked : Prop :=
  ∀ (q : QIdx) (pos : BitVec 32) (errs : List ReadError) (f : Inflight) (x : MxCmd) (ids : List Nat) (r : Nat) (s : State),
    (x, ids) = mxClamp s (coreAcc f) (mxFields f.word) → r = mxReason s (partOfQ q) x (mxDescs s (coreAcc f) x) → r ≠ 0 →
    ∀ c ∈ [(Instr.mxMul q pos errs, 0x10), (.mxMac q pos errs, 0x11), (.mxZacc q pos, 0x12), (.mxSacc q pos errs, 0x13),
      (.mxLacc q pos errs, 0x14)] ++ (List.range 11).map (fun k => (Instr.mxMul q pos errs, 0x15 + k)), opcodeOf f.word = c.2 →
    s.inflight q pos = some f → s.mayStart f (mxReads f s) = true → s.isLate f (mxReads f s) = false →
    s.blocked (mxAccs f s) = false →
    let ds := descSpans s (partOfQ q) x.used
    let u := clampPart (partOfQ q) ids (startCmd f s)
    ∃ t, exec c.1 s = .next t ∧ Completed q pos t ∧ OtherFlights q pos s t ∧
      (∀ l, t.arr l = s.arr l ∨ t.arr l = { s.arr l with level := .full, request := none }) ∧
      t = markDone q pos (mxReject f r (if 4 < r then eventCmdUnmapped f 1 ds [] s (touchSpans (coreAcc f) ds u) else u)) ∧
      SameBut (eventParts ++ [.inflight, .arrays, .clampCounters]) s t

/-- mx.zacc, mx.lacc and products into an accumulator tile. mx.zacc leaves the selected accumulator tile all zero with
term count 0 and flag byte 0. mx.lacc gives it the elements of Cin converted to FP32, term count 1, and the overflow
flag only when a conversion saturates. mx.mul into a tile sets its term count to K and mx.mac adds K, up to 1,048,577,
mx.mac only adds bits to the flag byte, and each element becomes its product's value in FP32. Each leaves the other
accumulator tile and every other array as they are, and completes. Uncorrectable reads deliver their stored bits. (R56,
R57, R58, R83, R93) -/
def Obligations.AccumulatorTiles : Prop :=
  ∀ (q : QIdx) (pos : BitVec 32) (f : Inflight) (s : State) (x : MxCmd), x = (mxClamp s (coreAcc f) (mxFields f.word)).1 →
    mxReason s (partOfQ q) x (mxDescs s (coreAcc f) x) = 0 → s.inflight q pos = some f →
    s.mayStart f (mxReads f s) = true → s.isLate f (mxReads f s) = false → s.blocked (mxAccs f s) = false →
    (opcodeOf f.word = 0x12 → ∃ t, exec (.mxZacc q pos) s = .next t ∧ Completed q pos t ∧ OtherFlights q pos s t ∧
      (t.arr x.array).accTile x.accSel = {} ∧ (t.arr x.array).accTile (1 - x.accSel) = (s.arr x.array).accTile (1 - x.accSel) ∧
      (∀ r, (t.arr x.array).tile r = (s.arr x.array).tile r) ∧ OtherArrays x.array s t ∧
      SameBut [.inflight, .arrays, .clampCounters] s t) ∧
    (∀ errs c fc, opcodeOf f.word = 0x14 → (mxDescs s (coreAcc f) x).cin = some c → c.format = some fc →
      ∃ t, exec (.mxLacc q pos errs) s = .next t ∧ Completed q pos t ∧ OtherFlights q pos s t ∧
      ((t.arr x.array).accTile x.accSel).terms = 1 ∧
      (((t.arr x.array).accTile x.accSel).flag = 0#8 ∨ ((t.arr x.array).accTile x.accSel).flag = 1#8) ∧
      (((t.arr x.array).accTile x.accSel).flag = 1#8 ↔ ∃ i j, i < x.m ∧ j < x.n ∧
        (fl32 (c.value fc (rdByte s (arrayAcc f 1) errs) i j)).2 = true) ∧
      (∀ i j, i < x.m → j < x.n → ((t.arr x.array).accTile x.accSel).get i j =
        BitVec.ofNat 32 (encodeFmt .fp32 (fl32 (c.value fc (rdByte s (arrayAcc f 1) errs) i j)).1)) ∧
      (∀ i j, i < 256 → j < 256 → ¬ (i < x.m ∧ j < x.n) → ((t.arr x.array).accTile x.accSel).get i j = 0) ∧
      (t.arr x.array).accTile (1 - x.accSel) = (s.arr x.array).accTile (1 - x.accSel) ∧ OtherArrays x.array s t ∧
      (errs = [] → SameBut (eventParts ++ [.free, .inflight, .arrays, .clampCounters]) s t) ∧
      SameBut (partsOf (.mxLacc q pos errs)) s t) ∧
    (∀ errs da db fa fb, x.dst = 1 → (mxDescs s (coreAcc f) x).a = some da → (mxDescs s (coreAcc f) x).b = some db →
      da.format = some fa → db.format = some fb → ∀ c ∈ [(Instr.mxMul q pos errs, 0x10), (.mxMac q pos errs, 0x11)], opcodeOf f.word = c.2 →
      ∃ t, exec c.1 s = .next t ∧ Completed q pos t ∧ OtherFlights q pos s t ∧
      ((t.arr x.array).accTile x.accSel).terms =
        (if c.2 = 0x10 then x.k else min (((s.arr x.array).accTile x.accSel).terms + x.k) 1048577) ∧
      (c.2 = 0x11 → ((t.arr x.array).accTile x.accSel).flag &&& ((s.arr x.array).accTile x.accSel).flag =
        ((s.arr x.array).accTile x.accSel).flag) ∧
      (∀ i j, i < x.m → j < x.n → ((t.arr x.array).accTile x.accSel).get i j = BitVec.ofNat 32 (encodeFmt .fp32
        (fl32 (((joinTiles (mxProduct s f errs x (mxDescs s (coreAcc f) x) fa fb da db)).getD i []).getD j
          FVal.zero)).1)) ∧
      (t.arr x.array).accTile (1 - x.accSel) = (s.arr x.array).accTile (1 - x.accSel) ∧ OtherArrays x.array s t ∧
      SameBut (partsOf (.mxMul q pos errs)) s t)

/-- mx.mul and mx.mac into memory, mx.sacc, and contributions. An accepted command finds its operands placed and no byte
changed. mx.mul and mx.mac with dst_kind 0b00 and mx.sacc complete, and leave every array but their own as it is; with
no read error and no address outside every region, memory becomes what writing C leaves: the products, or the converted
accumulator tile, with the flag byte of each tile. mx.sacc leaves the accumulator tiles with their flags and term
counts. mx.mul and mx.mac with dst_kind 0b10 into a bound entry that holds them queue one contribution of their products
and wait for its bands; without such an entry they record 0x0443 and complete. (R54, R56, R58, R59, R92, R93, R112,
R135) -/
def Obligations.ProductsAndStores : Prop :=
  ∀ (q : QIdx) (pos : BitVec 32) (f : Inflight) (errs : List ReadError) (s u : State) (x : MxCmd) (d : MxDescs),
    x = (mxClamp s (coreAcc f) (mxFields f.word)).1 → d = mxDescs s (coreAcc f) x → mxReason s (partOfQ q) x d = 0 →
    s.inflight q pos = some f → s.mayStart f (mxReads f s) = true → s.isLate f (mxReads f s) = false →
    s.blocked (mxAccs f s) = false → u = mxOperands f (startCmd f s) →
    let mapped : Prop := s.firstUnmapped (partOfQ q) (descSpans s (partOfQ q) x.used) = none ∧
      s.firstUnmapped (partOfQ q) (mxSpans x d ++ mxDests x d) = none
    (∀ a dva, u.readByte a dva = s.readByte a dva) ∧
    (∀ dc da db fa fb, x.dst = 0 → d.c = some dc → d.a = some da → d.b = some db → da.format = some fa → db.format = some fb →
      ∀ c ∈ [(Instr.mxMul q pos errs, 0x10), (.mxMac q pos errs, 0x11)], opcodeOf f.word = c.2 →
      let g := mxProduct s f errs x d fa fb da db
      let ovf (i j : Nat) : Bool := ((((g.getD i [])[j]?).map (fun t => t.ovf)).getD false) || cinSaturates s f errs x d i j
      ∃ t, exec c.1 s = .next t ∧ Completed q pos t ∧ OtherFlights q pos s t ∧ OtherArrays x.array s t ∧
        (errs = [] → mapped → t.mem.bytes = (writeC f x dc (joinTiles g) (fun i j => flagByte (ovf i j) false) u).mem.bytes) ∧
        SameBut (partsOf (.mxMul q pos errs)) s t) ∧
    (∀ dc, opcodeOf f.word = 0x13 → d.c = some dc →
      let a := (s.arr x.array).accTile x.accSel
      ∃ t, exec (.mxSacc q pos errs) s = .next t ∧ Completed q pos t ∧ OtherFlights q pos s t ∧ OtherArrays x.array s t ∧
        (∀ k, (t.arr x.array).accTile k = (s.arr x.array).accTile k) ∧
        (∀ r, r < 4 → (t.arr x.array).tile r = (s.arr x.array).tile r) ∧
        (errs = [] → mapped → t.mem.bytes = (writeC f x dc ((List.range x.m).map (fun i =>
          (List.range x.n).map (fun j => ofFp32 (a.get i j)))) (fun _ _ => a.flag) u).mem.bytes) ∧
        (errs = [] → SameBut (eventParts ++ [.free, .inflight, .arrays, .gab, .clampCounters]) s t) ∧
        SameBut (partsOf (.mxSacc q pos errs)) s t) ∧
    (∀ da db fa fb, x.dst = 2 → d.a = some da → d.b = some db → da.format = some fa → db.format = some fb →
      ∀ c ∈ [(Instr.mxMul q pos errs, 0x10), (.mxMac q pos errs, 0x11)], opcodeOf f.word = c.2 →
      let holds (e : GabEntry) : Prop := x.origin / 2 ^ 24 + x.m ≤ e.rows ∧ x.origin % 2 ^ 24 + x.n ≤ e.cols
      (∀ e, s.gabEntry (partOfQ q) x.descC = some e → holds e → ∃ t k, exec c.1 s = .next t ∧
        t.gab.contribs = s.gab.contribs ++ [k] ∧ k.q = q.val ∧ k.pos = pos ∧ k.ord = f.ord ∧ k.part = partOfQ q ∧
        k.param = x.descC ∧ k.seq = (x.tensor.extractLsb' 0 16).toNat ∧ k.k = x.k ∧
        k.row0 = x.origin / 2 ^ 24 ∧ k.col0 = x.origin % 2 ^ 24 ∧ k.rows = x.m ∧ k.cols = x.n ∧ k.discarded = false ∧
        k.vals = ((joinTiles (mxProduct s f errs x d fa fb da db)).flatten).map packVal ∧
        (∃ g, t.inflight q pos = some g ∧ g.started = true ∧ g.done = false) ∧ OtherFlights q pos s t ∧
        OtherArrays x.array s t ∧ SameBut (partsOf (.mxMul q pos errs)) s t) ∧
      ((∀ e, s.gabEntry (partOfQ q) x.descC = some e → ¬ holds e) → ∃ t, exec c.1 s = .next t ∧ Completed q pos t ∧
        OtherFlights q pos s t ∧ OtherArrays x.array s t ∧ t.gab.contribs = s.gab.contribs ∧
        SameBut (partsOf (.mxMul q pos errs)) s t))

/-- Register-to-register vector instructions run or are rejected. Each register-to-register vector instruction
completes when its turn comes and changes no array but the one it names. With no reason to reject it, that array keeps
its accumulator tiles and tile registers other than the destination (and, for vx.cvt, the scale operand), and its
vector flag byte and accumulator flag bytes only gain bits; rejected, an instruction of unlisted opcode or fn among
them, 0x0201 records the reason, and the tiles and flags of every array stand. (R137, R138, R140, R141, R143, R154) -/
def Obligations.VectorInstructionsRun : Prop :=
  ∀ (q : QIdx) (pos : BitVec 32) (f : Inflight) (errs : List ReadError) (s : State) (x : VxCmd), x = vxFields f.word →
    s.inflight q pos = some f → s.mayStart f [] = true → s.isLate f [] = false →
    let rejects (t : State) (r : Nat) : Prop := (∀ l, t.arr l = s.arr l ∨ t.arr l = { s.arr l with level := .full, request := none }) ∧
      SameBut (eventParts ++ [.inflight, .arrays, .clampCounters]) s t ∧
      t = markDone q pos (vxReject f r (if r = 1 then startCmd f s
        else clampPart (partOfQ q) (vxClamp s (partOfQ q) x).ids (startCmd f s)))
    (vxUnlisted f.word = true → ∃ t, exec (.vxAdd q pos errs) s = .next t ∧ Completed q pos t ∧ OtherFlights q pos s t ∧
      rejects t 1) ∧
    ∀ c ∈ [(Instr.vxAdd q pos errs, 0x20, [0]), (.vxSub q pos errs, 0x20, [1]), (.vxMul q pos errs, 0x20, [2]),
      (.vxFma q pos errs, 0x20, [3]), (.vxMax q pos errs, 0x20, [4]), (.vxMin q pos errs, 0x20, [5]),
      (.vxAbs q pos errs, 0x20, [6]), (.vxNeg q pos errs, 0x20, [7]), (.vxMov q pos errs, 0x20, [8]),
      (.vxSel q pos errs, 0x20, [9]), (.vxCeq q pos errs, 0x21, [0]), (.vxClt q pos errs, 0x21, [1]),
      (.vxCle q pos errs, 0x21, [2]), (.vxCgt q pos errs, 0x21, [3]), (.vxCge q pos errs, 0x21, [4]),
      (.vxCun q pos errs, 0x21, [5]), (.vxCvt q pos errs, 0x22, [0]), (.vxExp q pos errs, 0x23, [0]),
      (.vxLog q pos errs, 0x23, [1]), (.vxRcp q pos errs, 0x23, [2]), (.vxRsqrt q pos errs, 0x23, [3]),
      (.vxTanh q pos errs, 0x23, [4]), (.vxRsum q pos errs, 0x24, [0, 0x20]),
      (.vxRsumsq q pos errs, 0x24, [1, 0x21]), (.vxRmax q pos errs, 0x24, [2]), (.vxRmin q pos errs, 0x24, [3]),
      (.vxRmv q pos errs, 0x24, [4, 0x14, 0x24, 0x34]), (.vxPerm q pos errs, 0x25, [0]),
      (.vxCompress q pos errs, 0x25, [1]), (.vxExpand q pos errs, 0x25, [2])],
      opcodeOf f.word = c.2.1 → fld f.word 40 6 ∈ c.2.2 →
    ∃ t, exec c.1 s = .next t ∧ Completed q pos t ∧ OtherFlights q pos s t ∧ OtherArrays x.array s t ∧
      (vxReason s (partOfQ q) x = 0 →
        (errs = [] → SameBut [.inflight, .arrays, .clampCounters] s t) ∧ SameBut (partsOf (.vxAdd q pos errs)) s t ∧
        (∀ r, r ≠ (vop x.dst).reg → (c.2.1 = 0x22 → r ≠ (vop x.srcc).reg) →
          (t.arr x.array).tile r = (s.arr x.array).tile r) ∧
        ((vop x.dst).isTile = true → ∀ k, (t.arr x.array).accTile k = (s.arr x.array).accTile k) ∧
        (∀ k, ((t.arr x.array).accTile k).flag &&& ((s.arr x.array).accTile k).flag = ((s.arr x.array).accTile k).flag) ∧
        (t.arr x.array).vflag &&& (s.arr x.array).vflag = (s.arr x.array).vflag) ∧
      (vxReason s (partOfQ q) x ≠ 0 → rejects t (vxReason s (partOfQ q) x))

/-- What each vector instruction computes. Each register-to-register vector instruction that is not rejected gives its
array what its operation of R140 makes of the array, vector by vector: element-wise sums, differences, products, fused
products, larger and smaller values, absolute values, negations, moves and the five special functions; comparisons;
conversion; selection; row reductions; permutation, compress and expand. A recorded overflow sets a flag of the
destination beside. The array stands at full current and asks for no step. (R66, R140, R145, R146, R148, R149) -/
def Obligations.VectorOperations : Prop :=
  ∀ (q : QIdx) (pos : BitVec 32) (f : Inflight) (errs : List ReadError) (s : State) (run : VxRun), s.inflight q pos = some f →
    s.mayStart f [] = true → s.isLate f [] = false → vxReason s (partOfQ q) (vxFields f.word) = 0 →
    run = { x := vxFields f.word, c := vxClamp s (partOfQ q) (vxFields f.word), f := f, compat := (s.part (partOfQ q)).vecMode } →
    ∀ c ∈ [(Instr.vxAdd q pos errs, 0x20, [0], run.elementwise (fun a b _ => a.add b)),
      (.vxSub q pos errs, 0x20, [1], run.elementwise (fun a b _ => a.sub b)),
      (.vxMul q pos errs, 0x20, [2], run.elementwise (fun a b _ => a.mul b)),
      (.vxFma q pos errs, 0x20, [3], run.elementwise (fun a b c => (a.mul b).add c)),
      (.vxMax q pos errs, 0x20, [4], run.elementwise (fun a b _ => vmax a b)),
      (.vxMin q pos errs, 0x20, [5], run.elementwise (fun a b _ => vmin a b)),
      (.vxAbs q pos errs, 0x20, [6], run.elementwise (fun a _ _ => a.abs)),
      (.vxNeg q pos errs, 0x20, [7], run.elementwise (fun a _ _ => a.neg)),
      (.vxMov q pos errs, 0x20, [8], run.elementwise (fun a _ _ => a)), (.vxSel q pos errs, 0x20, [9], run.select),
      (.vxCeq q pos errs, 0x21, [0], run.compare FVal.eqv), (.vxClt q pos errs, 0x21, [1], run.compare FVal.lt),
      (.vxCle q pos errs, 0x21, [2], run.compare (fun a b => a.lt b || a.eqv b)),
      (.vxCgt q pos errs, 0x21, [3], run.compare (fun a b => b.lt a)),
      (.vxCge q pos errs, 0x21, [4], run.compare (fun a b => b.lt a || a.eqv b)),
      (.vxCun q pos errs, 0x21, [5], run.compare (fun a b => a.isNan || b.isNan)), (.vxCvt q pos errs, 0x22, [0], run.convert),
      (.vxExp q pos errs, 0x23, [0], run.elementwise (fun a _ _ => vExp a)),
      (.vxLog q pos errs, 0x23, [1], run.elementwise (fun a _ _ => vLog a)),
      (.vxRcp q pos errs, 0x23, [2], run.elementwise (fun a _ _ => vRcp a)),
      (.vxRsqrt q pos errs, 0x23, [3], run.elementwise (fun a _ _ => vRsqrt a)),
      (.vxTanh q pos errs, 0x23, [4], run.elementwise (fun a _ _ => vTanh a)), (.vxRsum q pos errs, 0x24, [0, 0x20], run.rsum id),
      (.vxRsumsq q pos errs, 0x24, [1, 0x21], run.rsum (fun x => x.mul x)), (.vxRmax q pos errs, 0x24, [2], run.rpick vmax),
      (.vxRmin q pos errs, 0x24, [3], run.rpick vmin), (.vxRmv q pos errs, 0x24, [4, 0x14, 0x24, 0x34], run.rmv),
      (.vxPerm q pos errs, 0x25, [0], run.perm), (.vxCompress q pos errs, 0x25, [1], run.compress (s.packLanes (partOfQ q))),
      (.vxExpand q pos errs, 0x25, [2], run.expand (s.packLanes (partOfQ q)))],
    opcodeOf f.word = c.2.1 → fld f.word 40 6 ∈ c.2.2.1 →
    ∃ t o, exec c.1 s = .next t ∧ Completed q pos t ∧ OtherArrays run.x.array s t ∧
      o = c.2.2.2 { s.arr run.x.array with level := .full, request := none } (vxVectors s (partOfQ q) run.x run.c) ∧
      (o.ovf = false → t.arr run.x.array = o.a) ∧
      (o.ovf = true → (vop run.x.dst).isTile = true → t.arr run.x.array = { o.a with vflag := o.a.vflag ||| 1#8 }) ∧
      (o.ovf = true → (vop run.x.dst).isTile = false → t.arr run.x.array =
        o.a.setAcc ((vop run.x.dst).reg - 6) { o.a.accTile ((vop run.x.dst).reg - 6) with
          flag := (o.a.accTile ((vop run.x.dst).reg - 6)).flag ||| 1#8 })

/-- The lanes of one element-wise or compared vector. Running an element-wise operation over one vector of at most 256
lanes into a tile register in FP32, BF16 or FP16 leaves in each active lane below vl the operation's value of the
source lanes, rounded once to FP32 and converted to the destination format; an inactive lane, or one at or above vl,
keeps its code, or becomes 0 when it lies below vl and zero_masked is set. A comparison of one vector writes all 256
bits of its mask: the outcome in an active lane below vl, 0 elsewhere. (R136, R140, R142, R145, R146) -/
def Obligations.LanesOfOneVector : Prop :=
  ∀ (r : VxRun) (a : ArrayL) (vl : Nat), vl ≤ 256 → (vop r.x.dst).isTile = true →
    (∀ op, r.x.fmtD = 7 ∨ r.x.fmtD = 8 ∨ r.x.fmtD = 9 → ∀ i, i < 256 →
      vcode (r.elementwise op a [vl]).a (vop r.x.dst) (fmtD r.x.fmtD) 0 i =
        if i < vl ∧ r.active a 0 i = true then
          (r.result 0 i (op (laneVal a r.x.srca r.x.fmtA 0 i)
            (if r.x.usesB then srcVal a a r.x.bcastB r.x.srcb r.x.fmtB 0 i else FVal.zero)
            (if r.x.usesC then srcVal a a r.x.bcastC r.x.srcc r.x.fmtB 0 i else FVal.zero))).code % 2 ^ (fmtD r.x.fmtD).width
        else if i < vl ∧ r.x.zeroMasked = true then 0
        else vcode a (vop r.x.dst) (fmtD r.x.fmtD) 0 i) ∧
    (∀ op i, i < 256 → maskBit (r.compare op a [vl]).a (vop r.x.dst) 0 i =
      (decide (i < vl) && r.active a 0 i &&
        op (laneVal a r.x.srca r.x.fmtA 0 i) (srcVal a a r.x.bcastB r.x.srcb r.x.fmtB 0 i)))

/-- vx.ld, vx.st and vx.stf. A vx.ld that is not rejected completes with the bytes of its vectors in the destination
operand, those of an uncorrectable read as its stored bits, and changes no other array. A vx.st completes and changes no
tile of an array; one whose addresses all lie in regions leaves the memory that writing the vectors' bytes leaves. A
vx.stf writes the vector flag byte at its address and clears it. (R156, R157, R210, R228) -/
def Obligations.VectorLoadsAndStores : Prop :=
  ∀ (q : QIdx) (pos : BitVec 32) (f : Inflight) (errs : List ReadError) (s : State) (x : VxCmd) (c : VxClamped) (a0 : ArrayL),
    x = vxFields f.word → c = vxClamp s (partOfQ q) x → a0 = { s.arr x.array with level := .full, request := none } →
    s.inflight q pos = some f → vxReason s (partOfQ q) x = 0 → opcodeOf f.word = 0x26 → s.isLate f [] = false →
    let u := clampPart (partOfQ q) c.ids (startCmd f s)
    (fld f.word 40 6 = 0 → s.mayStart f (vxLdReads f s) = true → s.isLate f (vxLdReads f s) = false →
      s.blocked (readsOf (arrayAcc f 2) (vxLdReads f s)) = false →
      ∃ t, exec (.vxLd q pos errs) s = .next t ∧ Completed q pos t ∧ OtherFlights q pos s t ∧ OtherArrays x.array s t ∧
        t.arr x.array = ((vxSpans x x.fmtD (vxVectors s (partOfQ q) x c)).zipIdx).foldl
          (fun l d => putVector (vop x.dst) (fmtD x.fmtD) d.2
            ((List.range d.1.2).map (fun i => rdByte s (arrayAcc f 2) errs (d.1.1 + i))) l) a0 ∧
        (errs = [] → SameBut (eventParts ++ [.inflight, .arrays, .clampCounters]) s t) ∧
        SameBut (partsOf (.vxLd q pos errs)) s t) ∧
    (fld f.word 40 6 = 1 → s.mayStart f [] = true → s.blocked (vxStWrites f s) = false →
      ∃ t, exec (.vxSt q pos errs) s = .next t ∧ Completed q pos t ∧ OtherFlights q pos s t ∧
      OtherArrays x.array s t ∧ t.arr x.array = a0 ∧
      (errs = [] → SameBut (eventParts ++ [.inflight, .arrays, .gab, .clampCounters]) s t) ∧
      SameBut (partsOf (.vxSt q pos errs)) s t ∧
      (errs = [] → s.firstUnmapped (partOfQ q) (vxSpans x x.fmtA (vxVectors s (partOfQ q) x c)) = none →
        t.mem = (cmdWrites (arrayAcc f 2) (((vxSpans x x.fmtA (vxVectors s (partOfQ q) x c)).zipIdx).map
          (fun r => (r.1.1, getVector (vop x.srca) (fmtD x.fmtA) r.2 r.1.2 (s.arr x.array)))) u).mem)) ∧
    (fld f.word 40 6 = 2 → s.mayStart f [] = true → s.blocked (vxStWrites f s) = false →
      ∃ t, exec (.vxStf q pos errs) s = .next t ∧ Completed q pos t ∧
      OtherFlights q pos s t ∧ OtherArrays x.array s t ∧ (t.arr x.array) = { a0 with vflag := 0#8 } ∧
      (errs = [] → SameBut (eventParts ++ [.inflight, .arrays, .gab, .clampCounters]) s t) ∧
      SameBut (partsOf (.vxStf q pos errs)) s t ∧
      (errs = [] → s.unmappedIn (partOfQ q) x.dva 1 = none →
        t.mem = (cmdWrite (arrayAcc f 2) x.dva [(s.arr x.array).vflag] u).mem))

/-- Tier commands are refused, or move and copy bolts. A tier command 0x30 to 0x37 that a check of R205 refuses
changes nothing else: 0x0402 records its opcode and reason, and it completes. A tx.move, tx.fetch or tx.spill of one
bolt outside an envelope, whose source tier holds a copy and whose destination can take one, leaves a copy in the
destination, leaves none in the source when the region is single-home, and changes no byte of memory; one that takes a
single-home bolt into or out of T2 starts the bolt's migration and completes when that has ended. A command whose
range migrates waits, and so does a transfer whose claim only bolts in flight could make room for; any other transfer that
no check refuses does its work in the step that finds no victim's record and no throttled channel to wait for. (R201, R205, R207, R211, R212, R213, R215, R217, R242, R250) -/
def Obligations.TierTransfers : Prop :=
  ∀ (q : QIdx) (pos : BitVec 32) (f : Inflight) (s : State) (x : TxCmd) (p : Nat), x = txFields f.word → p = partOfQ q →
    s.inflight q pos = some f → s.mayStart f [] = true → s.isLate f [] = false →
    (∀ errs, ∀ c ∈ [(Instr.txMove q pos errs, 0x30), (.txFetch q pos errs, 0x31), (.txSpill q pos errs, 0x32),
        (.txPin q pos, 0x33), (.txUnpin q pos, 0x34), (.txAttr q pos, 0x35), (.txMap q pos, 0x36),
        (.txUnmap q pos, 0x37)], x.op = c.2 →
      (txWaits s p x.op x.dva x.len = true → exec c.1 s = .next s) ∧
      (txWaits s p x.op x.dva x.len = false → txReason s p x ≠ 0 →
        ∃ t, exec c.1 s = .next t ∧ t = markDone q pos (txRefuse f (txReason s p x) (markStarted q pos s)) ∧
          Completed q pos t ∧ OtherFlights q pos s t ∧ SameBut (eventParts ++ [.inflight]) s t)) ∧
    (∀ r src dst b sl, txWaits s p x.op x.dva x.len = false → txReason s p x = 0 → s.regionOf p x.dva x.len = some r →
      tierOf x.src = some src → tierOf x.dst = some dst → x.dva = b * 65536 → x.len = 65536 → f.env = none →
      sl = s.readSlot (coreAcc f) x.dva → (s.bolt p sl b).has src = true → (s.bolt p sl b).has dst = false →
      ¬ (r.single = true ∧ r.pinOf b = some src) →
      (dst = r.floor ∨ (tierRank dst < tierRank r.floor ∧ s.totalHeld dst < s.capacity dst)) →
      (dst = .t2 → ∀ ch, ch < 16 → s.throttles ch = false) → s.moving q pos = false →
      ∀ c ∈ [(Instr.txMove q pos [], 0x30), (.txFetch q pos [], 0x31), (.txSpill q pos [], 0x32)], x.op = c.2 →
      ((r.single = true → src ≠ .t2 ∧ dst ≠ .t2) → ∃ t, exec c.1 s = .next t ∧ Completed q pos t ∧ OtherFlights q pos s t ∧
        (t.bolt p sl b).has dst = true ∧ (r.single = true → (t.bolt p sl b).has src = false) ∧
        SameBut [.inflight, .bolts, .flash] s t) ∧
      (r.single = true → (src = .t2 ∨ dst = .t2) → ∃ t, exec c.1 s = .next t ∧
        t.inflight q pos = some { f with started := true, since := s.now } ∧ OtherFlights q pos s t ∧
        t.moving q pos = true ∧ t.migrating p sl b = true ∧ t.bolt p sl b = s.bolt p sl b ∧
        SameBut [.inflight, .bolts, .checkpoints, .journal] s t)) ∧
    (∀ errs u t, txWaits s p x.op x.dva x.len = false → txReason s p x = 0 →
      (claimWaits s p x = true → ∀ c ∈ [(Instr.txMove q pos errs, 0x30), (.txFetch q pos errs, 0x31),
        (.txSpill q pos errs, 0x32)], x.op = c.2 → exec c.1 s = .next s) ∧
      (claimWaits s p x = false → u = meetErrors { coreAcc f with agent := 10 } errs (doTransfer f x) (startCmd f s) →
        t = (if u.moving q pos then u else markDone q pos u) →
        ∀ c ∈ [(Instr.txMove q pos errs, 0x30), (.txFetch q pos errs, 0x31), (.txSpill q pos errs, 0x32)], x.op = c.2 →
        (homesIn s t = [] → wroteThrottled s t = false → exec c.1 s = .next t ∧ OtherFlights q pos s t ∧
          (u.moving q pos = false → Completed q pos t) ∧ SameBut (partsOf c.1) s t) ∧
        (homesIn s t ≠ [] ∨ wroteThrottled s t = true → exec c.1 s = .next (beginHomes s t))))

/-- tx.map, tx.unmap, tx.attr, tx.pin and tx.unpin. A tx.map that is not refused adds its region, in order of base,
with its attributes. A tx.unmap removes its region and leaves every bolt of it a zero bolt. A tx.attr gives its region
the park and run-ahead attributes. After a tx.pin of a range every page of the range is pinned in the tier named;
after a tx.unpin none is pinned. Each completes, and no region of another partition changes; a tx.map or tx.pin does so
in the step that finds no HOME record of a victim and no throttled channel to wait for. (R198, R202, R203, R213, R217,
R242) -/
def Obligations.RegionCommands : Prop :=
  ∀ (q : QIdx) (pos : BitVec 32) (f : Inflight) (s : State) (x : TxCmd) (p : Nat) (m : State), x = txFields f.word →
    p = partOfQ q → m = markStarted q pos s → s.inflight q pos = some f → s.mayStart f [] = true →
    s.isLate f [] = false → txWaits s p x.op x.dva x.len = false → txReason s p x = 0 →
    (x.op = 0x36 → homesIn s (doMap p x m) = [] → wroteThrottled s (doMap p x m) = false →
      ∃ t fl, exec (.txMap q pos) s = .next t ∧ t = markDone q pos (doMap p x m) ∧ tierOf (attrOf x.attr).floor = some fl ∧
      t.regions p = (s.regions p).filter (fun y => decide (y.base < x.dva)) ++
        [{ base := x.dva, len := x.len, floor := fl, pin := (attrOf x.attr).pinTier, single := (attrOf x.attr).single,
           park := (attrOf x.attr).park, runahead := (attrOf x.attr).runahead, twoVer := (attrOf x.attr).two,
           pins := pinsOf x.len (attrOf x.attr).pinTier }] ++ (s.regions p).filter (fun y => decide (x.dva < y.base)) ∧
      Completed q pos t ∧ OtherFlights q pos s t ∧ (∀ j, j ≠ p → t.regions j = s.regions j) ∧
      SameBut [.inflight, .regions, .bolts, .flash, .journal] s t) ∧
    (∀ r, x.op = 0x37 → s.regionExact p x.dva x.len = some r → ∃ t, exec (.txUnmap q pos) s = .next t ∧
      t.regions p = (s.regions p).filter (fun y => y.base != x.dva) ∧
      (∀ b ∈ boltsOf x.dva x.len, ∀ sl, sl < 2 → (t.bolt p sl b).isZero = true ∧ t.ver p b = {}) ∧
      Completed q pos t ∧ OtherFlights q pos s t ∧ (∀ j, j ≠ p → t.regions j = s.regions j) ∧
      SameBut [.inflight, .regions, .bolts, .bytes, .flash] s t) ∧
    (x.op = 0x35 → ∃ t, exec (.txAttr q pos) s = .next t ∧
      t.regions p = (s.regions p).map (fun r => if r.base = x.dva then
        { r with park := (attrOf x.attr).park, runahead := (attrOf x.attr).runahead } else r) ∧
      Completed q pos t ∧ OtherFlights q pos s t ∧ (∀ j, j ≠ p → t.regions j = s.regions j) ∧
      SameBut [.inflight, .regions] s t) ∧
    (∀ r tier b, s.regionOf p x.dva x.len = some r → r.base % 2097152 = 0 → x.dva ≤ b * 65536 →
      b * 65536 < x.dva + x.len → s.regionAt p (b * 65536) = some r →
      (x.op = 0x33 → tierOf x.dst = some tier → homesIn s (doPin p x m) = [] → wroteThrottled s (doPin p x m) = false →
        ∃ t, exec (.txPin q pos) s = .next t ∧ t = markDone q pos (doPin p x m) ∧ Completed q pos t ∧
        OtherFlights q pos s t ∧
        (∃ r2, t.regionAt p (b * 65536) = some r2 ∧ r2.base = r.base ∧ r2.len = r.len ∧ r2.pinOf b = some tier) ∧
        (∀ j, j ≠ p → t.regions j = s.regions j) ∧ SameBut [.inflight, .regions, .bolts, .flash, .journal] s t) ∧
      (x.op = 0x34 → ∃ t, exec (.txUnpin q pos) s = .next t ∧ Completed q pos t ∧ OtherFlights q pos s t ∧
        (∃ r2, t.regionAt p (b * 65536) = some r2 ∧ r2.base = r.base ∧ r2.len = r.len ∧ r2.pinOf b = none) ∧
        (∀ j, j ≠ p → t.regions j = s.regions j) ∧ SameBut [.inflight, .regions] s t))

/-- tx.ckpt, tx.restore and tx.ckdrop. A tx.ckpt that no check refuses starts a commit of its slot with the slot's
next generation and issues the BEGIN record; it completes when the commit ends. A tx.restore that no check refuses
begins, showing as phase 4 with no bolt placed, and completes at once when the checkpoint has none; from then on it
places the next bolt of the checkpoint, whose bytes then stand in the target bolt, and completes with the last. A
tx.ckdrop that no check refuses leaves its slot without a checkpoint and every other slot as it is. A refused one
records 0x0402 and completes; opcodes 0x3B and 0x3C are refused with reason 0x0B. (R243, R244, R245, R247, R248, R257)
-/
def Obligations.CheckpointCommands : Prop :=
  ∀ (q : QIdx) (pos : BitVec 32) (f : Inflight) (s : State) (x : TxCmd) (p : Nat) (m : State), x = txFields f.word →
    p = partOfQ q → m = markStarted q pos s → s.inflight q pos = some f →
    (∀ errs, x.op = 0x38 → s.mayStart f (ckptReads f s) = true → s.isLate f (ckptReads f s) = false → ckptReason s f = 0 →
      ∃ t c, exec (.txCkpt q pos errs) s = .next t ∧
      t.nvt.commits = s.nvt.commits ++ [c] ∧ c.part = p ∧ c.slot = x.slot ∧ c.q = q.val ∧ c.pos = pos ∧ c.begun = false ∧
      c.image.gen = tabGet 0 s.nvt.gens (p * 16 + x.slot) + 1 ∧ c.image.step = f.step.toNat ∧ c.image.tag = x.tag ∧
      t.nvt.ckpts = s.nvt.ckpts ∧ t.inflight q pos = some { f with started := true, since := s.now } ∧
      OtherFlights q pos s t ∧ SameBut (partsOf (.txCkpt q pos errs)) s t ∧
      (errs = [] → t.nvt.journal = s.nvt.journal ++ [.begin_ p] ∧ SameBut [.inflight, .checkpoints, .journal] s t)) ∧
    (∀ errs c u, x.op = 0x39 → s.mayStart f [] = true → s.isLate f [] = false → ckptReason s f = 0 → s.commit p = none →
      s.ckpt p x.slot = some c → u = beginRestore f m → homesIn s u = [] → wroteThrottled s u = false →
      ∃ t, exec (.txRestore q pos errs) s = .next t ∧ t.nvt.ckpts = s.nvt.ckpts ∧ OtherFlights q pos s t ∧
        SameBut [.inflight, .regions, .bolts, .flash, .checkpoints, .journal] s t ∧
        (c.bolts = [] → Completed q pos t ∧ t.commit p = none) ∧
        (c.bolts ≠ [] → t.inflight q pos = some { f with started := true, since := s.now } ∧ ∃ k, t.commit p = some k ∧
          k.phase = 4 ∧ k.slot = x.slot ∧ k.bolts = 0 ∧ k.image = c)) ∧
    (∀ c k dst u, x.op = 0x39 → f.started = true → f.done = false → s.commit p = some c →
      (restoreTargets x c.image)[c.bolts]? = some k → tierOf x.dst = some dst →
      u = restoreBolt (ckptAcc f) dst k.1 k.2 (if k.2.nonzero then
        ftlReadPages (fun g => g.part == p && g.origin == c.slot + 1 && g.bolt == k.2.bolt) s else s) →
      (rangeBusy s p (k.1 * 65536) 65536 = true → ∀ errs, exec (.txRestore q pos errs) s = .next s) ∧
      (rangeBusy s p (k.1 * 65536) 65536 = false → homesIn s u = [] → wroteThrottled s u = false →
        ∃ t, exec (.txRestore q pos []) s = .next t ∧ OtherFlights q pos s t ∧ t.nvt.ckpts = s.nvt.ckpts ∧
          (c.image.bolts.length ≤ c.bolts + 1 → Completed q pos t ∧ t.commit p = none) ∧
          (c.bolts + 1 < c.image.bolts.length → ∃ y, t.commit p = some y ∧ y.phase = c.phase ∧ y.slot = c.slot ∧
            y.image = c.image ∧ y.bolts = c.bolts + 1) ∧
          (∀ r, r.twoVer = false → (∀ i, i < 65536 → s.regionAt p (k.1 * 65536 + i) = some r) →
            k.2.bytes.Pairwise (fun y z => y.1 < z.1) → (∀ y ∈ k.2.bytes, y.1 < 65536) → (k.1 + 1) * 65536 ≤ 2 ^ 52 →
            ∀ i, i < 65536 → rawByte t.mem.bytes (byteKey p 0 (k.1 * 65536 + i)) = tabGet 0#8 k.2.bytes i) ∧
          SameBut [.inflight, .bolts, .bytes, .gab, .flash, .checkpoints, .journal] s t)) ∧
    (x.op = 0x3A → s.mayStart f [] = true → s.isLate f [] = false → ckptReason s f = 0 →
      ∃ t, exec (.txCkdrop q pos) s = .next t ∧
      Completed q pos t ∧ OtherFlights q pos s t ∧ t.ckpt p x.slot = none ∧
      (∀ i j, ¬ (i * 16 + j = p * 16 + x.slot) → t.ckpt i j = s.ckpt i j) ∧
      SameBut [.inflight, .flash, .checkpoints] s t) ∧
    (∀ errs, s.mayStart f [] = true → s.isLate f [] = false → ckptReason s f ≠ 0 →
      ∀ c ∈ [(Instr.txCkpt q pos errs, 0x38), (.txRestore q pos errs, 0x39), (.txCkdrop q pos, 0x3A), (.txCkdrop q pos, 0x3B),
        (.txCkdrop q pos, 0x3C)], x.op = c.2 → (0x3A < x.op → ckptReason s f = 0xB) ∧
      ∃ t, exec c.1 s = .next t ∧ t = markDone q pos (txRefuse f (ckptReason s f) m) ∧ Completed q pos t ∧
        OtherFlights q pos s t)

/-- tx.gbind, tx.gzero and tx.gflush. A tx.gbind replaces its partition's map by the entries that its map binds,
entries of distinct parameters, all at zero and at the version of its step, and leaves every bolt version of the
partition in state ONE. A tx.gzero sets the entry it names, or every entry, to zero headers and elements, clears its
gradient partial and keeps its binding; one that names no entry records 0x0443. A tx.gflush without a destination does
nothing but record 0x0443; one whose bands have reached the awaited number writes its tensor and completes, one that
waits stays started, and one that waits beyond 10 ms records 0x0442 and writes and completes. With zero_after a flush
zeroes its entry after it has written, waiting as tx.gzero waits. (R111, R118, R119, R121, R124, R126, R135) -/
def Obligations.GabCommands : Prop :=
  ∀ (q : QIdx) (pos : BitVec 32) (f : Inflight) (s : State) (p : Nat) (m : State) (x : GbCmd), p = partOfQ q →
    m = markStarted q pos s → x = flushCmd f → s.inflight q pos = some f →
    (∀ rd errs, rd = [(fld f.word 64 52, 32 * fld f.word 48 16)] → opcodeOf f.word = 0x3D →
      s.earlierOpen f (fun w => (gabParam w).isSome) = false → s.advancing f none = false → s.mayStart f rd = true →
      s.isLate f rd = false → s.blocked (readsOf (coreAcc f) (bindSpans f s)) = false →
      ∃ t, exec (.txGbind q pos errs) s = .next t ∧ Completed q pos t ∧ OtherFlights q pos s t ∧
      (∀ e ∈ tabGet [] t.gab.maps p, e.version = f.step.toNat ∧ e.bands = [] ∧ e.elems = [] ∧ e.grad = {} ∧ e.wgt = [] ∧
        e.upd = [] ∧ 0 < e.rows ∧ 0 < e.cols) ∧
      ((tabGet [] t.gab.maps p).map (fun e => e.param)).Nodup ∧
      (∀ b, b < 2 ^ 36 → (t.ver p b).two = false) ∧ SameBut (partsOf (.txGbind q pos errs)) s t ∧
      (errs = [] → tabGet [] t.gab.maps p =
          ((List.range (fld f.word 48 16)).foldl (bindOne f s (fld f.word 64 52)) ([], { bound := [], used := 0 })).2.bound ∧
        (∀ j, j ≠ p → tabGet [] t.gab.maps j = tabGet [] s.gab.maps j) ∧
        SameBut (eventParts ++ [.free, .inflight, .gab]) s t)) ∧
    (opcodeOf f.word = 0x3E → s.mayStart f [] = true → s.isLate f [] = false →
      s.addsBefore f (if x.zeroAfter then none else some x.param) = false →
      (∀ e, x.zeroAfter = false → s.gabEntry p x.param = some e → ∃ t, exec (.txGzero q pos) s = .next t ∧
        Completed q pos t ∧ OtherFlights q pos s t ∧
        t.gabEntry p e.param = some { e with bands := [], elems := [], grad := {} } ∧
        (∀ k, k ≠ e.param → t.gabEntry p k = s.gabEntry p k) ∧
        (e.ms = true → s.mem.migrations = [] → e.msBase + e.headerBytes + 5 * e.rows * e.cols ≤ 2 ^ 52 →
          ∀ i j, i < e.rows → j < e.cols → t.gabElem p e i j = 0) ∧
        (e.ms = false → SameBut [.inflight, .gab] s t) ∧
        SameBut [.free, .inflight, .bolts, .bytes, .flash, .gab] s t) ∧
      (x.zeroAfter = false → s.gabEntry p x.param = none → ∃ t, exec (.txGzero q pos) s = .next t ∧ Completed q pos t ∧
        OtherFlights q pos s t ∧ t = markDone q pos (eventGabRef p x.param f.pos 0 0 0 m)) ∧
      (x.zeroAfter = true → ∃ t, exec (.txGzero q pos) s = .next t ∧ Completed q pos t ∧ OtherFlights q pos s t ∧
        (∀ e ∈ tabGet [] t.gab.maps p, e.bands = [] ∧ e.elems = [] ∧ e.grad = {}) ∧
        (tabGet [] t.gab.maps p).map (fun e => e.param) = (tabGet [] s.gab.maps p).map (fun e => e.param) ∧
        SameBut [.free, .inflight, .bolts, .bytes, .flash, .gab] s t)) ∧
    (∀ errs ds u, opcodeOf f.word = 0x3F → s.mayStart f [] = true → s.isLate f [] = false → s.flush f = none →
      ds = descSpans s p [x.descD] → s.firstUnmapped p ds = none → s.blocked (readsOf (coreAcc f) ds) = false →
      u = ds.foldl (fun s r => touchRead (coreAcc f) false r.1 r.2 s)
        (clampPart p (if 2 ≤ (gbFields f.word).rnd then [7] else []) m) →
      (flushTarget s f x = none → ∃ t, exec (.txGflush q pos errs) s = .next t ∧ Completed q pos t ∧
        OtherFlights q pos s t ∧ t.gab = s.gab ∧ SameBut (eventParts ++ [.inflight, .clampCounters]) s t) ∧
      (∀ e d fm h v, flushTarget s f x = some (e, d, fm) →
        h = { q := f.q, pos := f.pos, ord := f.ord, part := p, param := x.param, desc := d, told := false, written := false } →
        v = modGab (fun g => { g with flushes := g.flushes ++ [h] }) u →
        (∀ b, x.expect ≠ 0 → e.unmet x.expect = some b → ∃ t, exec (.txGflush q pos errs) s = .next t ∧ t = v ∧
          t.flush f = some h ∧ t.inflight q pos = some { f with started := true, since := s.now }) ∧
        ((x.expect = 0 ∨ e.unmet x.expect = none) → v.blocked (writesOf (flushAcc f) (flushDests e d fm)) = false →
          (x.zeroAfter = true → s.addsBefore f (some x.param) = false) →
          ∃ t, exec (.txGflush q pos errs) s = .next t ∧ t = flushNow f h e fm errs none v ∧ Completed q pos t ∧
            OtherFlights q pos s t ∧ t.flush f = none ∧
            (errs = [] → t = flushZero f (flushWritten f (flushEntry f x e d fm false v)) ∧
              SameBut (eventParts ++ [.free, .inflight, .gab, .contributions, .clampCounters]) s t) ∧
            SameBut (partsOf (.txGflush q pos errs)) s t))) ∧
    (∀ errs h e fm, s.running (isOp 0x3F) q pos = some f → s.flush f = some h → s.gabEntry p x.param = some e →
      h.desc.format = some fm →
      let unmet := if x.expect = 0 then none else e.unmet x.expect
      (h.written = true → (x.zeroAfter = true → s.addsBefore f (some x.param) = false) →
        ∃ t, exec (.txGflush q pos errs) s = .next t ∧ t = flushZero f s ∧ Completed q pos t ∧ OtherFlights q pos s t) ∧
      (h.written = true → x.zeroAfter = true → s.addsBefore f (some x.param) = true →
        exec (.txGflush q pos errs) s = .next s) ∧
      (∀ b, h.written = false → unmet = some b → exec (.txGflush q pos errs) s = .next s ∧
        (s.now < f.since + 10000000 → exec (.gflushWaitTimeout q pos errs) s = .next s)) ∧
      (h.written = false → s.blocked (writesOf (flushAcc f) (flushDests e h.desc fm)) = false →
        (x.zeroAfter = true → s.addsBefore f (some x.param) = false) →
        (unmet = none → ∃ t, exec (.txGflush q pos errs) s = .next t ∧ t = flushNow f h e fm errs none s ∧
          Completed q pos t ∧ OtherFlights q pos s t ∧ t.flush f = none) ∧
        (∀ b, unmet = some b → f.since + 10000000 ≤ s.now → ∃ t, exec (.gflushWaitTimeout q pos errs) s = .next t ∧
          t = flushNow f h e fm errs (some b) s ∧ Completed q pos t ∧ OtherFlights q pos s t ∧ t.flush f = none ∧
          (errs = [] → t = flushZero f (flushWritten f (flushEntry f x e h.desc fm h.told (eventP 0x0442 2 p
            (le 1 p ++ le 2 x.param ++ le 2 b ++ le 2 (tabGet {} e.bands b).nextSeq ++ le 2 x.expect) s))))))) ∧
    (∀ e, s.gabEntry p x.param = some e → s.running (isOp 0x3F) q pos = some f →
      (x.zeroAfter = true → s.addsBefore f (some x.param) = false →
        (flushZero f s).gabEntry p e.param = some { e with bands := [], elems := [], grad := {} }) ∧
      (x.zeroAfter = false → (flushZero f s).gab.maps = s.gab.maps) ∧
      (∀ d fm told, ∃ y, (flushEntry f x e d fm told s).gabEntry p e.param = some y ∧ y.bands = e.bands ∧
        y.elems = e.elems ∧ y.version = e.version ∧ y.rows = e.rows ∧ y.cols = e.cols))

/-- Contributions add in sequence, band by band. A contribution whose turn has come at a band of its entry, and that no
earlier zeroing holds, adds each of its elements in the band, rounded once to FA40, changes no other element, raises the
term count by K, takes the band to the next sequence number, and completes its command at its last band; a discarded
one only advances. One ahead of the band waits, and one that the band has passed records 0x0441 and goes on without
adding. When it has waited more than 10 ms, its bands not added to and not passed take the number after its own, 0x0442
records it, and it completes. (R113, R114, R115, R121, R127, R228) -/
def Obligations.Contributions : Prop :=
  ∀ (q : QIdx) (pos : BitVec 32) (band : Nat) (c : Contribution) (e : GabEntry) (s : State),
    s.contrib q pos = some c → c.q = q.val → c.pos = pos → s.zeroPending c = false → band ∈ c.todo →
    (∀ errs k, k = keepStored (adderAcc c.part c.q c.pos) errs s → k.gabEntry c.part c.param = some e →
      c.discarded = false → seqAhead c.seq (tabGet {} e.bands band).nextSeq = 0 → 0 < c.cols →
      c.col0 + c.cols ≤ e.cols → ∃ t y, exec (.gabContributionAdd q pos band errs) s = .next t ∧
      t.gabEntry c.part c.param = some y ∧
      (tabGet {} y.bands band).nextSeq = ((tabGet {} e.bands band).nextSeq + 1) % 65536 ∧
      (tabGet {} y.bands band).terms = min ((tabGet {} e.bands band).terms + c.k) 1048577 ∧
      (∀ b, b ≠ band → tabGet {} y.bands b = tabGet {} e.bands b) ∧
      (e.ms = false →
        (∀ v x, c.vals[v]? = some x → (c.row0 + v / c.cols) / 256 = band →
          t.gabElem c.part y (c.row0 + v / c.cols) (c.col0 + v % c.cols) = BitVec.ofNat 40 (encodeFmt .fa40
            (fl40 ((ofFa40 (k.gabElem c.part e (c.row0 + v / c.cols) (c.col0 + v % c.cols))).add (unpackVal x))).1)) ∧
        (∀ i j, j < e.cols → ¬ (i / 256 = band ∧ c.row0 ≤ i ∧ c.col0 ≤ j ∧ j < c.col0 + c.cols) →
          t.gabElem c.part y i j = k.gabElem c.part e i j)) ∧
      (e.ms = true → errs = [] → s.mem.migrations = [] → bandUnmapped s c e band = none →
        e.msBase + e.headerBytes + 5 * e.rows * e.cols ≤ 2 ^ 52 → c.row0 + c.rows ≤ e.rows →
        c.vals.length ≤ c.rows * c.cols →
        ∀ v x, c.vals[v]? = some x → (c.row0 + v / c.cols) / 256 = band →
          (∀ i, i < 5 → (s.regionAt c.part (e.elemDva (c.row0 + v / c.cols) (c.col0 + v % c.cols) + i)).isSome) →
          t.gabElem c.part y (c.row0 + v / c.cols) (c.col0 + v % c.cols) = BitVec.ofNat 40 (encodeFmt .fa40
            (fl40 ((ofFa40 (s.gabElem c.part e (c.row0 + v / c.cols) (c.col0 + v % c.cols))).add (unpackVal x))).1)) ∧
      (∀ f, c.todo.filter (fun b => b != band) = [] → s.inflight q pos = some f → Completed q pos t ∧
        t.contrib q pos = none) ∧
      OtherFlights q pos s t ∧ SameBut (partsOf (.gabContributionAdd q pos band errs)) s t ∧
      (e.ms = false → errs = [] → SameBut [.inflight, .gab, .contributions, .accCounters] s t)) ∧
    (∀ errs, s.gabEntry c.part c.param = some e → c.discarded = true →
      seqAhead c.seq (tabGet {} e.bands band).nextSeq = 0 →
      ∃ t y, exec (.gabContributionAdd q pos band errs) s = .next t ∧ t.gabEntry c.part c.param = some y ∧
      y.elems = e.elems ∧ (tabGet {} y.bands band).nextSeq = ((tabGet {} e.bands band).nextSeq + 1) % 65536 ∧
      (tabGet {} y.bands band).terms = (tabGet {} e.bands band).terms ∧
      (e.ms = false → SameBut [.gab, .contributions] s t)) ∧
    (∀ errs, s.gabEntry c.part c.param = some e → 32768 ≤ seqAhead c.seq (tabGet {} e.bands band).nextSeq →
      ∃ t, exec (.gabContributionAdd q pos band errs) s = .next t ∧
      t = putContrib { c with todo := c.todo.filter (fun b => b != band), told := true }
        (if c.discarded || c.told then s else eventP 0x0441 2 c.part (le 1 c.part ++ le 2 c.param ++ le 2 c.seq ++ le 2 band ++
          le 2 (tabGet {} e.bands band).nextSeq) s) ∧
      t.gab.maps = s.gab.maps) ∧
    (s.gabEntry c.part c.param = some e → 0 < seqAhead c.seq (tabGet {} e.bands band).nextSeq →
      seqAhead c.seq (tabGet {} e.bands band).nextSeq < 32768 →
      (∀ errs, exec (.gabContributionAdd q pos band errs) s = .next s) ∧
      (s.now ≤ tabGet 0 c.since band + 10000000 → exec (.gabWaitTimeout q pos band) s = .next s) ∧
      (tabGet 0 c.since band + 10000000 < s.now → c.todo.Nodup → ∃ t y, exec (.gabWaitTimeout q pos band) s = .next t ∧
        t.contrib q pos = none ∧ OtherFlights q pos s t ∧
        (∀ f, c.discarded = false → s.inflight q pos = some f → Completed q pos t) ∧
        t.gabEntry c.part c.param = some y ∧ y.elems = e.elems ∧
        (∀ b ∈ c.todo, seqAhead c.seq (tabGet {} e.bands b).nextSeq < 32768 →
          (tabGet {} y.bands b).nextSeq = (c.seq + 1) % 65536) ∧
        (∀ b, ¬ b ∈ c.todo → tabGet {} y.bands b = tabGet {} e.bands b) ∧
        SameBut (eventParts ++ [.free, .inflight, .gab, .contributions]) s t))

/-- A collective command starts, waits for its turn, or is rejected. A collective command whose checks reject it
records 0x0701 with the reason, leaves the engine and completes. One that is not rejected takes its place at the
engine, its command started and not completed; it runs at once when its group has come to its sequence number and
every member can be reached, and waits otherwise. COLLECTIVE_SEQ_START starts one that waited, unless an open fence
holds it or it is late, and rejects it when its group is no longer bound or has passed it. While the module has no node
address the engine takes no command. (R124, R127, R296, R308, R310, R313) -/
def Obligations.CollectiveCommands : Prop :=
  (∀ (q : QIdx) (pos : BitVec 32) (f : Inflight) (errs : List ReadError) (s : State) (x : CoCmd) (p : Nat) (m : State),
    x = (coClamp f.word).1 → p = partOfQ q → s.inflight q pos = some f →
    ∀ c ∈ [(Instr.coAred q pos errs, 0x50), (.coRscat q pos errs, 0x51), (.coAgath q pos errs, 0x52),
      (.coBcast q pos errs, 0x53), (.coBarr q pos, 0x54), (.coA2a q pos errs, 0x55), (.coA2av q pos errs, 0x56)],
    opcodeOf f.word = c.2 → m = keepStored (collAcc f) (if c.2 = 0x54 then [] else errs) (markStarted q pos s) →
    (s.node = none → exec c.1 s = .next s) ∧
    (s.mayStart f (coGateReads f s) = true → s.isLate f (coGateReads f s) = false → s.blocked (coAccesses f s) = false →
      s.coll q pos = none → s.node ≠ none →
      (coReason m f x ≠ 0 → ∃ t, exec c.1 s = .next t ∧
        t = noteErrors 3 (if c.2 = 0x54 then [] else errs) (coReject f x (coReason m f x) (clampPart p (coClamp f.word).2 m)) ∧
        Completed q pos t ∧ OtherFlights q pos s t ∧
        (errs = [] → SameBut (eventParts ++ [.inflight, .groups, .collectives, .clampCounters]) s t)) ∧
      (∀ g, coReason m f x = 0 → s.boundGroup p x.group = some g → g.nextSeq ≠ x.seq →
        ∃ t k, exec c.1 s = .next t ∧ t.col.colls = s.col.colls ++ [k] ∧ k.q = q.val ∧ k.pos = pos ∧ k.part = p ∧
          k.group = x.group ∧ k.seq = x.seq ∧ k.running = false ∧
          t.inflight q pos = some { f with started := true, since := s.now } ∧ OtherFlights q pos s t ∧
          (errs = [] → SameBut (eventParts ++ [.inflight, .collectives, .clampCounters]) s t)) ∧
      (∀ g, coReason m f x = 0 → s.boundGroup p x.group = some g → g.nextSeq = x.seq →
        (∀ a r, s.node = some a → r < g.p ∨ (∃ d ∈ s.col.decided, r ∈ d.prop.set) →
          s.dataRoute p a (g.members.getD r 0 % 2 ^ 22) ≠ none) →
        ∃ t k, exec c.1 s = .next t ∧ t.coll q pos = some k ∧ k.running = true ∧ k.since = s.now ∧ k.group = x.group ∧
          k.seq = x.seq ∧ (opcodeOf f.word ≠ 0x54 → s.firstUnmapped p (coDescs f s) = none →
            k.from_ g.rank = [(0, true, (ownData m f g).1)]) ∧
          t.inflight q pos = some { f with started := true, since := s.now } ∧ OtherFlights q pos s t))) ∧
  (∀ (q : QIdx) (pos : BitVec 32) (c : Coll) (f : Inflight) (errs : List ReadError) (s : State), s.coll q pos = some c →
    s.inflight q pos = some f → c.running = false → s.node ≠ none →
    (s.boundGroup c.part c.group = none →
      exec (.collectiveSeqStart q pos errs) s = .next (coReject f (coFields f.word) 2 s)) ∧
    (∀ g, s.boundGroup c.part c.group = some g →
      (c.seq < g.nextSeq → exec (.collectiveSeqStart q pos errs) s = .next (coReject f (coFields f.word) 3 s)) ∧
      (g.nextSeq < c.seq → exec (.collectiveSeqStart q pos errs) s = .next s) ∧
      (c.seq = g.nextSeq →
        (s.fenceOpen c.part = true → (∃ r ∈ coReads f s, s.touchesParam c.part r.1 r.2 = true) →
          exec (.collectiveSeqStart q pos errs) s = .next s) ∧
        (s.fenceOpen c.part = false → s.isLate f (coReads f s) = true →
          ∃ t, exec (.collectiveSeqStart q pos errs) s = .next t ∧ t = coDiscard f s ∧ t.coll f.q f.pos = none ∧
            (f.q = q.val → f.pos = pos → Completed q pos t ∧ OtherFlights q pos s t)) ∧
        (s.fenceOpen c.part = false → s.isLate f (coReads f s) = false →
          s.blocked (readsOf (collAcc f) (coReads f s)) = false →
          (∀ a r, s.node = some a → r < g.p ∨ (∃ d ∈ s.col.decided, r ∈ d.prop.set) →
            s.dataRoute c.part a (g.members.getD r 0 % 2 ^ 22) ≠ none) →
          ∃ t k, exec (.collectiveSeqStart q pos errs) s = .next t ∧ t.coll q pos = some k ∧ k.running = true ∧
            k.since = s.now ∧ k.group = c.group ∧ k.seq = c.seq ∧ t.inflight q pos = some f ∧
            SameBut (partsOf (.collectiveSeqStart q pos errs)) s t)))) ∧
  (∀ (q : QIdx) (pos : BitVec 32) (f : Inflight) (s : State), s.inflight q pos = some f → 0x58 ≤ opcodeOf f.word →
    opcodeOf f.word ≤ 0x5F → s.node ≠ none → s.mayStart f [] = true → s.isLate f [] = false →
    ∃ t, exec (.coAred q pos []) s = .next t ∧ Completed q pos t ∧ OtherFlights q pos s t ∧
      t = coReject f (coClamp f.word).1 1 (markStarted q pos s))

/-- A collective that has its data completes. COLLECTIVE_COMPLETE ends a collective that is not frozen and has the
data of its whole set, or its feed: its command completes, it leaves the engine, and its group remembers its sequence
number, set and feeder. When the whole group took part, nothing is carried, no set record is kept, no address lies
outside every region and no read met an error, memory is what the writes of its result leave. One that lacks data
stays. (R309, R313, R318, R320, R321) -/
def Obligations.CollectivesComplete : Prop :=
  ∀ (q : QIdx) (pos : BitVec 32) (c : Coll) (f : Inflight) (g : Group) (errs : List ReadError) (s : State),
    s.coll q pos = some c → s.inflight q pos = some f → s.group c.part c.group = some g → g.part = c.part →
    g.id = c.group →
    (mayFinish g c = false → exec (.collectiveComplete q pos errs) s = .next s) ∧
    (mayFinish g c = true → s.blocked (writesOf (collAcc f) (finishSpans c f g s)) = false →
      ∃ t y, exec (.collectiveComplete q pos errs) s = .next t ∧ Completed q pos t ∧
      OtherFlights q pos s t ∧ t.coll q pos = none ∧ t.group c.part c.group = some y ∧
      y.hist.head? = some (c.seq, c.set.getD (List.range g.p), c.feeder) ∧
      SameBut (partsOf (.collectiveComplete q pos errs)) s t ∧
      (errs = [] → SameBut (eventParts ++ [.free, .inflight, .gab, .ports, .groups, .collectives, .streams, .colCounters,
        .agreement]) s t) ∧
      (errs = [] → c.excluded = false → c.needFeed = false → (c.set.getD (List.range g.p)).length = g.p → g.csetBase = 0 →
        opcodeOf f.word ≠ 0x54 → opcodeOf f.word ≠ 0x56 →
        s.firstUnmapped c.part ((collWrites s f g c (c.set.getD (List.range g.p))).map (fun w => (w.1, w.2.length))) = none →
        t.mem.bytes = (cmdWrites (collAcc f) (collWrites s f g c (c.set.getD (List.range g.p))) s).mem.bytes))

/-- The order in which a reduction adds. The latency algorithm adds over four ranks as (0 + 1) + (2 + 3), and passes a
rank that is not in the set over. On a ring of e coordinates the block that coordinate j owns is added from coordinate
j + 1 onward in the + direction, from j - 1 downward in the - direction, and ends with j. On a line, the sum of the
coordinates below j, taken upward, meets j first and then the sum of those above, taken downward. No addition but
these is made, each rounded once in the accumulation format. (R316, R317, R319) -/
def Obligations.OrderOfAdditions : Prop :=
  (∀ (f : Fmt) (t : Nat → Run),
    treeSum f [0, 1, 2, 3] t 2 0 = some (joinRuns f (joinRuns f (t 0) (t 1)) (joinRuns f (t 2) (t 3))) ∧
    treeSum f [0, 2, 3] t 2 0 = some (joinRuns f (t 0) (joinRuns f (t 2) (t 3)))) ∧
  (∀ (f : Fmt) (e j : Nat) (t : Nat → Run), 1 < e → j < e →
    ringSum f e true j t =
      ((List.range (e - 1)).map (fun i => t ((j + 2 + i) % e))).foldl (joinRuns f) (t ((j + 1) % e)) ∧
    ringSum f e false j t =
      ((List.range (e - 1)).map (fun i => t ((j + 2 * e - 2 - i) % e))).foldl (joinRuns f) (t ((j + e - 1) % e))) ∧
  (∀ (f : Fmt) (e j : Nat) (t : Nat → Run), 0 < j → j + 1 < e →
    lineSum f e j t = joinRuns f
      (joinRuns f (((List.range (j - 1)).map (fun i => t (i + 1))).foldl (joinRuns f) (t 0)) (t j))
      (((List.range (e - 2 - j)).map (fun i => t (e - 2 - i))).foldl (joinRuns f) (t (e - 1)))) ∧
  (∀ (f : Fmt) (a b : Run), (joinRuns f a b).v = (Run.step f a b.v).v)

/-- Chunks, deadlines, feeds and co.gbind. A chunk for a running collective that is not frozen enters its member's
contribution once per index, with what it tells of the sender's conversion and overflows; one for a frozen collective is
kept in staging, one for a collective that has not started is kept early, and one for a group not bound is not taken. An
adder lane whose residue mismatched counts, and is retired at the third mismatch within a second. A deadline passed
calls a round of the group with cause 1. A feed that is refused records 0x0706 and counts, one that is served counts and
is written; a feeder remembers its answer and opens the feed's stream. A co.gbind of a partition with no collective open
replaces its groups, forgets their rounds, and completes. (R304, R311, R318, R320, R322, R330) -/
def Obligations.CollectiveDataAndGroups : Prop :=
  (∀ (c : Chunk) (g : Group) (k : Coll) (s u : State), s.boundGroup c.p.val c.group.toNat = some g →
    s.collOf c.p.val c.group.toNat c.seq.toNat = some k → s.coll k.q k.pos = some k →
    u = c.lanes.foldl (fun s l => laneMismatch l.1.val l.2.toNat s) s →
    (k.running = false → ∃ t, exec (.chunkReceive c) s = .next t ∧ t.col.early = s.col.early ++ [c] ∧
      t.col.colls = s.col.colls ∧ SameBut [.collectives] u t) ∧
    (k.running = true → k.frozen = true → ∃ t, exec (.chunkReceive c) s = .next t ∧
      t.coll k.q k.pos = some { k with staged := k.staged ++ [c] } ∧ t.col.early = s.col.early ∧
      SameBut [.collectives] u t) ∧
    (k.running = true → k.frozen = false → c.rank ≠ g.rank → (∀ x ∈ k.from_ c.rank, x.1 ≠ c.index) →
      ∃ t y, exec (.chunkReceive c) s = .next t ∧ t.coll k.q k.pos = some y ∧
      y.from_ c.rank = k.from_ c.rank ++ [(c.index, c.last, c.data)] ∧
      (∀ r, r ≠ c.rank → y.from_ r = k.from_ r) ∧ (∀ v, c.conv = some v → (c.rank, v) ∈ y.convs) ∧
      tabGet [] y.ovfs c.rank = tabGet [] k.ovfs c.rank ++ c.ovf ∧ SameBut [.ports, .streams, .collectives] u t) ∧
    (k.running = true → k.frozen = false → (∃ x ∈ k.from_ c.rank, x.1 = c.index) → ∃ t, exec (.chunkReceive c) s = .next t ∧
      t.col.colls = s.col.colls ∧ SameBut [.ports, .streams] u t)) ∧
  (∀ (c : Chunk) (s : State), s.boundGroup c.p.val c.group.toNat = none → exec (.chunkReceive c) s = .next s) ∧
  (∀ (die lane : Nat) (s : State),
    (lane ∈ tabGet [] s.mxa.hw.lanesRetired die → laneMismatch die lane s = s) ∧
    (¬ lane ∈ tabGet [] s.mxa.hw.lanesRetired die → ∀ recent,
      recent = s.col.laneErrors.filter (fun e => e.1 == die && e.2.1 == lane && decide (s.now < e.2.2 + 1000000000)) →
      (laneMismatch die lane s).col.mismatches = satAdd 16 s.col.mismatches 1 ∧
      tabGet [] (laneMismatch die lane s).mxa.hw.lanesRetired die =
        tabGet [] s.mxa.hw.lanesRetired die ++ (if 2 ≤ recent.length then [lane] else []) ∧
      SameBut (eventParts ++ [.arrayFacts, .coordinates, .records]) s (laneMismatch die lane s))) ∧
  (∀ (q : QIdx) (pos : BitVec 32) (c : Coll) (g : Group) (s : State), s.coll q pos = some c → c.running = true →
    s.group c.part c.group = some g → (coFields c.word).deadline ≠ 0 →
    (c.since + 1000 * (coFields c.word).deadline ≤ s.now →
      exec (.collectiveDeadline q pos) s = .next (callGroup c.part c.group c.seq 1 g.rank s)) ∧
    (s.now < c.since + 1000 * (coFields c.word).deadline → exec (.collectiveDeadline q pos) s = .next s)) ∧
  (∀ (q : QIdx) (pos : BitVec 32) (c : Coll) (f : Inflight) (ovf : List Nat) (errs : List ReadError) (s : State),
    s.coll q pos = some c → s.inflight q pos = some f → c.q = q.val → c.pos = pos → c.running = true → c.needFeed = true →
    c.fed = false → c.frozen = false →
    (∃ t, exec (.feedRequest (.member q pos none ovf) errs) s = .next t ∧ t.coll q pos = some { c with fed := true } ∧
      (tabGet {} t.col.cnt c.part).feedRefused = satAdd 12 (tabGet {} s.col.cnt c.part).feedRefused 1 ∧
      SameBut (eventParts ++ [.collectives, .colCounters]) s t) ∧
    (∀ bytes ws, ws = feedWrites s f bytes ovf →
      s.blocked (writesOf (collAcc f) (ws.map (fun w => (w.1, w.2.length)))) = false →
      ∃ t, exec (.feedRequest (.member q pos (some bytes) ovf) errs) s = .next t ∧
      (∃ y, t.coll q pos = some y ∧ y = { c with fed := true, told := y.told }) ∧
      (tabGet {} t.col.cnt c.part).fed = satAdd 12 (tabGet {} s.col.cnt c.part).fed 1 ∧
      (s.firstUnmapped c.part (ws.map (fun w => (w.1, w.2.length))) = none →
        t.mem.bytes = (cmdWrites (collAcc f) ws s).mem.bytes) ∧
      SameBut (eventParts ++ [.gab, .collectives, .colCounters]) s t)) ∧
  (∀ (p : Fin 8) (group : BitVec 12) (seq : BitVec 32) (rank : Nat) (g : Group) (errs : List ReadError) (s : State) (key : Nat),
    s.group p.val group.toNat = some g → key = groupKey p.val group.toNat → (∃ h ∈ g.hist, h.1 = seq.toNat) →
    ((∃ h ∈ g.hist, h.1 = (seq.toNat + 1) % 2 ^ 32) → ∃ t, exec (.feedRequest (.feeder p group seq rank) errs) s = .next t ∧
      t.col.fed = (key, seq.toNat, 0) :: s.col.fed ∧ SameBut [.collectives] s t) ∧
    (¬ (∃ h ∈ g.hist, h.1 = (seq.toNat + 1) % 2 ^ 32) →
      (s.col.lasts.find? (fun l => l.1 == key && l.2.1.seq == seq.toNat) = none →
        ∃ t, exec (.feedRequest (.feeder p group seq rank) errs) s = .next t ∧
        t.col.fed = (key, seq.toNat, 1) :: s.col.fed ∧ SameBut [.collectives] s t) ∧
      (∀ l, s.col.lasts.find? (fun l => l.1 == key && l.2.1.seq == seq.toNat) = some l →
        s.blocked (readsOf (collAcc l.2.2) (feedSpans s l.2.2)) = false →
        ∃ t, exec (.feedRequest (.feeder p group seq rank) errs) s = .next t ∧
        t.col.fed = (key, seq.toNat, 1) :: s.col.fed ∧
        (∀ me e r, errs = [] → s.node = some me →
          (s.dataRoute p.val me (g.members.getD rank 0 % 2 ^ 22)).map (fun d => d.1) = some (e :: r) →
          ∃ x ∈ t.col.streams, x.rank = rank ∧ x.outPort = some e ∧
            x.feed = some (feedBytes s l.2.1 l.2.2 g rank)) ∧
        SameBut (partsOf (.feedRequest (.feeder p group seq rank) errs)) s t))) ∧
  (∀ (q : QIdx) (pos : BitVec 32) (f : Inflight) (errs : List ReadError) (s : State) (rd : List (Nat × Nat)) (p : Nat),
    rd = [((coFields f.word).tableBase, 64 * (coFields f.word).count)] → p = partOfQ q → s.inflight q pos = some f →
    opcodeOf f.word = 0x57 → s.node ≠ none → (∀ c ∈ s.col.colls, c.part ≠ p) → s.mayStart f rd = true →
    s.isLate f rd = false → s.blocked (readsOf (coreAcc f) (gbindSpans f s)) = false →
    ∃ t, exec (.coGbind q pos errs) s = .next t ∧ Completed q pos t ∧ OtherFlights q pos s t ∧
      (∀ x ∈ t.col.groups, x.2.part = p → x.2.done = [] ∧ x.2.removed = [] ∧ x.2.carry = none ∧ x.2.hist = [] ∧
        0 < x.2.p ∧ x.2.p ≤ 16384 ∧ x.2.rank < x.2.p ∧ 1024000 ≤ x.2.stagingBytes) ∧
      ((coFields f.word).count = 0 → ∀ x ∈ t.col.groups, x.2.part ≠ p) ∧
      (∀ y, errs = [] → 0 < (coFields f.word).count →
        y = groupOf s (coreAcc f) (unle (s.readBytes (coreAcc f) (coFields f.word).tableBase 64)) →
        groupReason s [] y = 0 → (∀ x ∈ s.col.groups, x.1 / 4096 = x.2.part) → t.group p y.id = some y) ∧
      (∀ r ∈ t.fap.rounds, ∀ i gg qq, r.item = .group i gg qq → i.val ≠ p) ∧
      SameBut (partsOf (.coGbind q pos errs)) s t ∧
      (errs = [] → SameBut (eventParts ++ [.inflight, .groups, .collectives, .colCounters, .agreement]) s t))

/-- Current levels, column sparing and array retirement. A current window grants the first array that asks its wanted
level when the step fits, never lets the granted steps of a window exceed the slew limit, and belongs to the present
microsecond. An array at the floor with no work for 20 microseconds asks for idle. A failed column due on a live array
is recorded, with 0x0101 for the first two; at the third a free spare leaves the spares, and the retirement of an array
that carries a logical one is due. A retirement due moves the logical array to the nearest free spare with 0x0102, its
tiles, flags and term counts with it, or takes it offline when there is none. (R65, R66, R67, R69, R70, R71, R72,
R346) -/
def Obligations.ArraysChangeLevelAndAreSpared : Prop :=
  (∀ (s : State) (used : Nat), used = (if s.mxa.windowAt = s.nowUs then s.mxa.windowUsed else 0) →
    ∃ t, exec .currentWindowGrant s = .next t ∧ t.mxa.windowAt = s.nowUs ∧ used ≤ t.mxa.windowUsed ∧
      (used ≤ s.dev.slewLimit * 120 → t.mxa.windowUsed ≤ s.dev.slewLimit * 120) ∧
      (∀ l v, l < 120 → wantedLevel s l = some v → (∀ j, j < l → wantedLevel s j = none) →
        used + stepPct s (s.arr l).level v ≤ s.dev.slewLimit * 120 → (t.arr l).level = v) ∧
      ((∀ l, l < 120 → wantedLevel s l = none) → ∀ l, t.arr l = s.arr l) ∧
      SameBut [.arrays, .current, .fillCounter] s t) ∧
  (∀ (l : Fin 120) (s : State), (s.arr l).level = .floor → arrayWants s l = false →
    ((s.arr l).floorSince + 20000 ≤ s.now → ∃ t, exec (.fillFloorTimeout l) s = .next t ∧
      t.arr l = { s.arr l with request := some .idle } ∧ OtherArrays l s t ∧ SameBut [.arrays] s t) ∧
    (s.now < (s.arr l).floorSince + 20000 → exec (.fillFloorTimeout l) s = .next s)) ∧
  (∀ (a : Fin 128) (col : BitVec 16) (s : State), (a.val, col.toNat) ∈ s.mxa.colDue → physLive s a.val = true →
    ¬ col.toNat ∈ tabGet [] s.mxa.hw.failedCols a.val → ∃ t, exec (.columnSpare a col) s = .next t ∧
      tabGet [] t.mxa.hw.failedCols a.val = tabGet [] s.mxa.hw.failedCols a.val ++ [col.toNat] ∧
      ¬ (a.val, col.toNat) ∈ t.mxa.colDue ∧
      ((tabGet [] s.mxa.hw.failedCols a.val).length < 2 → t.mxa.retireDue = s.mxa.retireDue) ∧
      (2 ≤ (tabGet [] s.mxa.hw.failedCols a.val).length →
        (a.val ∈ s.mxa.hw.sparesFree → a.val ∈ t.mxa.hw.retired ∧ ¬ a.val ∈ t.mxa.hw.sparesFree) ∧
        (¬ a.val ∈ s.mxa.hw.sparesFree → a.val ∈ t.mxa.retireDue)) ∧
      (∀ l, t.arr l = s.arr l) ∧ SameBut (eventParts ++ [.arrayFacts, .records]) s t) ∧
  (∀ (a : Fin 128) (l : Nat) (s : State), a.val ∈ s.mxa.retireDue → logicalOf s a.val = some l →
    (∀ b rest, spareOrder a.val s.mxa.hw.sparesFree = b :: rest → l < s.mxa.hw.phys.length →
      ∀ errs, ∃ t, exec (.arrayRetire a errs) s = .next t ∧ t.physOf l = b ∧ (∀ j, j ≠ l → t.physOf j = s.physOf j) ∧
      ¬ b ∈ t.mxa.hw.sparesFree ∧ a.val ∈ t.mxa.hw.retired ∧ ¬ a.val ∈ t.mxa.retireDue ∧
      t.mxa.hw.offline = s.mxa.hw.offline ∧ OtherArrays l s t ∧
      (∃ w x y z g, t.arr l =
        { s.arr l with weights := w, weightsShadow := x, latch0 := y, latch1 := z, segments := g }) ∧
      SameBut (eventParts ++ [.free, .arrays, .arrayFacts, .records]) s t) ∧
    (∀ errs, s.mxa.hw.sparesFree = [] → ∃ t, exec (.arrayRetire a errs) s = .next t ∧ t.offline l = true ∧
      a.val ∈ t.mxa.hw.retired ∧ ¬ a.val ∈ t.mxa.retireDue ∧ (∀ j, t.physOf j = s.physOf j) ∧
      SameBut (eventParts ++ [.admission, .envelopes, .arrayFacts, .reservations, .selvCounters, .records]) s t))

/-- Shadow votes and known-answer tests. A vote on the tile that an array has sampled ends the sampling, counts a
mismatch, and decides what R343 names: a column of the sampled array marked failed, the sampled array, the shadow
spare or both retired, a free spare at once, or raised sampling. A known-answer test that is due records its bin and time; passed throughout
it decides nothing, and each failure counts. One that is not due changes nothing. (R343, R344, R345, R348) -/
def Obligations.VotesAndKnownAnswers : Prop :=
  (∀ (l : Fin 120) (x : ShadowPend) (v : ShadowVote) (s : State), (s.arr l).shadow = some x →
    ∃ t, exec (.shadowMismatchVote l v) s = .next t ∧ (t.arr l).shadow = none ∧ OtherArrays l s t ∧
      t.fap.mismatches = satAdd 8 s.fap.mismatches 1 ∧
      SameBut (eventParts ++ [.arrays, .arrayFacts, .fapCounters, .records]) s t ∧
      (∀ c b g, v = .shadow (some c) b g → physLive s (s.physOf l) = true →
        t.mxa.colDue = s.mxa.colDue ++ [(s.physOf l, c.toNat)] ∧ t.mxa.retireDue = s.mxa.retireDue) ∧
      (∀ b g, v = .shadow none b g → physLive s (s.physOf l) = true → Retired s t (s.physOf l)) ∧
      (∀ b g, v = .sampled b g → physLive s x.spare = true → Retired s t x.spare) ∧
      (∀ b g, v = .neither b g → physLive s x.spare = true → physLive s (s.physOf l) = true →
        Retired s t x.spare ∧ Retired s t (s.physOf l)) ∧
      (∀ b g, v = .noThird b g → (b, g, 2 ^ 20) ∈ (t.arr l).raised ∧ t.mxa.retireDue = s.mxa.retireDue)) ∧
  (∀ (l : Fin 120) (v : ShadowVote) (s : State), (s.arr l).shadow = none →
    exec (.shadowMismatchVote l v) s = .next s) ∧
  (∀ (a : Fin 128) (o : KatObs) (s : State),
    (katDue s a.val o.bin = false → exec (.knownAnswerTest a o) s = .next s) ∧
    (katDue s a.val o.bin = true → ∃ t, exec (.knownAnswerTest a o) s = .next t ∧
      (t.mxa.katBin.find? (fun x => x.1 == a.val)).map (fun x => x.2) = some o.bin ∧ tabGet 0 t.mxa.katAt a.val = s.now ∧
      (o.first = none → o.low15 = none → o.low30 = none → SameBut [.arrayFacts] s t ∧ t.mxa.retireDue = s.mxa.retireDue ∧
        t.mxa.colDue = s.mxa.colDue) ∧
      (o.first ≠ none → o.second ≠ none → o.column = none → physLive s a.val = true → Retired s t a.val) ∧
      (∀ c, o.first ≠ none → o.second ≠ none → o.column = some c → physLive s a.val = true →
        (a.val, c.toNat) ∈ t.mxa.colDue) ∧
      (o.first ≠ none → o.second = none → o.low15 = none → o.low30 = none →
        t.fap.katFail = satAdd 8 s.fap.katFail 1 ∧ t.mxa.retireDue = s.mxa.retireDue ∧ t.mxa.colDue = s.mxa.colDue) ∧
      SameBut (eventParts ++ [.arrays, .arrayFacts, .fapCounters, .records]) s t))

/-- Stream OPEN, ACK, CLOSE and REFUSE. An OPEN that has come to its destination is kept as a stream end when its
group is bound with its fingerprint, and is refused with 0x0703 otherwise, with cause 1 for a group not bound and 2
for another fingerprint; one on its way takes the lowest free tags of its next port and goes on, and waits where none is
free. An ACK at the source notes its chunk as acknowledged on the stream it names; on the way an answer goes back on the
stream that it is for, under the tag that the hop before gave. A CLOSE ends the stream that came in on its port and goes
on under the stream's next tag; a REFUSE at the source ends the stream. (R301, R303, R304, R306) -/
def Obligations.StreamControlFlits : Prop :=
  (∀ (e : Fin 8) (c : StreamCtl) (s : State), s.node ≠ none → nextHop c = none →
    (∀ x ∈ s.col.streams, ¬ (x.waiting = true ∧ x.inPort = some e.val ∧ sameStream x.ctl c = true)) →
    (∀ g, s.boundGroup (partOfEnd c.dst) c.group.toNat = some g → g.fp = c.fp →
      ∃ t, exec (.streamOpen (some e) c) s = .next t ∧ t.col.streams = s.col.streams ++
        [{ ctl := c, inPort := some e.val, outPort := none, outTag := 0, acked := [], waiting := false }] ∧
        SameBut [.streams] s t) ∧
    (s.boundGroup (partOfEnd c.dst) c.group.toNat = none →
      exec (.streamOpen (some e) c) s = .next (refuseStream c e 1 s)) ∧
    (∀ g, s.boundGroup (partOfEnd c.dst) c.group.toNat = some g → g.fp ≠ c.fp →
      exec (.streamOpen (some e) c) s = .next (refuseStream c e 2 s)) ∧
    (∀ k, (refuseStream c e k s).col = s.col ∧ SameBut (eventParts ++ [.ports]) s (refuseStream c e k s))) ∧
  (∀ (e : Fin 8) (o : Nat) (tag rev : BitVec 12) (c : StreamCtl) (s : State), s.node ≠ none → nextHop c = some o →
    (∀ x ∈ s.col.streams, ¬ (x.waiting = true ∧ x.inPort = some e.val ∧ sameStream x.ctl c = true)) →
    (freeTag s o = some tag → freeRev s o = some rev →
      ∃ t, exec (.streamOpen (some e) c) s = .next t ∧ t.col.streams = s.col.streams ++
        [{ ctl := c, inPort := some e.val, outPort := some o, outTag := tag, acked := [], waiting := false, revIn := rev }] ∧
        (t.port o).ready = (s.port o).ready ++
          [ctlFlit .transit 0 tag { c with tag := tag, rev := rev, hop := c.hop + 1 }] ∧ OtherPorts o s t ∧
        SameBut [.ports, .streams] s t) ∧
    (freeTag s o = none → ∃ t, exec (.streamOpen (some e) c) s = .next t ∧ t.col.streams = s.col.streams ++
        [{ ctl := c, inPort := some e.val, outPort := some o, outTag := 0, acked := [], waiting := true }] ∧
      SameBut [.streams] s t)) ∧
  (∀ (via : Option (Fin 8)) (c : StreamCtl) (x : Stream) (s : State), s.node ≠ none →
    s.col.streams.find? (fun x => x.waiting && x.inPort == via.map (fun e => e.val) && sameStream x.ctl c) = some x →
    (x.outPort.bind (freeTag s) = none → exec (.streamOpen via c) s = .next s) ∧
    (x.outPort.bind (freeTag s) ≠ none → ∃ t, exec (.streamOpen via c) s = .next t ∧
      t = pumpStreams (partOfEnd c.src) c.group.toNat c.seq.toNat (openStream x
        (modCol (fun k => { k with streams := k.streams.filter (fun y => y != x) }) s)) ∧
      SameBut [.ports, .streams] s t)) ∧
  (∀ (e : Fin 8) (c : StreamCtl) (s : State),
    (∀ x i, backStream s (some e) c = some x → x.inPort = some i →
      (∃ t, exec (.streamAck (some e) c) s = .next t ∧
        t = sendFlit i (ctlFlit .transit 1 x.ctl.rev { c with tag := x.ctl.rev, hop := c.hop + 1 }) s) ∧
      (∃ t, exec (.streamRefuse (some e) c) s = .next t ∧ t.col.streams = s.col.streams.filter (fun y => y != x) ∧
        t.exo = (sendFlit i (ctlFlit .transit 3 x.ctl.rev { c with tag := x.ctl.rev, hop := c.hop + 1 }) s).exo ∧
        SameBut [.ports, .streams] s t)) ∧
    (∀ o, backStream s (some e) c = none → nextHop c = some o → s.node ≠ none →
      (∃ t, exec (.streamAck (some e) c) s = .next t ∧ t = forwardCtl 1 c.tag o c s) ∧
      (∃ t, exec (.streamRefuse (some e) c) s = .next t ∧ t.exo = (forwardCtl 3 c.tag o c s).exo ∧
        t.col.streams = s.col.streams ∧ SameBut [.ports] s t))) ∧
  (∀ (via : Option (Fin 8)) (c : StreamCtl) (s : State), nextHop c = none →
    (backStream s via c = none → ∃ t, exec (.streamAck via c) s = .next t ∧
      (∀ x ∈ t.col.streams, x.inPort = none → answers c x = true → c.chunk.toNat ∈ x.acked) ∧
      SameBut [.ports, .streams] s t ∧
      (s.group (partOfEnd c.dst) c.group.toNat = none → (∀ x ∈ s.col.streams, x.feed = none) →
        t.col.streams = s.col.streams.map (fun x => if x.inPort = none ∧ answers c x = true then
          { x with acked := if c.chunk.toNat ∈ x.acked then x.acked else x.acked ++ [c.chunk.toNat],
                   held := x.held.filter (fun k => k.1 != c.chunk.toNat) } else x) ∧ SameBut [.streams] s t)) ∧
    (∃ t, exec (.streamClose via c) s = .next t ∧ t.col.streams = s.col.streams.filter (fun x =>
        ! decide (x.inPort = via.map (fun e => e.val) ∧ sameStream x.ctl c = true)) ∧ SameBut [.streams] s t) ∧
    (backStream s via c = none → ∃ t, exec (.streamRefuse via c) s = .next t ∧
      t.col.streams = s.col.streams.filter (fun x => ! decide (x.inPort = none ∧ answers c x = true)) ∧
      SameBut [.streams] s t)) ∧
  (∀ (via : Option (Fin 8)) (o : Nat) (c : StreamCtl) (x : Stream) (s : State), nextHop c = some o → s.node ≠ none →
    s.col.streams.find? (fun x => x.inPort == via.map (fun e => e.val) && sameStream x.ctl c) = some x →
    ∃ t, exec (.streamClose via c) s = .next t ∧ t.col.streams = s.col.streams.filter (fun x =>
        ! decide (x.inPort = via.map (fun e => e.val) ∧ sameStream x.ctl c = true)) ∧
      (t.port o).ready = (s.port o).ready ++
        [ctlFlit .transit 2 x.outTag { c with tag := x.outTag, hop := c.hop + 1 }] ∧ SameBut [.ports, .streams] s t)

/-- Flits and link-control flits pass between ports. A port that is up sends one slot at a time, slot 0 of a frame its
link-control flit, and counts slots 0 to 143; the collective data of admitted work within its partition's share goes
first, the earliest admitted before the others, and a flit in passing frees its buffer when it leaves. A data flit
received with the awaited sequence number is delivered, the next number is awaited and the port stops asking for a
replay; the bytes a transmitter makes of a flit are such a flit. A slot whose CRC does not match makes the port ask for
a replay and is not delivered. A link-control flit that a port sends is taken by its receiver; a slot that is no
link-control flit counts as lost, and as one more in a row only when its CRC fails. Every slot received advances the
codeword index of the receive direction. (R263, R267, R268, R269, R271, R272, R273, R274, R276, R302) -/
def Obligations.LinkLayer : Prop :=
  (∀ (p : Fin 8) (m : Option Measure) (s u : State), s.portUp p = true →
    u = (let v := (match m with | some m => takeMeasure p m s | none => s)
      if (s.port p).slotNo = 0 then emptyCheck p v else v) →
    ∃ t, exec (.txSlot p m) s = .next t ∧ SameBut (partsOf (.txSlot p m)) s t ∧
    (t.port p).slotNo = (if (s.port p).slotNo = 143 then 0 else (s.port p).slotNo + 1) ∧
    ((s.port p).slotNo = 0 → (t.port p).out = some (slotBits (u.port p).lcf) ∧ (t.port p).retry = (s.port p).retry ∧
      (t.port p).nextSeq = (s.port p).nextSeq) ∧
    ((s.port p).slotNo ≠ 0 → (t.port p).out = some (slotBits ((u.port p).dataSlot (linkSlots u p)).1)) ∧
    ((∀ f ∈ (s.port p).ready, ∀ i c, f.note ≠ .through i c) → OtherPorts p s t ∧
      (m = none → (s.port p).slotNo ≠ 0 → SameBut [.ports] s t))) ∧
  (∀ (p : Fin 8) (m : Option Measure) (s : State), s.portUp p = false → exec (.txSlot p m) s = .next s) ∧
  (∀ (f : Flit) (i : Nat) (c : FlitClass) (s : State), f.note = .through i c →
    tabGet 0 ((freeThrough [f] s).port i).freed c.code = (tabGet 0 (s.port i).freed c.code + 1) % 65536) ∧
  (∀ (share : Nat → Nat) (k : PortSt) (c : FlitClass), k.replay = [] → (k.injHold = none ∨ k.injDue = false) →
    k.injKind = 0 → k.pickClass = some c →
    ∃ f b, k.nextFlit share c = some (f, b) ∧ f ∈ k.ready ∧ f.cls = c ∧
      (k.dataSlot share).1 = flitBytes k.nextSeq f ∧
      (k.dataSlot share).2.retry = k.retry ++ [(k.nextSeq, f)] ∧
      (k.dataSlot share).2.nextSeq = (k.nextSeq + 1) % 65536 ∧ k.retry.length < 4096) ∧
  (∀ (share : Nat → Nat) (k : PortSt) (f : Flit) (a : Nat), f ∈ k.ready → f.cls = .collective → f.adm = some a →
    tabGet 0 k.usedByPart (f.part.getD 8) < share (f.part.getD 8) →
    ∃ g m, k.nextFlit share .collective = some (g, false) ∧ g.adm = some m ∧ m ≤ a ∧
      tabGet 0 k.usedByPart (g.part.getD 8) < share (g.part.getD 8)) ∧
  (∀ (p : Fin 8) (f : Flit) (s : State), s.portUp p = true → f.payload.length = 250 → f.note = .none →
    (s.port p).rxExpect < 65536 →
    exec (.dataFlitReceive p (slotBits (flitBytes (s.port p).rxExpect f))) s =
      .next (deliverFlit p f (modPort p (fun k =>
        { k with rxExpect := ((s.port p).rxExpect + 1) % 65536, await := false }) (rxAdvance p s)))) ∧
  (∀ (p : Fin 8) (flit : BitVec 2048) (c : FlitClass) (s : State), s.portUp p = true →
    classOf (unle ((slotBytes flit).take 2) / 8192) = some c →
    unle ((slotBytes flit).drop 252) ≠ (crc32c (le 2 (s.port p).rxExpect ++ (slotBytes flit).take 252)).toNat →
    ∃ t, exec (.dataFlitReceive p flit) s = .next t ∧ t.port p = { (rxAdvance p s).port p with await := true } ∧
      OtherPorts p s t ∧ SameBut [.ports] s t) ∧
  (∀ (p : Fin 8) (k : PortSt) (o : Option TrainObs) (s : State), s.portUp p = true →
    ∃ n, n % 2 ^ 64 = 0xA5C35A3C0F9669F0 ∧ n / 2 ^ 960 % 65536 = k.nextSeq % 65536 ∧
    exec (.lcfReceive p (slotBits k.lcf) o) s = .next (takeLcf p n o (rxAdvance p s))) ∧
  (∀ (p : Fin 8) (lcf : BitVec 2048) (o : Option TrainObs) (s : State) (good : Bool), s.portUp p = true →
    good = decide (unle ((slotBytes lcf).drop 252) = (crc32c ((slotBytes lcf).take 252)).toNat) →
    unle ((slotBytes lcf).take 252) % 2 ^ 64 ≠ 0xA5C35A3C0F9669F0 → (s.port p).lcfBad < 7 →
    ∃ t, exec (.lcfReceive p lcf o) s = .next t ∧ OtherPorts p s t ∧ SameBut [.ports] s t ∧
      t.port p = { (rxAdvance p s).port p with
        lcfLost := satAdd 15 (s.port p).lcfLost 1, lcfBad := if good then 0 else (s.port p).lcfBad + 1 }) ∧
  (∀ (p : Nat) (s : State), ((rxAdvance p s).port p).rxCodeword * 5140 + ((rxAdvance p s).port p).rxBits =
    (s.port p).rxCodeword * 5140 + (s.port p).rxBits + 2048)

/-- Spares, holds, step-down and switch points. A bias check keeps the bias currents it reads and starts no spare
below the limit. A spare whose training qualifies waits for a switch point, and one that does not is tried again after
1 s. A laser power drop of 3 dB or a ring out of its range puts the wavelength in HOLD and proposes that its lane
carries nothing, which it does from the switch point on; the ring back in range proposes the exit; 10 ms in HOLD retire
the wavelength where a spare is left, and propose its lane's removal where none is. A lane low for 1 ms without a spare
is in STEP: it carries nothing from one switch point on, and resumes in the next lower mode, or leaves, at a later one.
A switch point takes the confirmed changes of its point: a spare carries the lane, a lane empties, a hold ends, a mode
changes, a lane leaves. The partner's change of a receive wavelength takes effect at its own. (R277, R280, R282, R283,
R284, R286, R288) -/
def Obligations.LanesAndWavelengths : Prop :=
  ∀ (p : Fin 8) (s : State),
    (∀ bias, ∃ t, exec (.biasCheck p bias) s = .next t ∧ OtherPorts p s t ∧ SameBut [.ports] s t ∧
      (∀ k, k < 18 → ((t.port p).wave k).bias = min (bias.getD k 0) 255) ∧
      ((∀ k, k < 18 → ((s.port p).wave k).state = 3 → min (bias.getD k 0) 255 < (s.portRec p).spareBiasPct) →
        ∀ k, ((t.port p).wave k).state = ((s.port p).wave k).state)) ∧
    (∀ (w : Fin 18) (old : Nat) (margin : Int), ((s.port p).wave w).replaces = some old →
      ((s.port p).wave w).state = 1 →
      (((s.portRec p).spareMarginDb : Int) + 10 ≤ margin → ((s.port p).wave old).txMargin + 10 ≤ margin →
        ∃ t, exec (.spareTrainComplete p w margin) s = .next t ∧ ((t.port p).wave w).state = 2 ∧
        ((t.port p).wave w).txMargin = margin ∧ OtherPorts p s t ∧ SameBut [.ports] s t ∧
        ∃ c, (t.port p).changes = (s.port p).changes ++ [c] ∧ c.kind = 1 ∧ c.wave = w.val ∧ c.confirmed = false) ∧
      (margin < (s.portRec p).spareMarginDb → ∃ t, exec (.spareTrainComplete p w margin) s = .next t ∧
        ((t.port p).wave w).state = 0 ∧ ((t.port p).wave w).replaces = none ∧
        ((t.port p).wave w).tryAt = s.now + 1000000000 ∧ (t.port p).changes = (s.port p).changes ∧
        OtherPorts p s t ∧ SameBut [.ports] s t)) ∧
    (∀ (w : Fin 18) (drop : Nat), ((s.port p).wave w).state = 3 → 300 ≤ drop → ∃ t c,
      exec (.laserPowerDrop p w drop) s = .next t ∧ ((t.port p).wave w).state = 4 ∧
      ((t.port p).wave w).holdAt = s.now ∧ ((t.port p).wave w).dealt = ((s.port p).wave w).dealt ∧
      (t.port p).changes = (s.port p).changes ++ [c] ∧ c.kind = 2 ∧ c.wave = w.val ∧ OtherPorts p s t ∧
      SameBut (eventParts ++ [.ports]) s t) ∧
    (∀ (w : Fin 18) (pct : Nat), s.portUp p = true → 25 < pct →
      (((s.port p).wave w).state = 3 → ∃ t c, exec (.ringHoldEnter p w false pct) s = .next t ∧
        ((t.port p).wave w).state = 4 ∧ ((t.port p).wave w).holdAt = s.now ∧
        ((t.port p).wave w).dealt = ((s.port p).wave w).dealt ∧
        (t.port p).changes = (s.port p).changes ++ [c] ∧ c.kind = 2 ∧ c.wave = w.val ∧
        (t.port p).holds = satAdd 15 (s.port p).holds 1 ∧ OtherPorts p s t ∧ SameBut (eventParts ++ [.ports]) s t) ∧
      (((s.port p).wave w).rxMode ≠ 0 → ((s.port p).wave w).rxMargin ≠ -128 → ∃ t,
        exec (.ringHoldEnter p w true pct) s = .next t ∧ ((t.port p).wave w).rxMargin = -128 ∧
        (t.port p).changes = (s.port p).changes ∧ OtherPorts p s t ∧ SameBut (eventParts ++ [.ports]) s t)) ∧
    (∀ (w : Fin 18) (pct us : Nat), ((s.port p).wave w).state = 4 → ((s.port p).wave w).holdBy = [1] → pct ≤ 5 →
      100 ≤ us → ∃ t c, exec (.ringHoldExit p w pct us) s = .next t ∧ ((t.port p).wave w).state = 4 ∧
      ((t.port p).wave w).holdBy = [] ∧ (t.port p).changes = (s.port p).changes ++ [c] ∧ c.kind = 3 ∧ c.wave = w.val ∧
      OtherPorts p s t) ∧
    (∀ (w : Fin 18), ((s.port p).wave w).state = 4 → ((s.port p).wave w).holdBy ≠ [] → ((s.port p).wave w).dealt = false →
      ((s.port p).wave w).holdAt + 10000000 ≤ s.now →
      (beingReplaced (s.port p) w = true ∨ spareLeft s p = true → ∃ t, exec (.ringHoldTimeout p w) s = .next t ∧
        ((t.port p).wave w).state = 6 ∧ p.val * 18 + w.val ∈ t.mxa.hw.wlRetired ∧ OtherPorts p s t) ∧
      (beingReplaced (s.port p) w = false → spareLeft s p = false → ∃ t c, exec (.ringHoldTimeout p w) s = .next t ∧
        ((t.port p).wave w).state = 4 ∧ (t.port p).changes = (s.port p).changes ++ [c] ∧ c.kind = 5 ∧ c.wave = w.val ∧
        OtherPorts p s t)) ∧
    (∀ (lane : Fin 16) (k : Nat) (x : Wave) (t0 : Nat),
      (s.port p).carrying.find? (fun w => w.2.lane == some lane.val && w.2.state == 3) = some (k, x) → x.lowAt = some t0 →
      t0 + 1000000 ≤ s.now → beingReplaced (s.port p) k = false → freeSpare s p = none →
      (∀ m, 1 < x.mode → ∃ t b c, exec (.laneStepDown p lane (some m)) s = .next t ∧ ((t.port p).wave k).state = 5 ∧
        ((t.port p).wave k).txMargin = m ∧ ((t.port p).wave k).dealt = ((s.port p).wave k).dealt ∧
        (t.port p).changes = (s.port p).changes ++ [b, c] ∧ b.kind = 2 ∧ c.kind = 4 ∧
        c.mode = x.mode - 1 ∧ c.lane = lane.val ∧ b.point < c.point ∧ OtherPorts p s t ∧ SameBut [.ports] s t) ∧
      (∃ t b c, exec (.laneStepDown p lane none) s = .next t ∧ ((t.port p).wave k).state = 5 ∧
        (t.port p).changes = (s.port p).changes ++ [b, c] ∧ b.kind = 2 ∧ c.kind = 5 ∧ c.lane = lane.val ∧
        b.point < c.point ∧ OtherPorts p s t ∧ SameBut [.ports] s t)) ∧
    (∀ index, index % 512 = 0 → (s.port p).codeword ≤ index → s.portUp p = true →
      ∃ t left, left = (s.port p).changes.filter (fun c => ! (decide (c.point ≤ index) && c.confirmed)) ∧
      exec (.switchPoint p index) s = .next t ∧ SameBut (partsOf (.switchPoint p index)) s t ∧
      t = ((s.port p).changes.filter (fun c => decide (c.point ≤ index) && c.confirmed)).foldl (fun s c => applyChange p c s)
        (modPort p (fun k => { k with codeword := index, slotBits := 0, changes := left.map (fun c =>
          if left.any (fun c => decide (c.point ≤ index)) then { c with point := c.point + 512 } else c) }) s) ∧
      ((∀ c ∈ (s.port p).changes, c.point ≤ index → c.confirmed = false) → (t.port p).codeword = index ∧
        (t.port p).waves = (s.port p).waves ∧ OtherPorts p s t ∧ SameBut [.ports] s t)) ∧
    (∀ c : Change, (s.portUp p = false ∨ 5 ≤ (s.port p).lanes) → ((s.port p).waves.map (fun w => w.1)).Nodup →
      (c.kind = 2 → ((s.port p).wave c.wave).dealt = true → (((applyChange p c s).port p).wave c.wave).dealt = false ∧
        (((applyChange p c s).port p).wave c.wave).emptyAt = some s.now) ∧
      (c.kind = 3 → ((s.port p).wave c.wave).state = 4 → ((s.port p).wave c.wave).holdBy = [] →
        (((applyChange p c s).port p).wave c.wave).state = 3 ∧ (((applyChange p c s).port p).wave c.wave).dealt = true) ∧
      (c.kind = 4 → ((s.port p).wave c.wave).state = 5 → (((applyChange p c s).port p).wave c.wave).state = 3 ∧
        (((applyChange p c s).port p).wave c.wave).mode = c.mode ∧
        (((applyChange p c s).port p).wave c.wave).dealt = true) ∧
      (c.kind = 5 → ((s.port p).wave c.wave).state ≠ 6 → (((applyChange p c s).port p).wave c.wave).state = 6 ∧
        (((applyChange p c s).port p).wave c.wave).lane = none) ∧
      (∀ old, c.kind = 1 → ((s.port p).wave c.wave).state = 2 → ((s.port p).wave c.wave).replaces = some old →
        old ≠ c.wave → (((applyChange p c s).port p).wave c.wave).state = 3 ∧
        (((applyChange p c s).port p).wave c.wave).lane = some c.lane ∧
        (((applyChange p c s).port p).wave old).state = 6 ∧ (((applyChange p c s).port p).wave old).lane = none)) ∧
    (∀ (c : Change) (k : PortSt),
      (c.kind = 1 ∨ c.kind = 3 ∨ c.kind = 4 → ((applyRxChange c k).wave c.wave).rxLane = some c.lane ∧
        ((applyRxChange c k).wave c.wave).rxMode = c.mode) ∧
      (c.kind = 2 → ((applyRxChange c k).wave c.wave).rxMode = 0))

/-- Ports train, retrain, go down and are enabled. A cold training of an enabled port that is not up leaves it up with
the common version when four lanes carry traffic, or down until 100 ms have passed, with 0x0609; then TRAINING_RETRY
trains it again. A port that is up goes down when its cause holds: its state is down, its retry buffer is empty, and no
other port goes down with it. A fast retrain by the host numbers the retry buffer from 0 again, and ends in the port
going down when it fails. A step-up retrains the lanes below their highest mode one after another. Disabling a port
leaves it disabled with its lasers off and enabling one makes it train. The injection register takes its fields, an
interval of 0 counting as a clamp to 1, in whole or half by half, and the counters clear. (R273, R275, R278, R279, R290,
R292, R293) -/
def Obligations.PortsTrainAndGoDown : Prop :=
  ∀ (p : Fin 8) (s : State),
    (∀ (o : TrainObs) (k : Fin 6), (s.port p).enable = true → s.portUp p = false → o.failed = some k → ∃ t,
      exec (.portColdTrain p o) s = .next t ∧ (t.port p).state = 0 ∧ (t.port p).downAt = s.now ∧ OtherPorts p s t ∧
      SameBut (eventParts ++ [.ports]) s t) ∧
    (∀ (o : TrainObs) (v : Byte) (n : Nat), v = (if 0x12 ≤ o.partnerVer.toNat then 0x12#8 else 0x10#8) →
      n = ((List.range 18).filter (fun k => (trainLane s p).any (fun x => x.2 == k) &&
        chooseMode (s.portRec p) v (o.txEnob64.getD k 0) (o.txEnob32.getD k 0) != 0)).length →
      (s.port p).enable = true → s.portUp p = false → o.failed = none →
      (4 ≤ n → ∃ t, exec (.portColdTrain p o) s = .next t ∧ (t.port p).state = (if n = 16 then 2 else 3) ∧
        (t.port p).lanes = n ∧ (t.port p).version = v ∧ (t.port p).partnerVer = o.partnerVer ∧ (t.port p).rxExpect = 0 ∧
        (t.port p).retry = [] ∧ OtherPorts p s t) ∧
      (n < 4 → ∃ t, exec (.portColdTrain p o) s = .next t ∧ (t.port p).state = 0)) ∧
    ((s.port p).enable = true → (s.port p).state = 0 → (s.port p).downAt + 100000000 ≤ s.now → ∃ t,
      exec (.trainingRetry p) s = .next t ∧ t.port p = { s.port p with state := 1 } ∧ OtherPorts p s t ∧
      SameBut [.ports] s t) ∧
    (s.portUp p = true → ∀ c ∈ ([.retrainFailed, .pllUnlock, .noLight] ++
        (if (s.port p).lanes < 4 then [.fewLanes] else []) ++ (if (s.port p).enable then [] else [.disabled]) ++
        (if (s.port p).lastLcf + 1000000 ≤ s.now then [.lcfTimeout] else []) : List PortDownCause), ∃ t,
      exec (.portDown p c) s = .next t ∧ (t.port p).state = 0 ∧ (t.port p).retry = [] ∧ (t.port p).downAt = s.now ∧
      (∀ j, j ≠ p.val → (t.port j).state = (s.port j).state)) ∧
    (s.portUp p = true → (s.port p).lastLcf + 1000000 ≤ s.now → ∃ t, exec (.lcfTimeout p) s = .next t ∧
      t = portDown p .lcfTimeout s ∧ (t.port p).state = 0) ∧
    (s.now < (s.port p).lastLcf + 1000000 → exec (.lcfTimeout p) s = .next s) ∧
    (s.portUp p = true → ∃ t, exec (.laserShutdown p) s = .next t ∧ (t.port p).state = 0 ∧ (t.port p).dark = true ∧
      (∀ k, k < 18 → ((t.port p).wave k).monR = -2048)) ∧
    (∀ a b, s.portUp p = true →
      (∃ t, exec (.exoStepUp p a b) s = .next t ∧ OtherPorts p s t ∧ SameBut [.ports] s t ∧
        (((s.port p).waves.map (fun w => w.1)).Nodup → (t.port p).lanes = (s.port p).lanes)) ∧
      ((∀ x ∈ (s.port p).carrying, x.2.state = 3 → (s.portRec p).modeMax ≤ x.2.mode) →
        exec (.exoStepUp p a b) s = .next s) ∧
      (∀ k x m, (s.port p).carrying = [(k, x)] → x.state = 3 → x.mode < (s.portRec p).modeMax →
        m = chooseMode (s.portRec p) (s.port p).version (a.getD k 0) (b.getD k 0) →
        ∃ t c d, exec (.exoStepUp p a b) s = .next t ∧ ((t.port p).wave k).state = 5 ∧
        (t.port p).changes = (s.port p).changes ++ [c, d] ∧ c.kind = 2 ∧ d.kind = (if m = 0 then 5 else 4) ∧ d.mode = m ∧
        c.point < d.point)) ∧
    (∀ (o : TrainObs), s.portUp p = true →
      (o.failed = none → 4 ≤ (s.port p).lanes → ((s.port p).waves.map (fun w => w.1)).Nodup →
        (∀ x ∈ (s.port p).carrying,
          chooseMode (s.portRec p) (s.port p).version (o.txEnob64.getD x.1 0) (o.txEnob32.getD x.1 0) ≠ 0) →
        ∃ t, exec (.exoRetrain p o) s = .next t ∧
        (t.port p).retry.map (fun x => x.2) = (s.port p).retry.map (fun x => x.2) ∧
        (t.port p).retry.map (fun x => x.1) = List.range (s.port p).retry.length ∧
        (t.port p).nextSeq = (s.port p).retry.length ∧ (t.port p).rxExpect = 0 ∧ (t.port p).rtt = o.rttNs ∧
        (t.port p).lanes = (s.port p).lanes ∧ OtherPorts p s t) ∧
      (o.failed ≠ none → ∃ t, exec (.exoRetrain p o) s = .next t ∧ (t.port p).state = 0)) ∧
    (∃ t, exec (.exoEnable p false) s = .next t ∧ (t.port p).enable = false ∧ (t.port p).state = 4 ∧
      (∀ k, ((t.port p).wave k).monL = -2048)) ∧
    ((s.port p).enable = true → exec (.exoEnable p true) s = .next s) ∧
    ((s.port p).enable = false → ∃ t, exec (.exoEnable p true) s = .next t ∧
      t.port p = { s.port p with enable := true, state := 1 } ∧ OtherPorts p s t ∧ SameBut [.ports] s t) ∧
    (∀ (v : BitVec 64), ∃ t, exec (.exoInjWrite p v .full) s = .next t ∧ OtherPorts p s t ∧
      t.port p = { s.port p with
        injInterval := max 1 (v.extractLsb' 32 16).toNat, injCount := (v.extractLsb' 16 16).toNat,
        injMask := (v.extractLsb' 8 5).toNat, injKind := (v.extractLsb' 0 2).toNat, injNext := 0 } ∧
      (v.extractLsb' 32 16 = 0#16 → t.cnt.clampDev = { lastId := 0x15, count := satAdd 48 s.cnt.clampDev.count 1 }) ∧
      (v.extractLsb' 32 16 ≠ 0#16 → SameBut [.ports] s t) ∧ SameBut [.ports, .clampCounters] s t) ∧
    (∀ (v : BitVec 64), (∃ t, exec (.exoInjWrite p v .low) s = .next t ∧ OtherPorts p s t ∧ SameBut [.ports] s t ∧
      t.port p = { s.port p with
        injCount := (v.extractLsb' 16 16).toNat, injMask := (v.extractLsb' 8 5).toNat,
        injKind := (v.extractLsb' 0 2).toNat, injNext := 0 }) ∧
      ((s.port p).injCount < 65536 → (s.port p).injMask < 32 → (s.port p).injKind < 4 →
        ∃ t, exec (.exoInjWrite p v .high) s = .next t ∧ OtherPorts p s t ∧ SameBut [.ports, .clampCounters] s t ∧
        t.port p = { s.port p with injInterval := max 1 (v.extractLsb' 0 16).toNat, injNext := 0 })) ∧
    (∃ t, exec (.exoCntClear p) s = .next t ∧ OtherPorts p s t ∧ SameBut [.ports] s t ∧
      t.port p = { s.port p with injected := 0, replays := 0, holds := 0, lcfLost := 0 })

/-- The messages and time limits of agreement rounds. A message of a group item with another fingerprint is refused
with 0x0809, and one of a group that is not bound here does nothing. A CALL makes a participant of the rack enter the
round sequence, its REPORT going to the coordinator. A REPORT is held; after 600 microseconds it makes a coordinator
propose no more. A PROPOSE is accepted unless a later round was reported, an ACCEPT of the present round counts once, and
a DECIDE is taken once; a group's removes the ranks it names. At 600 microseconds of a round a quorum of REPORTs is
enough, at 1,000 the coordinator proposes and decides no more, and at 1,200 the next round starts, or after round 3 the
item fails. A drain is called by a suspect module while a slot is free, every 10 s, and fapDrainGo completes a drain in
state 1. What a message sends leaves through the ports. (R326, R327, R328, R329, R330, R332, R333, R338, R339) -/
def Obligations.CinchRounds : Prop :=
  (∀ (p : Fin 8) (g : BitVec 12) (q : BitVec 32) (m : CinchMsg) (s : State), m.item = .group p g q →
    ∀ c ∈ [Instr.cinchCall m, .cinchReport m, .cinchPropose m, .cinchAccept m, .cinchDecide m],
    (s.group p.val g.toNat = none → exec c s = .next s) ∧
    (∀ x, s.group p.val g.toNat = some x → x.fp ≠ m.fp →
      exec c s = .next (eventP 0x0809 2 p.val (le 1 p.val ++ le 2 g.toNat ++ le 2 m.sender) s))) ∧
  (∀ (m : CinchMsg) (s : State), m.item = .rack →
    (∀ r, s.roundOf .rack = some r → (∀ x ∈ s.fap.rounds, x.item = .rack → x.decided = none) →
      exec (.cinchCall m) s = .next s) ∧
    (takesPart s .rack = false → s.fap.rounds = [] → exec (.cinchCall m) s = .next s) ∧
    (∀ c b, (∀ x ∈ s.fap.rounds, x.item = .rack → x.decided ≠ none) → takesPart s .rack = true →
      coordinatorOf s .rack 0 = some c → coordinates s .rack 0 = false →
      b = .reportRack (downModules s) s.holdsFatal s.lateCount none →
      ∃ t y, exec (.cinchCall m) s = .next t ∧ t.roundOf .rack = some y ∧ y.start = s.now ∧ y.round = 0 ∧
        y.cause = m.cause ∧ y.decided = none ∧
        t.fap.sentMsgs = (c, msgOf s .rack 0 m.cause b) :: s.fap.sentMsgs ∧ SameBut [.ports, .agreement] s t)) ∧
  (∀ (m : CinchMsg) (s : State) (i : CinchItem) (r : Round), m.item = i →
    (∀ p g q, i = .group p g q → ∃ x, s.group p.val g.toNat = some x ∧ x.fp = m.fp) → s.roundOf i = some r →
    (r.decided = none → r.proposed = none → coordinates s i r.round = false ∨ r.begin_ + 600000 < s.now →
      ∃ t y, exec (.cinchReport m) s = .next t ∧ t.roundOf i = some y ∧ m ∈ y.reports ∧ y.proposed = none ∧
        SameBut [.agreement] s t) ∧
    (∀ c, r.decided = none → coordinatorOf s i m.round = some c → r.round ≤ m.round →
      isProposal m.body = true → takesPart s i = true → ∃ t y, exec (.cinchPropose m) s = .next t ∧
      t.roundOf i = some y ∧ y.accepted = some (m.round, m.body) ∧
      t.fap.sentMsgs = (c, msgOf s i m.round m.cause .accept) :: s.fap.sentMsgs ∧ SameBut [.ports, .agreement] s t) ∧
    (isProposal m.body = false ∨ m.round < r.round ∨ r.decided ≠ none → exec (.cinchPropose m) s = .next s) ∧
    (r.round = m.round → r.proposed ≠ none → m.sender ∈ participants s i →
      r.accepts.length + 1 < quorum s i → ∃ t y, exec (.cinchAccept m) s = .next t ∧ t.roundOf i = some y ∧
      y.accepts = (if m.sender ∈ r.accepts then r.accepts else r.accepts ++ [m.sender]) ∧ SameBut [.agreement] s t) ∧
    (r.round ≠ m.round → exec (.cinchAccept m) s = .next s) ∧
    (r.decided ≠ none ∨ takesPart s i = false → exec (.cinchDecide m) s = .next s)) ∧
  (∀ (m : CinchMsg) (s : State) (r : Round) (d : RackProposal), m.item = .rack → s.roundOf .rack = some r →
    r.decided = none → m.body = .proposalRack d → takesPart s .rack = true → s.col.streams = [] → s.col.colls = [] →
    ∃ t y, exec (.cinchDecide m) s = .next t ∧ t.roundOf .rack = some y ∧ y.decided = some (.proposalRack d) ∧
      t.fap.failedModules = unionOf [s.fap.failedModules, d.failed] ∧
      (∀ n, s.node = some n → n % 64 ∈ d.failed → t.col.coord.valid = false)) ∧
  (∀ (m : CinchMsg) (s : State) (r : Round) (p : Fin 8) (g : BitVec 12) (q : BitVec 32) (x : Group) (d : GroupProposal),
    m.item = .group p g q → s.group p.val g.toNat = some x → x.fp = m.fp → s.roundOf m.item = some r →
    r.decided = none → m.body = .proposalGroup d → takesPart s m.item = true → ¬ x.rank ∈ x.removed →
    ¬ x.rank ∈ d.removed → s.collOf p.val g.toNat q.toNat = none →
    ∃ t y, exec (.cinchDecide m) s = .next t ∧ t.roundOf m.item = some y ∧ y.decided = some (.proposalGroup d) ∧
      t.group p.val g.toNat = some { x with
        removed := if d.removed = [] then x.removed else unionOf [x.removed, d.removed] } ∧
      SameBut (eventParts ++ [.groups, .collectives, .agreement, .fapCounters]) s t) ∧
  (∀ (i : CinchItem) (r : Round) (s : State), s.roundOf i = some r →
    (s.now < r.begin_ + 600000 ∨ r.begin_ + 1000000 ≤ s.now → exec (.reportCollectTimeout i) s = .next s) ∧
    (r.begin_ + 600000 ≤ s.now → s.now < r.begin_ + 1000000 →
      exec (.reportCollectTimeout i) s = .next (tryPropose applyItem i (some (quorum s i)) s)) ∧
    (r.begin_ + 1000000 ≤ s.now → ∃ t, exec (.acceptCollectTimeout i) s = .next t ∧
      t.roundOf i = some { r with deciding := false } ∧ SameBut [.agreement] s t) ∧
    (s.now < r.begin_ + 1000000 → exec (.acceptCollectTimeout i) s = .next s) ∧
    (r.decided ≠ none ∨ s.now < r.start + 1200000 * (r.round + 1) → exec (.cinchRoundTimeout i) s = .next s) ∧
    (r.decided = none → r.start + 1200000 * (r.round + 1) ≤ s.now → r.round < 3 →
      exec (.cinchRoundTimeout i) s = .next (startRound applyItem i (r.round + 1) s)) ∧
    (r.decided = none → r.start + 1200000 * (r.round + 1) ≤ s.now → 3 ≤ r.round → ∃ t,
      exec (.cinchRoundTimeout i) s = .next t ∧
      (i = .rack → t.roundOf i = none ∧ t.fap.failed = satAdd 15 s.fap.failed 1 ∧
        SameBut [.agreement, .fapCounters] s t))) ∧
  (∀ s : State,
    (s.fap.suspect = true → s.node ≠ none → (∀ a, s.fap.drainAt = some a → a + 10000000000 ≤ s.now) →
      exec (.drainCall true) s =
        .next (callRack 5 (s.moduleIndex.getD 0) (modFap (fun a => { a with drainAt := some s.now }) s))) ∧
    exec (.drainCall false) s = .next s ∧
    (∀ t0, s.fap.drainAt = some t0 → s.now < t0 + 10000000000 → exec (.drainCall true) s = .next s) ∧
    (s.fap.drainState = 1 → ∃ t, exec .fapDrainGo s = .next t ∧ t.fap.drainState = 3 ∧ t.col.coord.valid = false ∧
      SameBut (partsOf .fapDrainGo) s t) ∧
    (s.fap.drainState ≠ 1 → exec .fapDrainGo s = .next s) ∧
    (∃ t, exec .fapRoundCntClear s = .next t ∧ t.fap.failed = 0 ∧ t.fap.later = 0 ∧ t.fap.first = 0 ∧ t.fap.called = 0 ∧
      t.fap.katFail = s.fap.katFail ∧ t.fap.mismatches = s.fap.mismatches ∧ SameBut [.fapCounters] s t) ∧
    (∃ t, exec .fapShadowCntClear s = .next t ∧ t.fap.katFail = 0 ∧ t.fap.mismatches = 0 ∧ t.fap.skipped = 0 ∧
      t.fap.samples = 0 ∧ t.fap.failed = s.fap.failed ∧ t.fap.called = s.fap.called ∧ SameBut [.fapCounters] s t))

/-- Counters clear one by one, a snapshot covers every cycle, and time counts reference edges. A clear sets the
counters of its register to zero, those of one partition for a register of a partition, and changes nothing else; a
clamp of the same cycle is counted after the clear. A clear of a stall block starts its count again from now. A
snapshot gives each captured block counts whose sum is the cycles since its clear and stamps the time. A reference
edge adds 10 ns, counts its cycles in every engine's block where the engine stands, and, at a microsecond boundary, one array-microsecond for every array in fill and one row-microsecond
for every row in excess. (R35, R102, R129, R194, R323, R425, R428, R431, R432, R437, R438) -/
def Obligations.CountersClearAndCapture : Prop :=
  (∀ (p : Fin 8) (s : State),
    (∃ t, exec (.cntAccClear p) s = .next t ∧ tabGet {} t.cnt.acc p = {} ∧
      (∀ j, j ≠ p.val → tabGet {} t.cnt.acc j = tabGet {} s.cnt.acc j) ∧ SameBut [.accCounters] s t) ∧
    (∃ t, exec (.cntLateClear p) s = .next t ∧ tabGet {} t.cnt.late p = {} ∧
      (∀ j, j ≠ p.val → tabGet {} t.cnt.late j = tabGet {} s.cnt.late j) ∧ SameBut [.lateCounters] s t) ∧
    (∃ t, exec (.cntSelvClear p) s = .next t ∧ tabGet {} t.cnt.selv p = {} ∧
      (∀ j, j ≠ p.val → tabGet {} t.cnt.selv j = tabGet {} s.cnt.selv j) ∧ SameBut [.selvCounters] s t) ∧
    (∃ t, exec (.tcsAdmCntClear p) s = .next t ∧ tabGet {} t.tcs.admCnt p = {} ∧
      (∀ j, j ≠ p.val → tabGet {} t.tcs.admCnt j = tabGet {} s.tcs.admCnt j) ∧ SameBut [.admission] s t) ∧
    (∃ t, exec (.colCntClear p) s = .next t ∧ tabGet {} t.col.cnt p = {} ∧
      (∀ j, j ≠ p.val → tabGet {} t.col.cnt j = tabGet {} s.col.cnt j) ∧ SameBut [.colCounters] s t) ∧
    (∃ t, exec (.memRaClear p) s = .next t ∧ tabGet 0 t.mem.raFetched p = 0 ∧ tabGet 0 t.mem.raDiscarded p = 0 ∧
      (∀ j, j ≠ p.val → tabGet 0 t.mem.raFetched j = tabGet 0 s.mem.raFetched j ∧
        tabGet 0 t.mem.raDiscarded j = tabGet 0 s.mem.raDiscarded j) ∧ SameBut [.runAhead] s t) ∧
    (∃ t, exec (.cntClampClear (some p) none) s = .next t ∧ tabGet {} t.cnt.clamp p = {} ∧
      t.cnt.clampDev = s.cnt.clampDev ∧ (∀ j, j ≠ p.val → tabGet {} t.cnt.clamp j = tabGet {} s.cnt.clamp j) ∧
      SameBut [.clampCounters] s t) ∧
    (∀ id : Byte, ∃ t, exec (.cntClampClear (some p) (some id)) s = .next t ∧
      tabGet {} t.cnt.clamp p = { lastId := id.toNat, count := 1 } ∧ t.cnt.clampDev = s.cnt.clampDev ∧
      (∀ j, j ≠ p.val → tabGet {} t.cnt.clamp j = tabGet {} s.cnt.clamp j) ∧ SameBut [.clampCounters] s t)) ∧
  (∀ s : State,
    (∃ t, exec (.cntClampClear none none) s = .next t ∧ t.cnt.clampDev = {} ∧ t.cnt.clamp = s.cnt.clamp ∧
      SameBut [.clampCounters] s t) ∧
    (∀ id : Byte, ∃ t, exec (.cntClampClear none (some id)) s = .next t ∧
      t.cnt.clampDev = { lastId := id.toNat, count := 1 } ∧ t.cnt.clamp = s.cnt.clamp ∧ SameBut [.clampCounters] s t) ∧
    (∃ t, exec .pwrCntClear s = .next t ∧ t.pwr = { s.pwr with stretches := 0, excessUs := 0, capEpisodes := 0 } ∧
      SameBut [.power] s t) ∧
    (∃ t, exec .cntFillClear s = .next t ∧ t.cnt.fillPeriods = 0 ∧ t.cnt.fillUs = 0 ∧ SameBut [.fillCounter] s t) ∧
    (∃ t, exec .nvtGcClear s = .next t ∧ t.nvt = { s.nvt with throttleUs := 0, episodes := 0 } ∧
      SameBut [.collection] s t) ∧
    (∀ e : StallEngine, ∃ t, exec (.cntStallClear e) s = .next t ∧
      tabGet {} t.cnt.stall (stallKey e) = { clearedAt := s.now, counts := [] } ∧ t.cnt.snap = s.cnt.snap ∧
      (∀ k, k ≠ stallKey e → tabGet {} t.cnt.stall k = tabGet {} s.cnt.stall k) ∧ SameBut [.stallCounters] s t)) ∧
  (∀ (parts : Byte) (shared : Bool) (s : State),
    let taken (k : Nat) : Prop := (∃ p, p < 8 ∧ parts.getLsbD p = true ∧ k ∈ s.stallEngines p) ∨
      (shared = true ∧ 520 ≤ k ∧ k < 544)
    let live (k : Nat) : Stall := tabGet {} s.cnt.stall k
    ∃ t, exec (.cntSnap parts shared) s = .next t ∧ t.cnt.snapTime = s.now ∧ SameBut [.free, .stallCounters] s t ∧
      (∀ k, taken k →
        ((List.range 16).map (fun j => tabGet 0 (live k).counts j)).sum + (live k).unsettled ≤
          stallUnit * (live k).elapsed k s.now →
        (tabGet [] t.cnt.snap k).length = 16 ∧ (tabGet [] t.cnt.snap k).sum = (live k).elapsed k s.now ∧
        (tabGet {} t.cnt.stall k).clearedAt = (live k).clearedAt ∧ (tabGet {} t.cnt.stall k).unsettled = 0) ∧
      (∀ k, ¬ taken k → tabGet [] t.cnt.snap k = tabGet [] s.cnt.snap k ∧
        tabGet {} t.cnt.stall k = live k)) ∧
  (∀ s : State,
    (∀ u, u = modClk (fun c => { c with time := c.time + 10 }) s → ∃ t, exec .clkRefEdge s = .next t ∧
      t.cnt.snap = s.cnt.snap ∧ (∀ k ∈ stallKeys, tabGet {} t.cnt.stall k =
        if stallSlot u k = 11 ∧ lostPart u k = 0 then tabGet {} s.cnt.stall k
        else (tabGet {} s.cnt.stall k).count
          ((tabGet {} s.cnt.stall k).elapsed k (s.now + 10) - (tabGet {} s.cnt.stall k).elapsed k s.now)
          (lostPart u k) (stallSlot u k))) ∧
    ((s.now + 10) / 1000 = s.now / 1000 → ∃ t, exec .clkRefEdge s = .next t ∧ t.clk.time = s.clk.time + 10 ∧
      SameBut [.time, .stallCounters] s t) ∧
    ((s.now + 10) / 1000 ≠ s.now / 1000 → ∃ t, exec .clkRefEdge s = .next t ∧ t.clk.time = s.clk.time + 10 ∧
      t.cnt.fillUs = satAdd 40 s.cnt.fillUs s.filling ∧ t.cnt.fillPeriods = s.cnt.fillPeriods ∧
      t.pwr = { s.pwr with
        excessUs := satAdd 20 s.pwr.excessUs (s.pwr.rows.filter (fun r => r.2.excess (s.now + 10))).length } ∧
      SameBut [.power, .time, .stallCounters, .fillCounter] s t))

/-- Migrations in progress, the mailbox, T1 maintenance and the hardware records. A demand for a tier where a bolt has
no copy starts its migration once a copy is allocated there, or in T0 for T1, a bolt that leaves T2 in a single-home region
issuing its HOME record; while no copy can be allocated, or the bolt lies there already or migrates, it starts none, and a
victim whose own switch needs a record leaves first. A demand at an address in no region records 0x0401. A migration that
ends leaves a copy in its destination, applies the bytes held meanwhile and is no longer in progress; a mailbox command that
waits is then tried again. The mailbox takes its command at go and does what it says with status 0, or gives its reason and
changes nothing else; it is busy while its command waits, and a go written while busy is ignored. The scrubber records what
its reads meet, the end of a rehash records 0x0409, and a due hardware record is written to NOR. (R73, R204, R206, R207,
R208, R210, R217, R229, R230, R231, R250) -/
def Obligations.MigrationsMailboxAndRecords : Prop :=
  (∀ (p : Fin 8) (dva : BitVec 52) (pend : Bool) (tier : Tier) (agent : BitVec 8) (errs : List ReadError) (s : State)
    (b sl : Nat), b = dva.toNat / 65536 → sl = (if pend then 1 - s.curSlot p b else s.curSlot p b) →
    (s.regionAt p dva.toNat = none → exec (.demandMigration p dva pend tier agent errs) s =
      .next (eventP 0x0401 2 p (le 1 p ++ le 1 agent.toNat ++ le 7 dva.toNat ++ le 2 0xFFFD ++ le 4 0) s)) ∧
    (∀ r, s.regionAt p dva.toNat = some r →
      ((s.bolt p sl b).isZero = true ∨ (s.bolt p sl b).has tier = true ∨ tier = .t2 ∨ s.migrating p sl b = true ∨
        (tier = .t1 ∧ (s.bolt p sl b).has .t0 = true) ∨ demandRoom s p sl b r tier = none →
        exec (.demandMigration p dva pend tier agent errs) s = .next s) ∧
      (∀ x s1, (s.bolt p sl b).isZero = false → (s.bolt p sl b).has tier = false → tier ≠ .t2 →
        ¬ (tier = .t1 ∧ (s.bolt p sl b).has .t0 = true) → s.migrating p sl b = false →
        demandRoom s p sl b r tier = some (x, s1) →
        (x = tier ∨ (tier = .t1 ∧ x = .t0)) ∧
        (homesIn s s1 ≠ [] ∨ wroteThrottled s s1 = true →
          exec (.demandMigration p dva pend tier agent errs) s = .next (beginHomes s s1)) ∧
        (homesIn s s1 = [] → wroteThrottled s s1 = false → s.regionAt p (b * 65536) = some r →
          ∃ t, exec (.demandMigration p dva pend tier agent errs) s = .next t ∧
          SameBut (partsOf (.demandMigration p dva pend tier agent errs)) s t ∧
          (errs = [] → t.migrating p sl b = true ∧
            t.mem.migrations = s.mem.migrations ++ [{ part := p, slot := sl, bolt := b, dst := x, held := [] }] ∧
            t.mem.bolts = s1.mem.bolts ∧ t.mem.bytes = s.mem.bytes ∧
            t.nvt.journal = s1.nvt.journal ++
              (if r.single = true ∧ (s1.bolt p sl b).has .t2 = true then [.home p sl b] else []) ∧
            SameBut [.bolts, .flash, .checkpoints, .journal] s t))))) ∧
  (∀ (p : Fin 8) (dva : BitVec 52) (pend : Bool) (s : State) (b sl : Nat), b = dva.toNat / 65536 →
    sl = (if pend then 1 - s.curSlot p b else s.curSlot p b) →
    (JRec.home p sl b ∈ s.nvt.journal ∨ FlashWork.homeCopy p sl b ∈ s.nvt.work ∨ s.migrating p sl b = false →
      exec (.migrationComplete p dva pend) s = .next s) ∧
    (JRec.home p sl b ∉ s.nvt.journal → FlashWork.homeCopy p sl b ∉ s.nvt.work → ∀ m,
      s.mem.migrations.find? (fun m => m.part == p.val && m.slot == sl && m.bolt == b) = some m →
      ∃ t, exec (.migrationComplete p dva pend) s = .next (pumpMailbox p t) ∧ t.migrating p sl b = false ∧
        (∀ r, s.regionAt p (b * 65536) = some r →
          (m.held = [] → (t.bolt p sl b).has m.dst = true ∧ t.mem.bytes = s.mem.bytes) ∧
          (∀ a v, m.held = [(a, v)] → rawByte t.mem.bytes (byteKey p sl a) = v ∧
            ∀ k, k ≠ byteKey p sl a → rawByte t.mem.bytes k = rawByte s.mem.bytes k)) ∧
        (m.cmd = none → t.tcs = s.tcs) ∧ SameBut [.inflight, .bolts, .bytes, .flash] s t)) ∧
  (∀ (p : Fin 8) (s : State),
    (∀ w, s.mboxCmd p = some w → exec (.memRgnGo p) s = .next s ∧ pumpMailbox p s = runMailbox p w s) ∧
    (s.mboxCmd p = none → exec (.memRgnGo p) s = .next (runMailbox p (mboxWord s p) s) ∧ pumpMailbox p s = s)) ∧
  (∀ (p : Fin 8) (w : CmdWord) (s v t : State) (x : TxCmd) (reason : Nat), x = txFields w →
    reason = (if x.op < 0x33 ∨ 0x37 < x.op then 0xA else txReason s p x) → t = runMailbox p w s →
    v = mailboxCmd p x s →
    (reason ≠ 0 → tabGet 0 t.mem.mboxStatus p = reason ∧ t.mboxCmd p = none ∧ t.mem.mbox = s.mem.mbox ∧
      SameBut [.mailbox] s t) ∧
    (reason = 0 → txWaits s p x.op x.dva x.len = true → t.mboxCmd p = some w ∧ t.mem.mbox = s.mem.mbox ∧
      t.mem.mboxStatus = s.mem.mboxStatus ∧ SameBut [.mailbox] s t) ∧
    (reason = 0 → txWaits s p x.op x.dva x.len = false → homesIn s v ≠ [] ∨ wroteThrottled s v = true →
      t.mboxCmd p = some w ∧ t.mem.mboxStatus = s.mem.mboxStatus ∧ SameBut [.mailbox] (beginHomes s v) t) ∧
    (reason = 0 → txWaits s p x.op x.dva x.len = false → homesIn s v = [] → wroteThrottled s v = false →
      tabGet 0 t.mem.mboxStatus p = 0 ∧ t.mboxCmd p = none ∧ t.mem.mbox = s.mem.mbox ∧ SameBut [.mailbox] v t ∧
        (x.op = 0x33 → v = doPin p x s) ∧ (x.op = 0x34 → v = setPins p x.dva x.len none s) ∧
        (x.op = 0x35 → v = doAttr p x s) ∧ (x.op = 0x36 → v = doMap p x s) ∧
        (x.op = 0x37 → v = unmapExact p x s))) ∧
  (∀ s : State,
    exec (.patrolScrub []) s = .next s ∧
    (∀ ch bank row inl, exec (.patrolScrub [.t1Corrected ch bank row inl]) s =
      .next (eventD 0x0407 1 (le 2 ch.val ++ le 2 bank.val ++ le 2 row.toNat ++ le 1 (if inl then 2 else 1)) s)) ∧
    (∀ ch bank row addr q stored, ∃ t, exec (.patrolScrub [.t1Uncorrectable ch bank row addr q stored]) s = .next t ∧
      t = noteT1Error ch.val (eventP 0x0408 2 q.val
        (le 2 ch.val ++ le 2 bank.val ++ le 2 row.toNat ++ le 7 addr.toNat ++ le 1 q.val ++ le 1 12) s)) ∧
    (∀ ch bank row, exec (.patrolScrub [.t1Unmapped ch bank row]) s =
      .next (noteT1Error ch.val (eventD 0x0408 2
        (le 2 ch.val ++ le 2 bank.val ++ le 2 row.toNat ++ le 7 0 ++ le 1 0 ++ le 1 12) s))) ∧
    (∀ ch : Fin 192, (ch.val ∈ s.mem.t1Rehash → ∃ t, exec (.t1RehashComplete ch) s = .next t ∧
        t.mem.t1Rehash = s.mem.t1Rehash.filter (fun c => c ≠ ch.val) ∧ t.mem.t1Errors = s.mem.t1Errors ∧
        t = eventD 0x0409 1 (le 2 ch ++ le 1 2 ++ le 3 s.mem.t1Pages ++ le 4 s.mem.t1Rate)
          (modMem (fun m => { m with t1Rehash := m.t1Rehash.filter (fun c => c ≠ ch.val) }) s) ∧
        SameBut (eventParts ++ [.t1Faults]) s t) ∧
      (ch.val ∉ s.mem.t1Rehash → exec (.t1RehashComplete ch) s = .next s)) ∧
    (s.wmc.hwDirty = true → ∃ t, exec .hwRecordWrite s = .next t ∧
      t.wmc = { s.wmc with nor := { s.wmc.nor with hw := s.mxa.hw }, hwDirty := false } ∧
      SameBut [.free, .secrets, .records] s t) ∧
    (s.wmc.hwDirty = false → exec .hwRecordWrite s = .next s))

/-- Media maintenance relocates, and changes no byte. Each trigger of the table relocates every valid page of its
block unless the block relocates already: static wear levelling the block with the fewest erases into a worn block
more than 400 erases above it on the channel, read-disturb refresh from 60,000 reads, retention refresh at 70 % or 180
days or after a soft decode, garbage collection the closed block with the fewest valid pages. Below its trigger none
of them changes anything. A scan adds its page reads and measures corrected bits. None changes where a bolt lies in
the map or any byte. (R238, R239, R241) -/
def Obligations.FlashMediaMaintenance : Prop :=
  (∀ (b : Nat) (s : State),
    (∃ t, exec (.readDisturbRefresh b) s = .next t ∧ SameBut [.flash, .checkpoints, .collection] s t) ∧
    ((s.fblock b).reads < 60000 → exec (.readDisturbRefresh b) s = .next s) ∧
    (60000 ≤ (s.fblock b).reads → relocating s b = true → exec (.readDisturbRefresh b) s = .next s) ∧
    (60000 ≤ (s.fblock b).reads → relocating s b = false → (s.fblock b).pages ≠ [] → ∃ t,
      exec (.readDisturbRefresh b) s = .next t ∧ t.fblock b = s.fblock b ∧
      t.nvt.work = s.nvt.work ++ (s.fblock b).pages.map (fun g => .relocCopy g b) ∧ SameBut [.checkpoints] s t) ∧
    (60000 ≤ (s.fblock b).reads → relocating s b = false → (s.fblock b).pages = [] → (s.fblock b).bad = false →
      (s.fblock b).used ≠ 0 → ∃ t, exec (.readDisturbRefresh b) s = .next t ∧ t.fblock b = (s.fblock b).erase ∧
      (∀ j, j ≠ b → t.fblock j = s.fblock j) ∧ SameBut [.flash, .collection] s t) ∧
    (∀ pct errs, (s.fblock b).pages = [] → exec (.retentionScan b pct errs) s = .next s) ∧
    (∀ pct errs, (s.fblock b).pages ≠ [] → ∃ t, exec (.retentionScan b pct errs) s = .next t ∧
      SameBut (partsOf (.retentionScan b pct errs)) s t ∧
      (errs = [] → t.fblock b = { s.fblock b with reads := (s.fblock b).reads + (s.fblock b).used, correctedPct := pct } ∧
        (∀ j, j ≠ b → t.fblock j = s.fblock j) ∧ SameBut [.flash] s t)) ∧
    ((s.fblock b).pages = [] ∨ relocating s b = true → exec (.retentionRefresh b) s = .next s) ∧
    ((s.fblock b).pages ≠ [] → relocating s b = false →
      70 ≤ (s.fblock b).correctedPct ∨ (s.fblock b).at_ + 15552000000000000 ≤ s.now ∨ (s.fblock b).soft ≠ [] → ∃ t,
      exec (.retentionRefresh b) s = .next t ∧ t.fblock b = s.fblock b ∧
      t.nvt.work = s.nvt.work ++ (s.fblock b).pages.map (fun g => .relocCopy g b) ∧ SameBut [.checkpoints] s t) ∧
    ((s.fblock b).correctedPct < 70 → s.now < (s.fblock b).at_ + 15552000000000000 → (s.fblock b).soft = [] →
      exec (.retentionRefresh b) s = .next s) ∧
    (∀ x, leastErased s = some x → x.2.erases + 400 < (s.fblock b).erases → (s.fblock b).isFree = true →
      b % 16 = x.1 % 16 → relocating s x.1 = false → s.fblock x.1 = x.2 → ∃ t,
      exec (.staticWearLevelling b) s = .next t ∧ tabGet 0 t.nvt.open_ (16 + b % 16) = b + 1 ∧
      t.nvt.work = s.nvt.work ++ x.2.pages.map (fun g => .relocCopy g x.1) ∧ t.nvt.blocks = s.nvt.blocks ∧
      SameBut [.flash, .checkpoints] s t) ∧
    (∀ x, leastErased s = some x → (s.fblock b).erases ≤ x.2.erases + 400 → exec (.staticWearLevelling b) s = .next s)) ∧
  (∀ s : State,
    (gcVictim s = none → exec .garbageCollection s = .next s) ∧
    (∀ b, gcVictim s = some b → (s.fblock b).pages ≠ [] → ∃ t, exec .garbageCollection s = .next t ∧
      t.nvt.work = s.nvt.work ++ (s.fblock b).pages.map (fun g => .relocCopy g b) ∧ SameBut [.checkpoints] s t) ∧
    (∀ b, gcVictim s = some b → ∃ k, (b, k) ∈ s.nvt.blocks ∧ k.stream < 2 ∧ 1024 ≤ k.used ∧ k.bad = false ∧
      relocating s b = false ∧ ∀ x ∈ s.nvt.blocks, x.2.stream < 2 → 1024 ≤ x.2.used → x.2.bad = false →
        relocating s x.1 = false → k.pages.length ≤ x.2.pages.length))

/-- Journal records, flash programs, bad blocks and the write throttle. The oldest flash program completes, unless user
writes of its channel wait, and makes its record due: the last bolt of a commit DIR, its directory COMMIT, a copied page
RELOC, a single-home copy HOME; a bolt that is not the commit's last makes the next one due. The oldest record then takes
effect: BEGIN makes the commit take its snapshot, DIR its directory due, COMMIT makes the new image the slot's
checkpoint, RELEASED completes the command, HOME ends the migration, RELOC frees the old page and erases a block left
empty. A mailbox command that waits is tried again when the bolts of a commit are programmed and when HOME ends a
migration. A retired block counts as grown, once, and only after a failure or two soft decodes within a day. A channel
below 64 free blocks at too high a write amplification throttles, with one 0x0505 for each episode, and the waits of the
engines count as tier_wait, out of their cycles that are not settled yet (entry 53). (R238, R240, R242, R244, R245,
R249, R250, R253, R256) -/
def Obligations.JournalProgramsAndThrottle : Prop :=
  (∀ (s : State) (errs : List ReadError),
    (s.nvt.work = [] → exec (.flashProgramComplete errs) s = .next s) ∧
    (∀ w rest t, s.nvt.work = w :: rest → t = programDone w errs (modNvt (fun n => { n with work := rest }) s) →
      (wroteThrottled s t = false → exec (.flashProgramComplete errs) s = .next t ∧
        SameBut (partsOf (.flashProgramComplete errs)) s t) ∧
      (wroteThrottled s t = true →
        exec (.flashProgramComplete errs) s = .next (modNvt (fun n => { n with work := rest ++ [w] }) s)))) ∧
  (∀ (s : State) (p : Nat) (c : Commit), s.commit p = some c →
    (∀ zeros errs, c.image.bolts.drop c.bolts = zeros → (∀ z ∈ zeros, z.nonzero = false) →
      ∃ t, programDone (.ckptBolts p) errs s = pumpMailbox p t ∧ t.nvt.journal = s.nvt.journal ++ [.dir p] ∧
      t.commit p = some { c with bolts := c.image.bolts.length } ∧ SameBut [.checkpoints, .journal] s t) ∧
    (∀ zeros k more, c.image.bolts.drop c.bolts = zeros ++ k :: more → (∀ z ∈ zeros, z.nonzero = false) →
      k.nonzero = true →
      ((∃ z ∈ more, z.nonzero = true) → ∃ t, programDone (.ckptBolts p) [] s = t ∧
        t.commit p = some { c with bolts := c.bolts + zeros.length + 1 } ∧
        t.nvt.work = s.nvt.work ++ [.ckptBolts p] ∧ SameBut [.flash, .checkpoints] s t) ∧
      ((∀ z ∈ more, z.nonzero = false) → ∃ t, programDone (.ckptBolts p) [] s = pumpMailbox p t ∧
        t.nvt.journal = s.nvt.journal ++ [.dir p] ∧ t.nvt.work = s.nvt.work ∧
        t.commit p = some { c with bolts := c.image.bolts.length } ∧ SameBut [.flash, .checkpoints, .journal] s t)) ∧
    (∀ errs, ∃ t, programDone (.ckptDir p) errs s = t ∧ t.nvt.journal = s.nvt.journal ++ [.commit p] ∧
      SameBut [.journal] s t)) ∧
  (∀ (s : State) (p sl b : Nat) (g : FlashPage) (errs : List ReadError),
    (g ∈ (s.fblock b).pages → ∃ t, programDone (.relocCopy g b) [] s = t ∧
      t.nvt.journal = s.nvt.journal ++ [.reloc g b] ∧ SameBut [.flash, .journal] s t) ∧
    (s.migrating p sl b = true → ∃ t, programDone (.homeCopy p sl b) errs s = t ∧
      t.nvt.journal = s.nvt.journal ++ [.home p sl b] ∧ SameBut [.journal] s t) ∧
    (s.migrating p sl b = false → programDone (.homeCopy p sl b) errs s = s)) ∧
  (∀ s : State,
    (s.nvt.journal = [] → exec .journalRecordDurable s = .next s) ∧
    (∀ p c f rest, s.nvt.journal = .begin_ p :: rest → s.commit p = some c → s.inflight c.q c.pos = some f → ∃ t,
      exec .journalRecordDurable s = .next t ∧ t.nvt.journal = rest ∧
      t.nvt.work = s.nvt.work ++ [.ckptBolts c.part] ∧
      t.commit p = some { c with begun := true, image := ckptImage s f c.image.gen } ∧
      t.nvt.ckpts = s.nvt.ckpts ∧ SameBut [.flash, .checkpoints, .journal] s t) ∧
    (∀ p c rest, s.nvt.journal = .dir p :: rest → s.commit p = some c → ∃ t, exec .journalRecordDurable s = .next t ∧
      t.nvt.journal = rest ∧ t.nvt.work = s.nvt.work ++ [.ckptDir p] ∧ t.commit p = some { c with phase := 2 } ∧
      t.nvt.ckpts = s.nvt.ckpts ∧ SameBut [.checkpoints, .journal] s t) ∧
    (∀ p c rest, s.nvt.journal = .commit p :: rest → s.commit p = some c → ∃ t, exec .journalRecordDurable s = .next t ∧
      t.nvt.journal = rest ++ [.released p] ∧ t.ckpt p c.slot = some c.image ∧ t.commit p = some { c with phase := 3 } ∧
      (∀ i, i ≠ p * 16 + c.slot → ∀ v, (i, v) ∈ t.nvt.ckpts ↔ (i, v) ∈ s.nvt.ckpts) ∧
      SameBut [.flash, .checkpoints, .journal] s t) ∧
    (∀ p c f rest, s.nvt.journal = .released p :: rest → s.commit p = some c → s.inflight c.q c.pos = some f →
      f.started = true → ∃ t, exec .journalRecordDurable s = .next t ∧ t.nvt.journal = rest ∧ t.commit p = none ∧
      Completed c.q c.pos t ∧ OtherFlights c.q c.pos s t ∧ SameBut [.inflight, .checkpoints, .journal] s t) ∧
    (∀ p sl b rest m r, s.nvt.journal = .home p sl b :: rest →
      s.mem.migrations.find? (fun m => m.part == p && m.slot == sl && m.bolt == b) = some m →
      s.regionAt p (b * 65536) = some r → ∃ t, exec .journalRecordDurable s = .next (pumpMailbox p t) ∧ t.nvt.journal = rest ∧
      t.migrating p sl b = false ∧ (m.held = [] → (t.bolt p sl b).has m.dst = true) ∧
      SameBut [.inflight, .bolts, .bytes, .flash, .journal] s t) ∧
    (∀ g b rest, s.nvt.journal = .reloc g b :: rest →
      ((s.fblock b).pages.erase g ≠ [] → ∃ t, exec .journalRecordDurable s = .next t ∧ t.nvt.journal = rest ∧
        t.fblock b = { s.fblock b with pages := (s.fblock b).pages.erase g } ∧ (∀ j, j ≠ b → t.fblock j = s.fblock j) ∧
        SameBut [.flash, .journal] s t) ∧
      ((s.fblock b).pages.erase g = [] → (s.fblock b).bad = false → (s.fblock b).used ≠ 0 →
        relocating (modNvt (fun n => { n with journal := rest }) s) b = false →
        ∃ t, exec .journalRecordDurable s = .next t ∧ t.nvt.journal = rest ∧ t.fblock b = (s.fblock b).erase ∧
        (∀ j, j ≠ b → t.fblock j = s.fblock j) ∧ SameBut [.flash, .journal, .collection] s t))) ∧
  (∀ (b : Nat) (failed : Bool) (s : State),
    ((s.fblock b).bad = true ∨ (failed = false ∧ (s.fblock b).softTwice = false) →
      exec (.badBlockRetire b failed) s = .next s) ∧
    ((s.fblock b).bad = false → failed = true ∨ (s.fblock b).softTwice = true →
      ∃ t, exec (.badBlockRetire b failed) s = .next t ∧ t.mxa.hw.grownBad = s.mxa.hw.grownBad + 1 ∧
      t.mxa.hw.spareUsed = spareUsed (s.mxa.hw.grownBad + 1) ∧ s.mxa.hw.nvtMode ≤ t.mxa.hw.nvtMode ∧
      t.wmc.hwDirty = true ∧ SameBut (eventParts ++ [.arrayFacts, .checkpoints, .collection, .records]) s t)) ∧
  (∀ (ch : Fin 16) (us : Nat) (waiting : List StallEngine) (s u : State), u = waiting.foldl (noteTierWait us) s →
    (64 ≤ freeBlocks s ch ∨ s.throttles ch = false → exec (.gcThrottle ch us waiting) s = .next s) ∧
    (s.throttles ch = true → ch.val ∈ s.nvt.throttled → ∃ t, exec (.gcThrottle ch us waiting) s = .next t ∧
      t.nvt = { s.nvt with throttleUs := satAdd 24 s.nvt.throttleUs us } ∧ t.cnt = u.cnt ∧
      SameBut [.collection, .stallCounters] s t ∧ (waiting = [] → SameBut [.collection] s t)) ∧
    (s.throttles ch = true → ch.val ∉ s.nvt.throttled → ∃ t, exec (.gcThrottle ch us waiting) s = .next t ∧
      t.nvt.throttleUs = satAdd 24 s.nvt.throttleUs us ∧
      t.nvt.episodes = satAdd 20 s.nvt.episodes 1 ∧ t.nvt.throttled = s.nvt.throttled ++ [ch.val] ∧ t.cnt.stall = u.cnt.stall ∧
      t = eventD 0x0505 1 (le 2 ch.val ++ le 2 (freeBlocks s ch) ++ le 2 s.waMilli)
        (modNvt (fun n => { n with throttleUs := satAdd 24 n.throttleUs us,
                                   episodes := satAdd 20 n.episodes 1, throttled := n.throttled ++ [ch.val] }) u) ∧
      SameBut (eventParts ++ [.collection, .stallCounters]) s t ∧
      (waiting = [] → SameBut (eventParts ++ [.collection]) s t))) ∧
  (∀ (us : Nat) (s : State) (e : StallEngine) (b : Stall), b = tabGet {} s.cnt.stall (stallKey e) →
    5 ∈ stallCauses (stallKey e) →
    tabGet {} (noteTierWait us s e).cnt.stall (stallKey e) = { b with
      unsettled := b.unsettled - min b.unsettled (us * stallMhz (stallKey e) * stallUnit)
      counts := tabMod 0 b.counts 5 (fun m => m + min b.unsettled (us * stallMhz (stallKey e) * stallUnit)) } ∧
    (∀ k, k ≠ stallKey e → tabGet {} (noteTierWait us s e).cnt.stall k = tabGet {} s.cnt.stall k))

/-- Register accesses of the host: full, half and misaligned. A register is 64 bits wide and lies at a multiple of 8.
A full write gives all its bits, a write of one half only that half: shown on the argument registers of the mailbox,
which hold every bit. A read of 64 bits gives the register, an aligned read of
32 bits either half of it. Any other access reads as zero, changes nothing but the record, and records 0x0901 with the
function and the offset. (R8) -/
def Obligations.RegisterAccessForms : Prop :=
  (∀ (fn : Func) (off : BitVec 32) (s : State),
    exec (.misalignedRegisterAccess fn off) s = .next (eventD 0x0901 1 (le 1 fn ++ le 4 off.toNat) s) ∧
    (off.toNat % 8 ≠ 0 → s.readReg fn off.toNat = 0 ∧
      ∀ half v, exec (.registerWrite fn off half v) s = .next (eventD 0x0901 1 (le 1 fn ++ le 4 off.toNat) s)) ∧
    SameBut eventParts s (eventD 0x0901 1 (le 1 fn ++ le 4 off.toNat) s)) ∧
  (∀ (fn off : Nat) (s : State), off % 8 = 0 → s.readBar0 fn off 64 = s.readReg fn off ∧
    (s.readBar0 fn off 32).toNat = (s.readReg fn off).toNat % 2 ^ 32 ∧
    (s.readBar0 fn (off + 4) 32).toNat = (s.readReg fn off).toNat / 2 ^ 32) ∧
  (∀ (fn off bits : Nat) (s : State), off % 4 ≠ 0 ∨ (bits ≠ 32 ∧ (bits ≠ 64 ∨ off % 8 ≠ 0)) → s.readBar0 fn off bits = 0) ∧
  (∀ (old v : BitVec 64), mergeHalf old .full v = v ∧
    (mergeHalf old .low v).extractLsb' 0 32 = v.extractLsb' 0 32 ∧
    (mergeHalf old .low v).extractLsb' 32 32 = old.extractLsb' 32 32 ∧
    (mergeHalf old .high v).extractLsb' 32 32 = v.extractLsb' 0 32 ∧
    (mergeHalf old .high v).extractLsb' 0 32 = old.extractLsb' 0 32) ∧
  (∀ (p : Fin 8) (j : Fin 4) (half : RegHalf) (v : BitVec 64) (s : State),
    let off : Nat := 0x04001000 + 0x40 * p.val + 8 * j.val
    ∃ t, exec (.registerWrite 0 (BitVec.ofNat 32 off) half v) s = .next t ∧
      t.readReg 0 off = mergeHalf (s.readReg 0 off) half v ∧
      (∀ k, k ≠ 4 * p.val + j.val → tabGet 0 t.mem.mbox k = tabGet 0 s.mem.mbox k) ∧ SameBut [.mailbox] s t)

/-- Register writes, the BAR2 window, the link, ABI offers and read pointers. An aligned access to an offset with no
register reads as zero and records 0x0902. A VF write acts as the write of the PF counterpart; one to a DMA engine of
another partition does nothing. A queue base is stored only while the queue is disabled, and its size code only then
and below 11. A BAR2 read answers the bytes of the window and a write stores them, once the bolts are within reach; a poisoned
write is noted for AER and records 0x0907.
A change of speed or width updates PCI_LINK and records 0x0905. An ABI offer of 1.0 or more makes 1.0 active, a lower
one 0.0, and one while a queue is enabled only records 0x0903. Read pointers are stored modulo the ring. (R9, R134,
R165, R194, R350, R357, R358, R359, R362, R363, R373, R451) -/
def Obligations.RegistersAndHostWindow : Prop :=
  (∀ (fn : Func) (off : BitVec 32) (s : State),
    exec (.noRegisterAccess fn off) s = .next (eventD 0x0902 1 (le 1 fn ++ le 4 off.toNat) s) ∧
    (off.toNat % 8 = 0 → pfRegister off.toNat = false → s.readReg 0 off.toNat = 0 ∧
      ∀ half v, exec (.registerWrite 0 off half v) s = .next (eventD 0x0902 1 (le 1 0 ++ le 4 off.toNat) s)) ∧
    (∀ o, fn.val ≠ 0 → vfRegister (fn.val - 1) off.toNat = some o →
      let foreign : Prop := 0x3000 ≤ off.toNat ∧ off.toNat < 0x3200 ∧
        s.dmaOwner ((off.toNat - 0x3000) / 0x20) ≠ some (fn.val - 1)
      (¬ foreign → s.readReg fn off.toNat = s.readReg 0 o ∧ ∀ half v,
        exec (.registerWrite fn off half v) s = exec (.registerWrite 0 (BitVec.ofNat 32 o) half v) s) ∧
      (foreign → s.readReg fn off.toNat = 0 ∧ ∀ half v, exec (.registerWrite fn off half v) s = .next s))) ∧
  (∀ (q : QIdx) (v : BitVec 64) (s : State),
    ((s.queue q).enable = false → ∃ t,
      exec (.registerWrite 0 (BitVec.ofNat 32 (0x03000000 + 0x20 * q.val)) .full v) s = .next t ∧ OtherQueues q s t ∧
      t.queue q = { s.queue q with base := v.extractLsb' 12 40 ++ 0#12 } ∧ SameBut [.queues] s t) ∧
    ((s.queue q).enable = true →
      exec (.registerWrite 0 (BitVec.ofNat 32 (0x03000000 + 0x20 * q.val)) .full v) s = .next s) ∧
    (∃ t, exec (.registerWrite 0 (BitVec.ofNat 32 (0x03000008 + 0x20 * q.val)) .full v) s = .next t ∧
      OtherQueues q s t ∧ q.val ∉ t.pci.badVec ∧
      t.queue q = { s.queue q with
        vector := (v.extractLsb' 10 11).toNat
        sizeCode := if (s.queue q).enable = true ∨ 11 ≤ (v.extractLsb' 0 4).toNat then (s.queue q).sizeCode
          else (v.extractLsb' 0 4).toNat } ∧ SameBut [.queues, .messages] s t)) ∧
  (∀ (fn : Func) (off : Nat) (s : State),
    let p := (s.winOf fn).2
    let dva := (s.winOf fn).1 + off
    let a := hostAcc fn p
    (∀ d errs, exec (.hostBar2Access fn off (.poisoned d) errs) s =
      .next (eventD 0x0907 1 (le 1 fn.val ++ le 1 2 ++ le 8 off)
        (modPci (fun p => { p with cfg := tabMod {} p.cfg 0 (fun c => { c with poisoned := some fn.val }) }) s))) ∧
    (∀ len errs, s.blocked (readsOf a [(dva, len)]) = false → ∃ t, exec (.hostBar2Access fn off (.read len) errs) s = .next t ∧
      t.pci.bar2Data = overlay p errs dva (s.readBytes a dva len) ∧
      SameBut (partsOf (.hostBar2Access fn off (.read len) errs)) s t ∧
      (errs = [] → t.pci.bar2Data = s.readBytes a dva len ∧
        (s.unmappedIn p dva len = none → t.mem.bytes = s.mem.bytes ∧
          SameBut [.bar2, .bolts, .flash, .runAhead, .journal] s t))) ∧
    (∀ data errs, s.blocked (writesOf a [(dva, data.length)]) = false →
      ∃ t, exec (.hostBar2Access fn off (.write data) errs) s = .next t ∧
      SameBut (partsOf (.hostBar2Access fn off (.write data) errs)) s t ∧
      (errs = [] → t = eventUnmapped a (s.unmappedIn p dva data.length) (memWrite a dva data s)))) ∧
  (∀ (speed : BitVec 3) (width : BitVec 5) (flit : Bool) (s : State),
    (s.pci.speed = speed.toNat → s.pci.width = width.toNat → ∃ t, exec (.linkChange speed width flit) s = .next t ∧
      t.pci = { s.pci with flit := flit } ∧ SameBut [.link] s t) ∧
    (¬ (s.pci.speed = speed.toNat ∧ s.pci.width = width.toNat) → ∃ t, exec (.linkChange speed width flit) s = .next t ∧
      t.pci.speed = speed.toNat ∧ t.pci.width = width.toNat ∧ t.pci.flit = flit ∧
      t.pci.changes = satAdd 16 s.pci.changes 1 ∧ SameBut (eventParts ++ [.link]) s t ∧
      t = eventD 0x0905 1 (le 1 s.pci.speed ++ le 1 s.pci.width ++ le 1 speed.toNat ++ le 1 width.toNat ++
          le 1 (if flit then 1 else 0))
        (modPci (fun p => { p with speed := speed.toNat, width := width.toNat, flit := flit,
                                   changes := satAdd 16 p.changes 1 }) s))) ∧
  (∀ (fn : Func) (major minor : Byte) (s : State),
    (s.abiBusy fn = none → ∃ t, exec (.pciAbiOffer fn major minor) s = .next t ∧
      t.abi fn = { activeMajor := if 1 ≤ major.toNat then 1 else 0, activeMinor := 0,
                   hostMajor := major.toNat, hostMinor := minor.toNat } ∧
      (∀ k, k ≠ fn.val → t.abi k = s.abi k) ∧ SameBut [.functions] s t) ∧
    (∀ p, s.abiBusy fn = some p → ∃ t, exec (.pciAbiOffer fn major minor) s = .next t ∧
      t = eventAbi fn (if fn.val = 0 then none else some p) (if fn.val = 0 then 0x09000100 else 0) s ∧ t.pci.abi = s.pci.abi)) ∧
  (∀ (p : Fin 8) (s : State),
    (∀ rp : BitVec 16, ∃ t, exec (.respRpWrite p rp) s = .next t ∧
      t.respRing p = { s.respRing p with rp := rp.toNat % ringSize (s.respRing p).sizeCode } ∧
      (∀ j, j ≠ p.val → t.respRing j = s.respRing j) ∧ SameBut [.response] s t) ∧
    (∀ rp : BitVec 32, ∃ t, exec (.normRpWrite p rp) s = .next t ∧
      tabGet {} t.cnt.norm p = { tabGet {} s.cnt.norm p with
        rp := if (s.part p).normRingRecords = 0 then 0 else rp.toNat % (s.part p).normRingRecords } ∧
      (∀ j, j ≠ p.val → tabGet {} t.cnt.norm j = tabGet {} s.cnt.norm j) ∧ SameBut [.normRings] s t) ∧
    (∀ rp : BitVec 16, ∃ t, exec (.evtRpWrite rp) s = .next t ∧
      t.evt = { s.evt with pfRp := rp.toNat % ringSize s.evt.pfSize } ∧ SameBut [.eventRing] s t))

/-- MSI-X messages: absent vectors, masks and one message per microsecond. A source whose vector is not below the
table size raises no message and records 0x0904 once, until its vector field is written again. A request on a masked
vector, or of a function whose MSI-X is masked or disabled, sets its pending bit, and unmasking sends the message. A message writes the entry's data at its address. Within
1 microsecond of a message nothing is sent: requests merge into one message, which is sent when that time has passed.
(R365, R366) -/
def Obligations.MessagesAreMaskedAndMerged : Prop :=
  (∀ (fn vec source : Nat) (s : State), vectorCount fn ≤ vec →
    (source ∈ s.pci.badVec → raiseVector fn vec source s = s) ∧
    (source ∉ s.pci.badVec → raiseVector fn vec source s = eventD 0x0904 1 (le 1 fn ++ le 2 source ++ le 2 vec)
      (modPci (fun p => { p with badVec := p.badVec ++ [source] }) s))) ∧
  (∀ (fn vec source : Nat) (s : State), vec < vectorCount fn → raiseVector fn vec source s = requestMsix fn vec s) ∧
  (∀ (q : QIdx) (d : DmaIdx) (v : BitVec 64) (s : State),
    (∃ t, exec (.registerWrite 0 (BitVec.ofNat 32 (0x03000008 + 0x20 * q.val)) .full v) s = .next t ∧
      t.pci.badVec = s.pci.badVec.filter (fun x => x ≠ q.val)) ∧
    (∃ t, exec (.registerWrite 0 (BitVec.ofNat 32 (0x09001008 + 0x20 * d.val)) .full v) s = .next t ∧
      t.pci.badVec = s.pci.badVec.filter (fun x => x ≠ 0x100 + d.val))) ∧
  (∀ (fn : Func) (vec : BitVec 11) (s : State), vec.toNat < vectorCount fn →
    let m := s.msixEntry fn vec.toNat
    let sent := hostBytes m.addr.toNat (le 4 m.data.toNat) s.pci.hostOut
    let free : Prop := ∀ x, m.sentAt = some x → x + 1000 ≤ s.now
    let off : Prop := (s.pciCfg fn).functionMask = true ∨ (s.pciCfg fn).msixEnable = false
    (vectorMasked s fn vec.toNat = true ↔ m.masked = true ∨ off) ∧
    (m.masked = true ∨ off → (requestMsix fn vec.toNat s).msixEntry fn vec.toNat = { m with pendingBit := true } ∧
      (requestMsix fn vec.toNat s).pci.hostOut = s.pci.hostOut) ∧
    (m.masked = false → ¬ off → free → (requestMsix fn vec.toNat s).pci.hostOut = sent ∧
      (requestMsix fn vec.toNat s).msixEntry fn vec.toNat =
        { m with sentAt := some s.now, merged := false, pendingBit := false }) ∧
    (m.masked = false → ¬ off → ¬ free → (requestMsix fn vec.toNat s).pci.hostOut = s.pci.hostOut ∧
      (requestMsix fn vec.toNat s).msixEntry fn vec.toNat = { m with merged := true }) ∧
    SameBut [.messages] s (requestMsix fn vec.toNat s) ∧
    (m.pendingBit = true → ¬ off → free → ∃ t, exec (.msixUnmask fn vec) s = .next t ∧ t.pci.hostOut = sent ∧
      t.msixEntry fn vec.toNat = { m with masked := false, sentAt := some s.now, merged := false, pendingBit := false } ∧
      SameBut [.messages] s t) ∧
    (m.pendingBit = true → ¬ off → ¬ free → ∃ t, exec (.msixUnmask fn vec) s = .next t ∧ t.pci.hostOut = s.pci.hostOut ∧
      t.msixEntry fn vec.toNat = { m with masked := false, merged := true, pendingBit := false } ∧
      SameBut [.messages] s t) ∧
    (m.pendingBit = true → off → ∃ t, exec (.msixUnmask fn vec) s = .next t ∧ t.pci.hostOut = s.pci.hostOut ∧
      t.msixEntry fn vec.toNat = { m with masked := false } ∧ SameBut [.messages] s t) ∧
    (m.pendingBit = false → ∃ t, exec (.msixUnmask fn vec) s = .next t ∧ t.pci.hostOut = s.pci.hostOut ∧
      t.msixEntry fn vec.toNat = { m with masked := false } ∧ SameBut [.messages] s t) ∧
    (m.merged = true → m.masked = false → ¬ off → m.sentAt ≠ none → free →
      ∃ t, exec (.msixCoalesceExpire fn vec) s = .next t ∧ t.pci.hostOut = sent ∧
      t.msixEntry fn vec.toNat = { m with sentAt := some s.now, merged := false, pendingBit := false } ∧
      SameBut [.messages] s t) ∧
    (m.merged = true → m.masked = true ∨ off → m.sentAt ≠ none → free →
      ∃ t, exec (.msixCoalesceExpire fn vec) s = .next t ∧ t.pci.hostOut = s.pci.hostOut ∧
      t.msixEntry fn vec.toNat = { m with merged := false, pendingBit := true } ∧ SameBut [.messages] s t) ∧
    (m.merged = false ∨ ¬ free → exec (.msixCoalesceExpire fn vec) s = .next s)) ∧
  (∀ (fn : Func) (vec : BitVec 11) (s : State), vectorCount fn ≤ vec.toNat → exec (.msixUnmask fn vec) s = .next s)

/-- Host DMA: tail writes, enable, descriptors, failures and aborts. A tail write in range is stored, another records
0x0908. Enabling an engine that a partition owns, with an ABI, ready and not halted, sets head to tail and state 1; an
engine that no partition owns stays disabled. A running engine takes the descriptor of its head slot; its completion
writes done and status to the slot, frees the engine, advances head and adds 1 to the keeper that sig_en asks for, once
the bolts of the range are within reach. A failing host request completes the descriptor, or the one that it should have
fetched, with status 0x02 and records 0x0906. An abort leaves head at tail, no
descriptor and the engine disabled, and signals nothing. (R367, R368, R370, R371, R372) -/
def Obligations.DmaEnginesMoveDescriptors : Prop :=
  ∀ (d : DmaIdx) (s : State),
    (∀ v : BitVec 32, (v - (s.dma d).head).toNat ≤ ringSize (s.dma d).sizeCode → (v - (s.dma d).tail).toNat < 2 ^ 31 →
      ∃ t, exec (.dmaDoorbell d v) s = .next t ∧ t.dma d = { s.dma d with tail := v } ∧
      (∀ j, j ≠ d.val → t.dma j = s.dma j) ∧ SameBut [.dma] s t) ∧
    (∀ v : BitVec 32, ringSize (s.dma d).sizeCode < (v - (s.dma d).head).toNat ∨ 2 ^ 31 ≤ (v - (s.dma d).tail).toNat →
      ∃ t, exec (.dmaDoorbell d v) s = .next t ∧ t.pci.dma = s.pci.dma ∧
      t = eventDma 0x0908 2 d (le 2 d.val ++ le 4 (s.dma d).tail.toNat ++ le 4 v.toNat) s) ∧
    (∀ fn : Func, s.dmaOwner d = none → exec (.dmaEnable fn d true) s = .next s) ∧
    (∀ (fn : Func) p, s.dmaOwner d = some p → fn.val = 0 ∨ fn.val = p + 1 →
      ((s.dma d).enable = false → s.isReady = true → (s.abi (s.ownerFn p)).activeMajor ≠ 0 →
        s.evt.halted.getLsbD p = false → ∃ t, exec (.dmaEnable fn d true) s = .next t ∧
        t.dma d = { s.dma d with enable := true, state := 1, head := (s.dma d).tail } ∧
        (∀ j, j ≠ d.val → t.dma j = s.dma j) ∧ SameBut [.dma] s t) ∧
      ((s.dma d).enable = false → s.isReady = true → (s.abi (s.ownerFn p)).activeMajor = 0 → ∃ t,
        exec (.dmaEnable fn d true) s = .next t ∧ t.pci.dma = s.pci.dma ∧
        t = eventAbi (s.ownerFn p) (some p) (dmaOffset fn d 8) s) ∧
      (∃ t, exec (.dmaEnable fn d false) s = .next t ∧ (t.dma d).enable = false ∧ (t.dma d).cur = (s.dma d).cur ∧
        ((s.dma d).cur = none → (t.dma d).state = 0) ∧ (∀ j, j ≠ d.val → t.dma j = s.dma j) ∧ SameBut [.dma] s t)) ∧
    (∀ fn : Func, (s.dma d).enable = true → exec (.dmaEnable fn d true) s = .next s) ∧
    (∀ (fn : Func) p on, s.dmaOwner d = some p → fn.val ≠ 0 → fn.val ≠ p + 1 → exec (.dmaEnable fn d on) s = .next s) ∧
    (∀ desc data moved errs p, s.dmaOwner d = some p → (s.dma d).enable = true → (s.dma d).state = 1 →
      (s.dma d).cur = none → (s.dma d).head ≠ (s.dma d).tail →
      ∀ c : DmaCur, c = { desc := desc, data := (data ++ List.replicate (fld desc 128 32) 0#8).take (fld desc 128 32),
                          moved := 0, status := 0 } →
      s.blocked (dmaAccess p d c (min moved (fld desc 128 32))) = false → ∃ t y,
      exec (.dmaDescriptorStart d desc data moved errs) s = .next t ∧ t.dma d = { s.dma d with cur := some y } ∧
      y.desc = desc ∧ y.data = c.data ∧ y.moved = min moved (fld desc 128 32) ∧ (∀ j, j ≠ d.val → t.dma j = s.dma j) ∧
      SameBut (partsOf (.dmaDescriptorStart d desc data moved errs)) s t ∧
      (errs = [] → SameBut (eventParts ++ [.dma]) s t)) ∧
    (∀ desc data moved errs, (s.dma d).enable = false ∨ (s.dma d).cur ≠ none ∨ (s.dma d).head = (s.dma d).tail →
      exec (.dmaDescriptorStart d desc data moved errs) s = .next s) ∧
    (∀ p c, s.dmaOwner d = some p → (s.dma d).cur = some c →
      (∀ errs, s.blocked (dmaAccess p d c (fld c.desc 128 32)) = false →
        ∃ t, exec (.dmaDescriptorComplete d errs) s = .next t ∧ (t.dma d).cur = none ∧
        (t.dma d).head = (s.dma d).head + 1 ∧ (t.dma d).tail = (s.dma d).tail ∧ (t.dma d).enable = (s.dma d).enable ∧
        (t.dma d).state = (if (s.dma d).enable then 1 else 0) ∧ (∀ j, j ≠ d.val → t.dma j = s.dma j) ∧
        (fld c.desc 177 1 = 0 → t.tcs.keepers = s.tcs.keepers) ∧
        (∀ k, fld c.desc 177 1 = 1 → s.keeperOf p (fld c.desc 160 16) = some k →
          t.keeper k = s.keeper k + 1 ∧ OtherKeepers k s t) ∧
        (errs = [] → fld c.desc 177 1 = 0 → fld c.desc 178 1 = 0 → c.moved = fld c.desc 128 32 →
          tabGet 0 t.pci.hostOut ((s.dma d).base.toNat + 32 * ((s.dma d).head.toNat % ringSize (s.dma d).sizeCode) + 31) =
            BitVec.ofNat 8 (128 + c.status)) ∧
        SameBut (partsOf (.dmaDescriptorComplete d errs)) s t ∧
        (errs = [] → SameBut (eventParts ++ [.dma, .keepers]) s t)) ∧
      (∀ (kind : BitVec 8) (addr : BitVec 64) (upto : Nat), upto = min (fld c.desc 128 32) (addr.toNat - fld c.desc 0 64) →
        s.blocked (dmaAccess p d c (max c.moved upto)) = false →
        ∃ t u, exec (.dmaHostRequestFail d kind addr) s = .next t ∧
        t = eventP 0x0906 2 p (le 2 d.val ++ le 1 p ++ le 4 (s.dma d).head.toNat ++ le 1 kind.toNat ++ le 8 addr.toNat) u ∧
        (u.dma d).cur = none ∧ (u.dma d).head = (s.dma d).head + 1 ∧ SameBut (eventParts ++ [.dma, .keepers]) s u ∧
        (fld c.desc 177 1 = 0 → fld c.desc 178 1 = 0 →
          tabGet 0 u.pci.hostOut ((s.dma d).base.toNat + 32 * ((s.dma d).head.toNat % ringSize (s.dma d).sizeCode) + 31) =
            130#8))) ∧
    (∀ p (kind : BitVec 8) (addr : BitVec 64), s.dmaOwner d = some p → (s.dma d).cur = none →
      ((s.dma d).enable = true → (s.dma d).state = 1 → (s.dma d).head ≠ (s.dma d).tail →
        ∃ t u, exec (.dmaHostRequestFail d kind addr) s = .next t ∧
        t = eventP 0x0906 2 p (le 2 d.val ++ le 1 p ++ le 4 (s.dma d).head.toNat ++ le 1 kind.toNat ++ le 8 addr.toNat) u ∧
        (u.dma d).head = (s.dma d).head + 1 ∧ u.mem = s.mem ∧ SameBut [.dma, .messages] s u) ∧
      ((s.dma d).enable = false ∨ (s.dma d).head = (s.dma d).tail →
        exec (.dmaHostRequestFail d kind addr) s = .next s)) ∧
    (∀ errs, (s.dma d).cur = none → exec (.dmaDescriptorComplete d errs) s = .next s) ∧
    (∃ t, exec (.dmaAbort d) s = .next t ∧ (t.dma d).cur = none ∧ (t.dma d).state = 0 ∧ (t.dma d).enable = false ∧
      (t.dma d).head = (s.dma d).tail ∧ (t.dma d).tail = (s.dma d).tail ∧ (∀ j, j ≠ d.val → t.dma j = s.dma j) ∧
      t.tcs.keepers = s.tcs.keepers ∧ SameBut (eventParts ++ [.dma]) s t)

/-- WMC_RST and MOD_RST_N. A write to WMC_RST has an effect only with the key 0x5253, type 1 for a warm reset and type
2 for a cold one, and the register reads as zero. A low level of MOD_RST_N shorter than 1 ms is ignored; from 1 ms on
a cold reset holds the module until the level returns high, when step 1 begins; meanwhile boot steps, PERST#, WMC_RST
and FLRs do nothing but note the levels of the pins. In recovery ALERT_N and READY are low. (R452, R462) -/
def Obligations.ResetKeyAndResetPin : Prop :=
  (∀ (v : BitVec 64) (s : State),
    s.readReg 0 0x0A000028 = 0 ∧
    (v.extractLsb' 48 16 ≠ 0x5253#16 → exec (.wmcRstWarm v) s = .next s ∧ exec (.wmcRstCold v) s = .next s) ∧
    (v.extractLsb' 0 2 ≠ 1#2 → exec (.wmcRstWarm v) s = .next s) ∧
    (v.extractLsb' 0 2 ≠ 2#2 → exec (.wmcRstCold v) s = .next s) ∧
    (v.extractLsb' 48 16 = 0x5253#16 → s.wmc.stage1On = true → s.wmc.modRstLow = false →
      (v.extractLsb' 0 2 = 2#2 → ∃ t, exec (.wmcRstCold v) s = .next t ∧ t = coldState 2 2 s ∧ t.wmc.step = 1 ∧
        t.wmc.resetType = 2 ∧ t.clk.time = 0) ∧
      (v.extractLsb' 0 2 = 1#2 → ¬ (s.wmc.step < 8 ∧ s.wmc.resetType ≠ 3) →
        (warmIsCold s = false → ∃ t, exec (.wmcRstWarm v) s = .next t ∧ t = warmState 2 s ∧ t.wmc.step = 1 ∧
          t.wmc.resetType = 3 ∧ t.clk.time = s.clk.time) ∧
        (warmIsCold s = true → ∃ t, exec (.wmcRstWarm v) s = .next t ∧ t.wmc.step = 1 ∧ t.wmc.resetType = 2 ∧
          t.clk.time = 0)))) ∧
  (∀ (us : Nat) (s : State),
    (us < 1000 → exec (.modRstNAssert us) s = .next s) ∧
    (1000 ≤ us → s.wmc.stage1On = true → ∃ t, exec (.modRstNAssert us) s = .next t ∧ t.wmc.modRstLow = true ∧
      t.wmc.step = 0 ∧ t.wmc.resetType = 2 ∧ t.clk.time = 0 ∧ t.isReady = false) ∧
    (1000 ≤ us → s.wmc.stage1On = false → ∃ t, exec (.modRstNAssert us) s = .next t ∧
      t.wmc = { s.wmc with modRstLow := true } ∧ SameBut [.boot] s t) ∧
    (s.wmc.modRstLow = true →
      (∀ o, exec (.bootStepComplete o) s = .next s) ∧
      (∃ t, exec .warmReset s = .next t ∧ t.wmc = { s.wmc with perstLow := true } ∧ SameBut [.boot] s t) ∧
      (∃ t, exec .perstDeassertion s = .next t ∧ t.wmc = { s.wmc with perstLow := false } ∧ SameBut [.boot] s t) ∧
      (∀ v, exec (.wmcRstWarm v) s = .next s ∧ exec (.wmcRstCold v) s = .next s) ∧
      (∀ p trigger, exec (.partitionFlr p trigger) s = .next s) ∧ (∀ trigger, exec (.pfFlr trigger) s = .next s) ∧
      (∃ t, exec .modRstNDeassert s = .next t ∧
        t.wmc = { s.wmc with modRstLow := false, step := if s.wmc.stage1On then 1 else 0 } ∧ SameBut [.boot] s t)) ∧
    (s.wmc.step = 0xFE → s.pinAlertN = false ∧ s.pinReady = false))

/-- Power-on, cold and warm resets, FLRs and what they leave. Power comes on above 40.0 V in an inserted module and
starts boot step 1. A cold reset loses memory, regions, queues and time, and keeps the NOR, the fuses and the
checkpoints; a warm reset keeps memory, regions, the active set and the time, and loses queues and keepers. A loss of
input leaves the module unpowered. A trial image that does not come up in 30 s falls back. An FLR empties the queues,
regions and halt of its partition alone, the FLR of the PF those of all; clearing VFs acts as an FLR of theirs.
Outside a running device FLRs do nothing. (R352, R354, R378, R411, R439, R440, R441, R443, R444, R458) -/
def Obligations.ResetsAndWhatTheyLeave : Prop :=
  (∀ (v : Nat) (s : State),
    (s.wmc.stage1On = false → s.wmc.present = true → 4000 < v → s.wmc.modRstLow = false → ∃ t,
      exec (.powerOn v) s = .next t ∧ t.wmc.step = 1 ∧ t.wmc.resetType = 1 ∧ t.wmc.stage1On = true ∧ t.clk.time = 0 ∧
      t.wmc.nor = s.wmc.nor) ∧
    (s.wmc.stage1On = true ∨ s.wmc.present = false ∨ v ≤ 4000 → exec (.powerOn v) s = .next s)) ∧
  (∀ (trigger : ColdTrigger) (s : State), s.wmc.stage1On = true →
    (s.wmc.modRstLow = false → trigger ≠ .modRstN → ∃ t, exec (.coldReset trigger) s = .next t ∧ t.wmc.resetType = 2 ∧
      t.wmc.step = (if trigger = .inputLoss then 0 else 1) ∧ t.clk.time = 0 ∧ t.mem.bytes = [] ∧
      (∀ p dva, t.regionAt p dva = none) ∧ (∀ q, t.queue q = {}) ∧ (∀ k, t.keeper k = 0) ∧ t.tcs.inflight = [] ∧
      t.wmc.nor = s.wmc.nor ∧ t.nvt.ckpts = s.nvt.ckpts ∧ FusesKept s t ∧ t.pending = s.pending)) ∧
  (∀ s : State, s.wmc.stage1On = true → s.wmc.modRstLow = false → ¬ (s.wmc.step < 8 ∧ s.wmc.resetType ≠ 3) →
    warmIsCold s = false → ∃ t, exec .warmReset s = .next t ∧ t.wmc.perstLow = true ∧ t.wmc.step = 1 ∧
      t.wmc.resetType = 3 ∧ t.clk.time = s.clk.time ∧ t.mem.regions = s.mem.regions ∧ t.wmc.active = s.wmc.active ∧
      t.wmc.nor = s.wmc.nor ∧ t.nvt.ckpts = s.nvt.ckpts ∧ t.sec.rollback = s.sec.rollback ∧ t.mem.migrations = [] ∧
      (s.mem.migrations = [] → t.mem.bytes = s.mem.bytes) ∧ (∀ q, t.queue q = {}) ∧ (∀ k, t.keeper k = 0) ∧
      t.tcs.inflight = [] ∧ t.evt.log = s.evt.log ∧ t.evt.seq = s.evt.seq ∧ t.evt.halted = 0#8) ∧
  (∀ s : State,
    (∃ t, exec .moduleRemoval s = .next t ∧ t.wmc.present = false ∧ t.wmc.stage1On = false) ∧
    (∀ ms, 50 ≤ ms → ∃ t, exec (.moduleInsertion ms) s = .next t ∧ t.wmc = { s.wmc with present := true } ∧
      SameBut [.boot] s t) ∧
    (∀ v us, (v < 3600 ∧ 50 ≤ us) ∨ (6300 < v ∧ 10 ≤ us) → s.wmc.stage1On = true → ∃ t,
      exec (.vinOutOfRange v us) s = .next t ∧ t.wmc.stage1On = false ∧ t.wmc.step = 0 ∧ t.wmc.nor = s.wmc.nor) ∧
    (∀ v us, 3600 ≤ v → v < 4000 → 100 ≤ us → s.pwr.vinLow = false → ∃ t, exec (.vinOutOfRange v us) s = .next t ∧
      t = eventD 0x0C01 1 (le 2 v ++ le 1 1) (modPwr (fun w => { w with vin := v, vinLow := true, vinHigh := false }) s)) ∧
    (∀ v us, 4000 ≤ v → v ≤ 6000 → 100 ≤ us → ∃ t, exec (.vinOutOfRange v us) s = .next t ∧
      t.pwr = { s.pwr with vin := v, vinLow := false, vinHigh := false } ∧ SameBut [.power] s t) ∧
    (1 ≤ s.wmc.step → s.wmc.step < 8 → (s.wmc.nor.imageSlot s.wmc.slot).trial = true →
      s.wmc.resetAt + 30000000000 ≤ s.now → s.wmc.modRstLow = false → ∃ t, exec .imageTrialTimeout s = .next t ∧
      t.wmc.failedSlot = some s.wmc.slot ∧ (t.wmc.nor.imageSlot s.wmc.slot).trial = false ∧ t.wmc.step = 1 ∧
      t.wmc.resetType = 2) ∧
    (s.wmc.modRstLow = false → ∃ t, exec .perstDeassertion s = .next t ∧
      t.wmc = { s.wmc with perstLow := false, rrs := decide (s.wmc.step ≤ 3) } ∧ SameBut [.boot] s t)) ∧
  (∀ (p : Fin 8) (trigger : FlrTrigger) (s : State),
    (s.takesFlr = false → exec (.partitionFlr p trigger) s = .next s) ∧
    (s.takesFlr = true → ∃ t, exec (.partitionFlr p trigger) s = .next t ∧
      (∀ q, t.queue q = if q / 32 = p.val then {} else s.queue q) ∧ t.regions p = [] ∧
      (∀ j, j ≠ p.val → t.regions j = s.regions j) ∧ t.evt.halted = s.evt.halted &&& ~~~(1#8 <<< p.val) ∧
      (∀ f ∈ t.tcs.inflight, f ∈ s.tcs.inflight ∧ (f.q / 32 = p.val → releasing s f = true)) ∧
      tabGet [] t.gab.maps p = [] ∧ t.wmc.held = s.wmc.held.filter (fun x => x ≠ p.val))) ∧
  (∀ (trigger : PfTrigger) (s : State),
    (s.takesFlr = false → exec (.pfFlr trigger) s = .next s) ∧
    (s.takesFlr = true → ∃ t, exec (.pfFlr trigger) s = .next t ∧ (∀ q, q < 256 → t.queue q = {}) ∧
      (∀ j, j < 8 → t.regions j = []) ∧ t.evt.halted = 0#8 ∧ t.pci.numVfs = 0 ∧ t.pci.speed = s.pci.speed ∧
      t.wmc.held = [] ∧ t.wmc.armed = none ∧ t.wmc.shadow = none ∧ t.wmc.active = s.wmc.active)) ∧
  (∀ (n : Fin 9) (s : State),
    (s.takesFlr = false ∨ s.pci.numVfs ≤ n.val → ∃ t, exec (.vfEnable n) s = .next t ∧
      t.pci = { s.pci with numVfs := n.val } ∧ SameBut [.link] s t) ∧
    (s.takesFlr = true → ∃ t, exec (.vfEnable n) s = .next t ∧ t.pci.numVfs = n.val ∧
      (∀ j, j < 8 → n.val ≤ j → j < s.pci.numVfs → t.regions j = [] ∧ ∀ q, q / 32 = j → t.queue q = {})))

/-- Halts end, take effect and stop the device. Writing 1 to halted bits clears those bits. A halt that is due
disables every queue of its partition, aborts its DMA engines and sets its bit; it touches no queue of another
partition. A device-fatal event with stop halts every enabled partition and sets fatal; the rack round that any
device-fatal event makes due is called once. (R447, R448, R453) -/
def Obligations.HaltsAndTheDeviceFatalStop : Prop :=
  (∀ (bits : Byte) (s : State), ∃ t, exec (.haltClear bits) s = .next t ∧
    t.evt.halted = s.evt.halted &&& ~~~bits ∧ t.evt.haltDue = s.evt.haltDue ∧ t.evt.fatal = s.evt.fatal ∧
    SameBut [.events, .halts] s t) ∧
  (∀ (p : Fin 8) (s : State),
    (p.val ∉ s.evt.haltDue → exec (.partitionHalt p) s = .next s) ∧
    (p.val ∈ s.evt.haltDue → ∃ t, exec (.partitionHalt p) s = .next t ∧
      t.evt.halted = s.evt.halted ||| (1#8 <<< p.val) ∧ p.val ∉ t.evt.haltDue ∧
      (∀ q, q / 32 = p.val → (t.queue q).enable = false ∧ (t.queue q).tail = (s.queue q).tail) ∧
      (∀ d, d < 16 → s.dmaOwner d = some p.val → (t.dma d).enable = false ∧ (t.dma d).cur = none ∧
        (t.dma d).head = (s.dma d).tail) ∧
      (∀ d, s.dmaOwner d ≠ some p.val → t.dma d = s.dma d) ∧
      SameBut (eventParts ++ [.halts, .dma, .queues, .inflight, .envelopes, .runAhead, .staging]) s t)) ∧
  (∀ s : State,
    (s.evt.fatalDue = false → s.evt.roundDue = false → exec .deviceFatalStop s = .next s) ∧
    (s.evt.fatalDue = true → s.evt.roundDue = false → ∃ t, exec .deviceFatalStop s = .next t ∧ t.evt.fatal = true ∧
      t.evt.fatalDue = false ∧
      (∀ p, p < 8 → s.enabled p = true → t.evt.halted.getLsbD p = true ∧
        ∀ q, q / 32 = p → (t.queue q).enable = false)) ∧
    (s.evt.fatalDue = false → s.evt.roundDue = true → s.node = none → ∃ t, exec .deviceFatalStop s = .next t ∧
      t.evt = { s.evt with roundDue := false } ∧ SameBut [.events] s t) ∧
    (∀ n, s.evt.fatalDue = false → s.evt.roundDue = true → s.node = some n → ∃ t, exec .deviceFatalStop s = .next t ∧
      t = callRack 4 (n % 64) (modEvt (fun e => { e with roundDue := false }) s)))

/-- Staging, arming, applying and abandoning a configuration set. While the controller serves a path, STAGE_BEGIN
opens reception and drops an unarmed shadow set, or answers busy; STAGE_DATA stores bytes; STAGE_END answers the
reason of R383 and keeps the set when there is none; 10 s without data end reception. ARM writes the set to a slot
without its commit word and arms it. ABORT and the timeout leave the set staged and unarmed with no partition held. A
swap whose partitions are held and idle makes the set active when it is still valid, and is abandoned with the reason
when not. The commit word is programmed once. A switch-in from the rack controller gives a spare its coordinates.
(R335, R379, R383, R384, R385, R386, R387) -/
def Obligations.ConfigurationSetsAreStagedAndSwapped : Prop :=
  (∀ (path : MgmtPath) (s : State), s.wmcUp = true → path ≠ .doe →
    (s.wmc.armed = none → (∀ r, s.wmc.reception = some r → r.path = path) → ∃ t, exec (.stageBegin path) s = .next t ∧
      t.wmc.shadow = none ∧
      t.wmc.reception = some { path := path, cells := [], length := 0, last := s.now } ∧
      t.wmc.answer = some { path := path, status := 0, bytes := [] } ∧ SameBut [.staging, .answers] s t) ∧
    (s.wmc.armed ≠ none ∨ (∃ r, s.wmc.reception = some r ∧ r.path ≠ path) → ∃ t, exec (.stageBegin path) s = .next t ∧
      t.wmc.answer = some { path := path, status := stBusy, bytes := [] } ∧ SameBut [.answers] s t) ∧
    (∀ r off data, s.wmc.reception = some r → r.path = path → ∃ t r', exec (.stageData path off data) s = .next t ∧
      t.wmc.reception = some r' ∧ r'.length = max r.length (off + data.length) ∧ r'.last = s.now ∧
      (∀ i, i < data.length → tabGet 0#8 r'.cells (off + i) = data.getD i 0#8) ∧
      (∀ i, i < off ∨ off + data.length ≤ i → tabGet 0#8 r'.cells i = tabGet 0#8 r.cells i) ∧
      SameBut [.staging, .answers] s t) ∧
    (∀ r, s.wmc.reception = some r → r.path = path → r.length ≤ 16384 →
      let raw := (List.range r.length).map (fun i => tabGet 0#8 r.cells i)
      ∃ t, exec (.stageEnd path) s = .next t ∧ t.wmc.reception = none ∧ t.wmc.reason = stagedReason s raw ∧
        t.wmc.answer = some { path := path, status := stagedReason s raw, bytes := [] } ∧
        t.wmc.shadow = (if stagedReason s raw = 0 then some (parseSet raw none).2 else none) ∧
        SameBut [.staging, .answers] s t) ∧
    (∀ r, s.wmc.reception = some r → r.path = path → 16384 < r.length → ∃ t, exec (.stageEnd path) s = .next t ∧
      t.wmc.reception = none ∧ t.wmc.reason = 1 ∧ t.wmc.shadow = none ∧ SameBut [.staging, .answers] s t) ∧
    (∀ c step ms, s.wmc.shadow = some c → s.wmc.armed = none → ms ≤ 600000 → ∃ t a,
      exec (.arm path step ms) s = .next t ∧ t.wmc.armed = some a ∧ a.path = path ∧ a.step = step.toNat ∧
      a.timeoutMs = (if ms = 0 then 10000 else ms) ∧ a.at_ = s.now ∧ a.affected = affectedBy s c ∧
      t.wmc.shadow = some c ∧
      (t.wmc.nor.cfg0 = some { set := c, committed := false } ∨ t.wmc.nor.cfg1 = some { set := c, committed := false }) ∧
      (∀ p, p ∈ affectedBy s c → (∀ i, i < 32 → (s.queue (32 * p + i)).enable = false) → p ∈ t.wmc.held) ∧
      SameBut [.records, .staging, .answers] s t) ∧
    (s.wmc.shadow = none → ∀ step ms, ∃ t, exec (.arm path step ms) s = .next t ∧
      t.wmc.answer = some { path := path, status := stNothing, bytes := [] } ∧ SameBut [.answers] s t) ∧
    (∀ a c, s.wmc.armed = some a → s.wmc.shadow = some c → ∃ t, exec (.abort path) s = .next t ∧
      t.wmc.armed = none ∧ t.wmc.held = [] ∧ t.wmc.shadow = some c ∧
      SameBut (eventParts ++ [.staging, .answers]) s t)) ∧
  (∀ s : State,
    (∀ r, s.wmc.reception = some r → r.last + 10000000000 ≤ s.now → ∃ t, exec .stageTimeout s = .next t ∧
      t.wmc = { s.wmc with reception := none } ∧ SameBut [.staging] s t) ∧
    (∀ r, s.wmc.reception = some r → s.now < r.last + 10000000000 → exec .stageTimeout s = .next s) ∧
    (∀ a c, s.wmc.armed = some a → s.wmc.shadow = some c → a.at_ + a.timeoutMs * 1000000 ≤ s.now → ∃ t,
      exec .swapTimeout s = .next t ∧ t = eventD 0x0A07 1
        (le 8 c.setSeq ++ le 1 0 ++ le 1 (partMap (a.affected.filter (fun p => ! s.wmc.held.contains p))))
        (modWmc (fun w => { w with armed := none, held := [], reason := 0 }) s)) ∧
    (∀ a, s.wmc.armed = some a → s.now < a.at_ + a.timeoutMs * 1000000 → exec .swapTimeout s = .next s) ∧
    (∀ a c, s.wmc.armed = some a → s.wmc.shadow = some c →
      ((∃ p ∈ a.affected, p ∉ s.wmc.held ∨ busyPart s p = true) → exec .swapApply s = .next s) ∧
      ((∀ p ∈ a.affected, p ∈ s.wmc.held ∧ busyPart s p = false) →
        (∀ d, d < 16 → s.wmc.active.dmaOwner d = c.dmaOwner d ∨ (s.dma d).enable = false) →
        (stagedReason s c.raw = 0 → ∃ t, exec .swapApply s = .next t ∧ t.wmc.active = clampSet c ∧ t.wmc.armed = none ∧
          t.wmc.shadow = none ∧ t.wmc.held = [] ∧ t.wmc.commitDue = some s.now ∧ t.clk.time = s.clk.time) ∧
        (stagedReason s c.raw ≠ 0 → ∃ t, exec .swapApply s = .next t ∧ t.wmc.active = s.wmc.active ∧
          t.wmc.armed = none ∧ t.wmc.shadow = some c ∧ t.wmc.held = [] ∧ t.wmc.reason = stagedReason s c.raw))) ∧
    (s.wmc.commitDue ≠ none → ∃ t, exec .commitWordProgram s = .next t ∧ t.wmc.commitDue = none ∧
      (∀ v, s.wmc.nor.cfg0 = some v → v.set.setSeq = s.wmc.active.setSeq →
        t.wmc.nor.cfg0 = some { v with committed := true }) ∧
      (∀ v, s.wmc.nor.cfg1 = some v → v.set.setSeq ≠ s.wmc.active.setSeq → t.wmc.nor.cfg1 = some v) ∧
      SameBut [.records, .staging] s t) ∧
    (s.wmc.commitDue = none → exec .commitWordProgram s = .next s)) ∧
  (∀ (n : BitVec 22) (raw : List Byte) (s : State),
    (s.wmcUp = true → s.col.coord.spare = true → ∃ t, exec (.switchInMessage true n raw) s = .next t ∧
      t.col.coord.rack = n.toNat / 64 ∧ t.col.coord.spare = false ∧ t.col.coord.valid = true ∧
      t.col.coord.z = n.toNat / 16 % 4 ∧ t.col.coord.y = n.toNat / 4 % 4 ∧ t.col.coord.x = n.toNat % 4) ∧
    (exec (.switchInMessage false n raw) s = .next s))

/-- Management messages, firmware update, SPDM, reports, key erasure and the entropy source. While the controller
serves a path, READ_ACTIVE answers the active set's bytes, READ_LOG records from an index on, a sensor read its value
or its failure, and SET_EVENT_RECEIVER is stored; these answers change nothing else. Coordinates come from the rack
controller alone. A firmware bundle is received on one path, takes its slot's directory entry when every check passes
and is otherwise dropped with 0x0B01, and is tried at the next reset once activated. SPDM answers its versions, no
standard capability or algorithm, and UnsupportedRequest with 0x0B06 (code 7 is the model's, entry 50). A report is
signed anew at offset 0, not while the entropy source has failed. A key is erased only through DOE or I3C for a
partition not in use. (R296, R388, R389, R391, R396, R397, R401, R402, R403, R407, R408) -/
def Obligations.ManagementAndSecurityMessages : Prop :=
  (∀ (path : MgmtPath) (s : State), s.wmcUp = true → path ≠ .doe →
    (∃ t, exec (.readActive path) s = .next t ∧ SameBut [.answers] s t ∧
      t.wmc.answer = some { path := path, status := 0, bytes := setBytes s.wmc.active }) ∧
    (∀ index count, ∃ t, exec (.readLog path false index count) s = .next t ∧ SameBut [.answers] s t ∧
      t.wmc.answer = some { path := path, status := 0, bytes :=
        (((s.evt.log.reverse.filter (fun r => decide (index ≤ r.seq.toNat))).take count).map eventBytes).flatten }) ∧
    (∀ index count, ∃ t, exec (.readLog path true index count) s = .next t ∧ SameBut [.answers] s t ∧
      t.wmc.answer = some { path := path, status := 0, bytes :=
        (((s.wmc.nor.ring.reverse.drop index).take count).map eventBytes).flatten }) ∧
    (∀ m : Byte, ∃ t a, exec (.getVersionSupport path m) s = .next t ∧ SameBut [.answers] s t ∧ t.wmc.answer = some a ∧
      a.path = path ∧ (a.status = 0 ↔ m = 0 ∨ m = 1 ∨ m = 5 ∨ m = 0x7E)) ∧
    (∀ m : Byte, ∃ t a, exec (.getPldmVersion path m) s = .next t ∧ SameBut [.answers] s t ∧ t.wmc.answer = some a ∧
      a.path = path ∧ (a.status = 0 ↔ m = 0 ∨ m = 2 ∨ m = 5)) ∧
    (∀ r : Byte, ∃ t, exec (.setEventReceiver path r) s = .next t ∧ SameBut [.answers] s t ∧ t.wmc.receiver = some r ∧
      t.wmc.answer = some { path := path, status := 0, bytes := [] }) ∧
    (∀ i : BitVec 16, ∃ t, exec (.pldmSensorRead path i) s = .next t ∧ SameBut [.answers] s t ∧
      t.wmc.answer = some (if sensorKnown i.toNat = true then
        { path := path, status := if (s.sensor i.toNat).failed then 2 else 0, bytes := le 4 (s.sensor i.toNat).value.toNat }
        else { path := path, status := 1, bytes := [] }))) ∧
  (∀ rack spare k z y x s, (s.wmcUp = true → ∃ t, exec (.coord true rack spare k z y x) s = .next t ∧
      t.col.coord = { rack := rack.toNat, valid := true, spare := spare, spareSlot := k.val, z := z.val, y := y.val,
                      x := x.val } ∧ SameBut [.coordinates] s t) ∧
    exec (.coord false rack spare k z y x) s = .next s) ∧
  (∀ (path : MgmtPath) (s : State), s.wmcUp = true ∨ s.wmc.step = 0xFE → path ≠ .doe →
    (s.wmc.update = none → ∃ t, exec (.requestUpdate path) s = .next t ∧
      t.wmc.update = some { path := path, slot := 1 - s.wmc.slot, cells := [], length := 0, verified := false } ∧
      t.wmc.answer = some { path := path, status := 0, bytes := [] } ∧
      SameBut (eventParts ++ [.free, .images, .answers]) s t) ∧
    (s.wmc.update = none → ∀ off data, ∃ t, exec (.firmwareDataTransfer path off data) s = .next t ∧
      t.wmc.answer = some { path := path, status := stNothing, bytes := [] } ∧ SameBut [.answers] s t) ∧
    (∀ u, s.wmc.update = some u → u.path = path →
      (∀ off data, data.length ≤ 4096 → ∃ t v, exec (.firmwareDataTransfer path off data) s = .next t ∧
        t.wmc.update = some v ∧ v.length = max u.length (off + data.length) ∧ v.verified = false ∧
        (∀ i, i < data.length → tabGet 0#8 v.cells (off + i) = data.getD i 0#8) ∧
        (t.wmc.nor.imageSlot u.slot).image.formOk = false ∧ SameBut [.images, .answers] s t) ∧
      (let g := imageOf ((List.range u.length).map (fun i => tabGet 0#8 u.cells i))
       ∃ t, exec (.verifyComplete path) s = .next t ∧
        (verifyReason s g = 0 →
          t.wmc.nor.imageSlot u.slot = { valid := true, trial := false, version := g.version, image := g } ∧
          t.wmc.update = some { u with verified := true } ∧ SameBut [.images, .answers] s t) ∧
        (verifyReason s g ≠ 0 → t.wmc.update = none ∧ t.wmc.nor.imageSlot u.slot = s.wmc.nor.imageSlot u.slot ∧
          SameBut (eventParts ++ [.images, .answers]) s t)) ∧
      (u.verified = true → ∃ t, exec (.activateFirmware path) s = .next t ∧ t.wmc.update = none ∧
        t.wmc.nor.imageSlot u.slot = { s.wmc.nor.imageSlot u.slot with trial := true } ∧
        t.wmc.answer = some { path := path, status := 0, bytes := [] } ∧
        SameBut (eventParts ++ [.images, .answers]) s t) ∧
      (u.verified = false → ∃ t, exec (.activateFirmware path) s = .next t ∧ SameBut [.answers] s t))) ∧
  (∀ (s : State) (g : Image), (verifyReason s g = 0 ↔ g.formOk = true ∧ (g.keySlot = 0 ∧ s.sec.slot0Revoked = false ∨
    g.keySlot = 1) ∧ g.keyHashOk = true ∧ rollbackCount s.sec.rollback ≤ g.svn ∧ g.svn ≤ 64 ∧ g.sigOk = true ∧
    g.digestsOk = true)) ∧
  (∀ (path : MgmtPath) (s : State), s.wmcUp = true →
    (∃ t, exec (.spdmGetVersion path) s = .next t ∧ SameBut [.answers] s t ∧
      t.wmc.answer = some { path := path, status := 0, bytes := [0x12#8, 0x11#8] }) ∧
    (∃ t, exec (.spdmGetCapabilities path) s = .next t ∧ SameBut [.answers] s t ∧
      t.wmc.answer = some { path := path, status := 0, bytes := [15#8, 0#8, 0#8, 0#8, 0#8] }) ∧
    (∃ t, exec (.spdmNegotiateAlgorithms path) s = .next t ∧ SameBut [.answers] s t ∧
      t.wmc.answer = some { path := path, status := 0, bytes := List.replicate 8 0#8 }) ∧
    (∀ code, ∃ t, exec (.spdmUnsupportedRequest path code) s = .next t ∧
      t.wmc.answer = some { path := path, status := 7, bytes := [] } ∧ SameBut (eventParts ++ [.answers]) s t) ∧
    (∀ (off : BitVec 32) (len : BitVec 16), ∃ t, exec (.getCert path off len) s = .next t ∧ SameBut [.answers] s t ∧
      t.wmc.answer = some (if certChain.length ≤ off.toNat then { path := path, status := 2, bytes := [] }
        else { path := path, status := 0, bytes := (certChain.drop off.toNat).take (min 1024 len.toNat) })) ∧
    (∀ (len : BitVec 16) (nonce : BitVec 256), s.sec.trngFail = false → ∃ t r,
      exec (.getReport path 0 len nonce) s = .next t ∧ t.sec.report = some r ∧ t.sec.draws = s.sec.draws + 1 ∧
      r.length = 1936 ∧ r.take 36 = le 2 1 ++ le 2 1936 ++ le 32 nonce.toNat ∧
      t.wmc.answer = some { path := path, status := 0, bytes := r.take (min 1024 len.toNat) } ∧
      SameBut [.secrets, .answers] s t) ∧
    (∀ off len nonce, s.sec.trngFail = true → ∃ t, exec (.getReport path off len nonce) s = .next t ∧
      t.wmc.answer = some { path := path, status := 3, bytes := [] } ∧ SameBut [.answers] s t) ∧
    (∀ (p : Fin 8) (k : Byte),
      (path = .pcie ∨ path = .sgmii → ∃ t, exec (.keyErase path p k) s = .next t ∧
        t.wmc.answer = some { path := path, status := 4, bytes := [1#8] } ∧ SameBut [.answers] s t) ∧
      (path = .doe ∨ path = .i3c → keyInUse s p = true → ∃ t, exec (.keyErase path p k) s = .next t ∧
        t.wmc.answer = some { path := path, status := 4, bytes := [2#8] } ∧ SameBut [.answers] s t) ∧
      (path = .doe ∨ path = .i3c → keyInUse s p = false → ckptRunning s p = false → s.sec.trngFail = false → ∃ t,
        exec (.keyErase path p k) s = .next t ∧ t.wmc.answer = some { path := path, status := 0, bytes := [0#8] } ∧
        tabGet 0 t.nvt.salts (p.val * 256 + k.toNat) = s.sec.draws + 1 ∧ t.sec.draws = s.sec.draws + 1 ∧
        (∀ i c, i < 16 → t.ckpt p i = some c → s.ckpt p i = some c ∧ c.keyId ≠ k.toNat) ∧
        SameBut (eventParts ++ [.checkpoints, .secrets, .answers]) s t))) ∧
  (∀ (test : Byte) (s : State), ∃ t, exec (.entropyHealthFail test) s = .next t ∧ t.sec.trngFail = true ∧
    t.evt.roundDue = true ∧ SameBut (eventParts ++ [.free, .secrets]) s t)

/-- Droops, the power and thermal loops, trips, PLLs and the boot steps. A droop below 35 mV stretches its row and
counts; it recovers at 20 mV after 20 ns. A row takes one clock step in 2 microseconds toward the larger of its
thermal step and the power step. The loops raise and lower those steps at their thresholds, and the coolant hold keeps
the power step at 4 or more. A trip, a leak, a rail out of tolerance or a lost reference switches the rails off and
makes the device-fatal stop due. An optical PLL takes its port down and trains it again. Each boot step ends as the
table says; a stop or a low MOD_RST_N holds the sequence. (R376, R378, R379, R388, R413, R416, R417, R418, R419, R420,
R421, R424) -/
def Obligations.PowerClocksAndBoot : Prop :=
  (∀ (r : Fin 8) (s : State),
    (∀ mv, 35 < mv → (s.rowClk r).stretch = false → ∃ t, exec (.droopDetect r mv) s = .next t ∧
      t.rowClk r = { s.rowClk r with stretch := true, recovering := none } ∧
      t.pwr.stretches = satAdd 20 s.pwr.stretches 1 ∧ (∀ j, j ≠ r.val → t.rowClk j = s.rowClk j) ∧ SameBut [.power] s t) ∧
    (∀ mv, mv ≤ 35 → exec (.droopDetect r mv) s = .next s) ∧
    (∀ mv ns, (s.rowClk r).stretch = true → mv ≤ 20 → 20 ≤ ns → ∃ t, exec (.droopRecover r mv ns) s = .next t ∧
      t.rowClk r = { s.rowClk r with stretch := false, recovering := some s.now } ∧
      (∀ j, j ≠ r.val → t.rowClk j = s.rowClk j) ∧ SameBut [.power] s t) ∧
    (∀ mv ns, 20 < mv ∨ ns < 20 → exec (.droopRecover r mv ns) s = .next s) ∧
    (∀ t0, (s.rowClk r).ramp = some t0 →
      (s.now < t0 + 2000 → exec (.clockStepRampEnd r) s = .next s) ∧
      (t0 + 2000 ≤ s.now → ∃ t, exec (.clockStepRampEnd r) s = .next t ∧
        (t.rowClk r).applied = (if (s.rowClk r).applied < s.rowStep r then (s.rowClk r).applied + 1
          else if s.rowStep r < (s.rowClk r).applied then (s.rowClk r).applied - 1 else (s.rowClk r).applied) ∧
        (t.rowClk r).ramp = (if (t.rowClk r).applied = s.rowStep r then none else some s.now) ∧
        (∀ j, j ≠ r.val → t.rowClk j = s.rowClk j) ∧ SameBut [.power] s t)) ∧
    ((s.rowClk r).ramp = none → exec (.clockStepRampEnd r) s = .next s) ∧
    (∀ rows core, let temp := max (rows.getD r.val core) core
      ∃ t, exec (.thermalLoopSample rows core) s = .next t ∧ t.pwr.sPower = s.pwr.sPower ∧
        SameBut (eventParts ++ [.free, .power]) s t ∧
        (t.rowClk r).thermal =
          (if 380 ≤ temp then min ((s.rowClk r).thermal + 1) (max 16 (s.rowClk r).thermal)
           else if temp < 368 ∧ (s.rowClk r).thermalAt + 100000 ≤ s.now then (s.rowClk r).thermal - 1
           else (s.rowClk r).thermal))) ∧
  (∀ (o : PowerObs) (s : State), ∃ t, exec (.powerLoopSample o) s = .next t ∧ t.pwr.vin = o.vin ∧ t.pwr.iin = o.iin ∧
    t.pwr.pin = o.pin ∧ SameBut (eventParts ++ [.power]) s t ∧
    (s.pwr.coolant = false → t.pwr.sPower =
      (if 3000 < o.avg10ms ∨ 750 < o.iin then min 16 (s.pwr.sPower + 4)
       else if 2400 < o.avg1s ∨ (o.vin < 4000 ∧ 600 < o.iin) then min 16 (s.pwr.sPower + 1)
       else if o.avg1s < 2350 ∧ o.iin < 580 ∧ s.pwr.sPowerAt + 1000000 ≤ s.now then s.pwr.sPower - 1
       else s.pwr.sPower)) ∧
    (s.pwr.coolant = true → 4 ≤ s.pwr.sPower → 4 ≤ t.pwr.sPower)) ∧
  (∀ (c : Int) (f : Nat) (s : State),
    (450 < c ∨ f < 150 → s.pwr.coolant = false → ∃ t, exec (.coolantLimit c f true) s = .next t ∧ t.pwr.coolant = true ∧
      t.pwr.sPower = max 4 s.pwr.sPower ∧ SameBut (eventParts ++ [.power]) s t) ∧
    (450 < c ∨ f < 150 → ∃ t, exec (.coolantLimit c f false) s = .next t ∧
      t.pwr = { s.pwr with coolantOkAt := none } ∧ SameBut [.power] s t) ∧
    (∀ b t0, c ≤ 450 → 150 ≤ f → s.pwr.coolantOkAt = some t0 → t0 + 10000000000 ≤ s.now → ∃ t,
      exec (.coolantLimit c f b) s = .next t ∧ t.pwr = { s.pwr with coolant := false } ∧ SameBut [.power] s t)) ∧
  (∀ s : State,
    (∀ (rail : BitVec 8) (v : BitVec 16) us, 100 ≤ us → 2 ≤ rail.toNat → rail.toNat ≤ 0x18 → ∃ t,
      exec (.railOutOfTolerance rail v us) s = .next t ∧ t.wmc.railsOn = false ∧ t.evt.fatalDue = true ∧
      SameBut (eventParts ++ [.boot]) s t) ∧
    (∀ (rail : BitVec 8) (v : BitVec 16) us, us < 100 → exec (.railOutOfTolerance rail v us) s = .next s) ∧
    (∀ (i : BitVec 16) (v : BitVec 32) d w trip, dieOf i.toNat = some (d, w, trip) → trip ≤ v.toInt →
      s.wmc.railsOn = true → ∃ t, exec (.sensorUpdate i v false) s = .next t ∧ t.wmc.railsOn = false ∧
      t.evt.fatalDue = true ∧ tabGet {} t.wmc.sensors i.toNat = { value := v, failed := false, time := s.now }) ∧
    (∀ v : BitVec 32, v ≠ 0 → s.wmc.railsOn = true → ∃ t, exec (.sensorUpdate 0x0304 v false) s = .next t ∧
      t.wmc.railsOn = false ∧ t.evt.fatalDue = true) ∧
    (∀ (i : BitVec 16) (v : BitVec 32) b, sensorKnown i.toNat = true → b = true ∨ (dieOf i.toNat = none ∧ i ≠ 0x0304) →
      ∃ t, exec (.sensorUpdate i v b) s = .next t ∧
      tabGet {} t.wmc.sensors i.toNat = { value := v, failed := b, time := s.now } ∧ SameBut [.sensors] s t) ∧
    (∀ root, ∃ t, exec (.referenceClockLoss root) s = .next t ∧ t.wmc.railsOn = false ∧ t.clk.rootLock = false ∧
      t.evt.fatalDue = true ∧ SameBut (eventParts ++ [.clocks, .boot]) s t) ∧
    (∀ e : Fin 8, ∃ t, exec (.pllUnlock (.optical e)) s = .next t ∧
      t.clk.oeLock = s.clk.oeLock &&& ~~~(1#8 <<< e.val) ∧ t.clk.unlocks = satAdd 16 s.clk.unlocks 1 ∧
      (s.portUp e = true → (t.port e).state = 0)) ∧
    (∃ t, exec (.pllUnlock .sgmii) s = .next t ∧ t.clk.sgmiiLock = false ∧ t.clk.unlocks = satAdd 16 s.clk.unlocks 1 ∧
      SameBut (eventParts ++ [.free, .clocks]) s t) ∧
    (∃ t, exec (.pllUnlock .pcie) s = .next t ∧ t.clk.pcieLock = false ∧ t.pci.speed = 0 ∧ t.pci.width = 0 ∧
      SameBut [.link, .clocks] s t) ∧
    (∀ e : Fin 8, ∃ t, exec (.pllRelock (.optical e)) s = .next t ∧ t.clk.oeLock = s.clk.oeLock ||| (1#8 <<< e.val) ∧
      ((s.port e).enable = true → (s.port e).state = 0 → (t.port e).state = 1) ∧ OtherPorts e s t ∧
      SameBut [.ports, .clocks] s t) ∧
    (∃ t, exec (.pllRelock .sgmii) s = .next t ∧ t.clk.sgmiiLock = true ∧ SameBut [.clocks] s t) ∧
    (∃ t, exec (.pllRelock .pcie) s = .next t ∧ t.clk.pcieLock = true ∧ SameBut [.clocks] s t)) ∧
  (∀ (o : BootObs) (s : State),
    (s.evt.fatal = true ∨ s.evt.fatalDue = true ∨ s.wmc.stage1On = false ∨ s.wmc.modRstLow = true →
      exec (.bootStepComplete o) s = .next s) ∧
    (s.evt.fatal = false → s.evt.fatalDue = false → s.wmc.stage1On = true → s.wmc.modRstLow = false →
      let k := s.wmc.slot
      (s.wmc.step = 1 → ∃ t, exec (.bootStepComplete o) s = .next t ∧
        t.wmc = { s.wmc with slot := firstSlot s, step := 2 } ∧ SameBut [.boot] s t) ∧
      (s.wmc.step = 2 → slotResult s k = 0 → ∃ t, exec (.bootStepComplete o) s = .next t ∧ t.wmc.step = 3 ∧
        t.wmc.slot = k ∧ t.wmc.running = some (s.wmc.nor.imageSlot k).image) ∧
      (s.wmc.step = 2 → slotResult s k ≠ 0 → slotResult s (1 - k) = 0 → ∃ t, exec (.bootStepComplete o) s = .next t ∧
        t.wmc.step = 3 ∧ t.wmc.slot = 1 - k ∧ t.wmc.imgFallback = true ∧
        t.wmc.running = some (s.wmc.nor.imageSlot (1 - k)).image) ∧
      (s.wmc.step = 2 → slotResult s k ≠ 0 → slotResult s (1 - k) ≠ 0 → ∃ t, exec (.bootStepComplete o) s = .next t ∧
        t.wmc.step = 0xFE ∧ t.evt.fatalDue = true) ∧
      (s.wmc.step = 3 → s.wmc.resetType ≠ 3 → o.railFail = none → ∃ t, exec (.bootStepComplete o) s = .next t ∧
        t.wmc.step = 4 ∧ t.wmc.railsOn = true ∧ t.mxa.hw.bootCount = satAdd 16 s.mxa.hw.bootCount 1 ∧
        t.clk.rootLock = true ∧ t.clk.oeLock = 0xFF#8) ∧
      (s.wmc.step = 3 → s.wmc.resetType ≠ 3 → ∀ rail, o.railFail = some rail → ∃ t,
        exec (.bootStepComplete o) s = .next t ∧ t.wmc.step = 3 ∧ t.wmc.railsOn = false ∧ t.evt.fatalDue = true) ∧
      (s.wmc.step = 3 → s.wmc.resetType = 3 → ∃ t, exec (.bootStepComplete o) s = .next t ∧ t.wmc.step = 5 ∧
        t.mxa.hw.bootCount = s.mxa.hw.bootCount) ∧
      (∀ c rest, s.wmc.step = 4 → bootSets s = c :: rest → bootReason (applyT1Records s) c = 0 → ∃ t,
        exec (.bootStepComplete o) s = .next t ∧ t.wmc.step = 5 ∧ t.wmc.active = clampSet c ∧
        t.wmc.factoryCfg = false) ∧
      (s.wmc.step = 4 → bootSets s = [] → ∃ t, exec (.bootStepComplete o) s = .next t ∧ t.wmc.step = 5 ∧
        t.wmc.active = clampSet (factorySet (applyT1Records s)) ∧ t.wmc.factoryCfg = true) ∧
      (s.wmc.step = 5 → ∃ t, exec (.bootStepComplete o) s = .next t ∧
        t.wmc.step = (if s.wmc.resetType = 3 then 7 else 6) ∧
        ∀ e, e < 8 → (t.port e).state = if (s.port e).enable then 1 else (s.port e).state) ∧
      (s.wmc.step = 6 → o.t1Fail = [] → ∃ t, exec (.bootStepComplete o) s = .next t ∧
        t.wmc = { s.wmc with step := 7 } ∧ SameBut [.boot] s t) ∧
      (s.wmc.step = 7 → ∃ t, exec (.bootStepComplete o) s = .next t ∧ t.isReady = true ∧ t.nvt.commits = [] ∧
        (t.wmc.nor.imageSlot k).trial = false)))
end

