-- ==== Sys2Proof/Laws/Keeps.lean ====
section
/-! SUPPORT. What an operation keeps, as a relation between the state before and after it: the waiting commands, the
canonical form of memory, the fuses, and every part outside a set. A set of parts is written as a number whose bit k
stands for the k-th part, so that the kernel compares sets by arithmetic. -/

namespace Sys2Proof.Machine

/-- What an operation that touches the parts of a set keeps. -/
structure Keeps (m : Nat) (s t : State) : Prop where
  pending : t.pending = s.pending
  free : s.free ≤ t.free
  memory : MemoryOk s → MemoryOk t
  fuses : FusesKept s t
  frame : ∀ p : Part, m.testBit p.ctorIdx = true ∨ p.same s t

theorem Part.same_refl (s : State) (p : Part) : p.same s s := by
  cases p <;> simp [Part.same]

theorem Part.same_trans {s t u : State} {p : Part} (h : p.same s t) (k : p.same t u) : p.same s u := by
  cases p <;> simp_all [Part.same]

theorem fusesKept_refl (s : State) : FusesKept s s := ⟨by simp, fun h => h⟩

theorem and_or_absorb (a b : BitVec 64) : a &&& (a ||| b) = a := by
  ext i; simp; exact Or.inl

theorem fusesKept_trans {s t u : State} (h : FusesKept s t) (k : FusesKept t u) : FusesKept s u := by
  refine ⟨?_, fun x => k.2 (h.2 x)⟩
  rw [← h.1, BitVec.and_assoc, k.1, h.1]

theorem Keeps.refl (m : Nat) (s : State) : Keeps m s s :=
  ⟨rfl, Nat.le_refl _, fun h => h, fusesKept_refl s, fun p => .inr (Part.same_refl s p)⟩

theorem bit_of_sub {g m k : Nat} (b : g.testBit k = true) (hm : (Nat.land g m == g) = true) : m.testBit k = true := by
  have e : g &&& m = g := by simpa using hm
  have := congrArg (fun n => n.testBit k) e
  simp only [Nat.testBit_and, b, Bool.true_and] at this
  exact this

theorem sub_trans {f g m : Nat} (h : (Nat.land f g == f) = true) (hm : (Nat.land g m == g) = true) :
    (Nat.land f m == f) = true := by
  have e : f &&& g = f := by simpa using h
  have e' : g &&& m = g := by simpa using hm
  have : f &&& m = f := by
    calc f &&& m = (f &&& g) &&& m := by rw [e]
      _ = f &&& (g &&& m) := Nat.and_assoc ..
      _ = f := by rw [e', e]
  simpa using this

/-- An operation of a smaller set after others of a set. -/
theorem Keeps.app {g m : Nat} {s t u : State} (hm : (Nat.land g m == g) = true) (k : Keeps g t u) (h : Keeps m s t) :
    Keeps m s u := by
  refine ⟨k.pending.trans h.pending, Nat.le_trans h.free k.free, fun x => k.memory (h.memory x),
    fusesKept_trans h.fuses k.fuses, fun p => ?_⟩
  rcases h.frame p with a | a
  · exact .inl a
  · rcases k.frame p with b | b
    · exact .inl (bit_of_sub b hm)
    · exact .inr (Part.same_trans a b)

theorem Keeps.weaken {g m : Nat} {s t : State} (hm : (Nat.land g m == g) = true) (k : Keeps g s t) : Keeps m s t :=
  k.app hm (Keeps.refl m s)

/-- The frame of an operation, in a list of parts. -/
theorem Keeps.sameBut {ps : List Part} {m : Nat} {s t : State} (k : Keeps m s t)
    (hm : ∀ p : Part, m.testBit p.ctorIdx = true → p ∈ ps) : SameBut ps s t :=
  fun p => (k.frame p).imp (hm p) id

theorem Keeps.ite {c : Prop} [Decidable c] {m : Nat} {s a b : State} (ha : Keeps m s a) (hb : Keeps m s b) :
    Keeps m s (if c then a else b) := by
  split <;> assumption

/-- What an operation that may answer no state keeps when it answers one. -/
def OptKeeps (m : Nat) (s : State) (o : Option State) : Prop := ∀ t, o = some t → Keeps m s t

theorem OptKeeps.out {m : Nat} {s t : State} {o : Option State} (e : o = some t) (h : OptKeeps m s o) : Keeps m s t :=
  h t e

theorem OptKeeps.app {g m : Nat} {s t : State} {o : Option State} (hm : (Nat.land g m == g) = true)
    (k : OptKeeps g t o) (h : Keeps m s t) : OptKeeps m s o := fun u e => (k u e).app hm h

theorem OptKeeps.none {m : Nat} {s : State} : OptKeeps m s none := fun _ e => nomatch e

theorem OptKeeps.some {m : Nat} {s t : State} (h : Keeps m s t) : OptKeeps m s (some t) := fun _ e => by
  cases e; exact h

theorem OptKeeps.map {α : Type} {m : Nat} {s : State} {f : α → State} {o : Option α} (h : ∀ a, Keeps m s (f a)) :
    OptKeeps m s (o.map f) := by
  intro t e
  cases o with
  | none => cases e
  | some a => cases e; exact h a

theorem OptKeeps.ite {c : Prop} [Decidable c] {m : Nat} {s : State} {a b : Option State} (ha : OptKeeps m s a)
    (hb : OptKeeps m s b) : OptKeeps m s (if c then a else b) := by
  split <;> assumption

theorem Keeps.mapGetD {α : Type} {m : Nat} {s d : State} {f : α → State} {o : Option α} (hd : Keeps m s d)
    (h : ∀ a, Keeps m s (f a)) : Keeps m s ((o.map f).getD d) := by
  cases o with
  | none => exact hd
  | some a => exact h a

theorem Keeps.outPair {β : Type} {m : Nat} {s a : State} {p : State × β} {b : β} (e : p = (a, b)) (h : Keeps m s p.1) :
    Keeps m s a := by
  subst e; exact h

theorem Keeps.foldl {α : Type} {m : Nat} {s0 : State} {f : State → α → State}
    (h : ∀ t x, Keeps m s0 t → Keeps m s0 (f t x)) :
    ∀ (l : List α) (s : State), Keeps m s0 s → Keeps m s0 (l.foldl f s)
  | [], _, hs => hs
  | x :: l, s, hs => Keeps.foldl h l (f s x) (h s x hs)

/-- Folds whose accumulator holds a state first. -/
theorem Keeps.foldlFst {α β : Type} {m : Nat} {s0 : State} {f : State × β → α → State × β}
    (h : ∀ b x, Keeps m s0 b.1 → Keeps m s0 (f b x).1) :
    ∀ (l : List α) (b : State × β), Keeps m s0 b.1 → Keeps m s0 (l.foldl f b).1
  | [], _, hb => hb
  | x :: l, b, hb => Keeps.foldlFst h l (f b x) (h b x hb)

end Sys2Proof.Machine
end

