-- ==== Sys2Proof/Laws/Tab.lean ====
section
/-! SUPPORT. Sparse tables: what a read gives after a write, and that every operation keeps the keys rising. -/

namespace Sys2Proof.Machine

variable {α : Type}

theorem tabGet_insert_same (d : α) (k : Nat) (v : α) : ∀ t : Tab α, (∀ x ∈ t, x.1 ≠ k) →
    tabGet d (tabInsert k v t) k = v
  | [], _ => by simp [tabInsert, tabGet]
  | (i, w) :: r, h => by
    have hi : i ≠ k := h (i, w) (by simp)
    by_cases c : k < i
    · simp [tabInsert, c, tabGet]
    · simp [tabInsert, c, tabGet, hi, tabGet_insert_same d k v r (fun x hx => h x (by simp [hx]))]

theorem tabGet_insert_ne (d : α) {k j : Nat} (v : α) (h : j ≠ k) : ∀ t : Tab α,
    tabGet d (tabInsert k v t) j = tabGet d t j
  | [] => by simp [tabInsert, tabGet, Ne.symm h]
  | (i, w) :: r => by
    by_cases c : k < i
    · simp [tabInsert, c, tabGet, Ne.symm h]
    · simp [tabInsert, c, tabGet, tabGet_insert_ne d v h r]

theorem tabGet_filter_ne (d : α) (f : Nat × α → Bool) {j : Nat} (h : ∀ v, f (j, v) = true) : ∀ t : Tab α,
    tabGet d (t.filter f) j = tabGet d t j
  | [] => rfl
  | (i, w) :: r => by
    by_cases c : i = j
    · subst c; simp [h w, tabGet]
    · by_cases e : f (i, w) = true
      · simp [e, tabGet, c, tabGet_filter_ne d f h r]
      · simp [e, tabGet, c, tabGet_filter_ne d f h r]

theorem tabGet_filter_none (d : α) (f : Nat × α → Bool) {j : Nat} (h : ∀ v, f (j, v) = false) : ∀ t : Tab α,
    tabGet d (t.filter f) j = d
  | [] => rfl
  | (i, w) :: r => by
    by_cases e : f (i, w) = true
    · have c : i ≠ j := by rintro rfl; simp [h w] at e
      simp [e, tabGet, c, tabGet_filter_none d f h r]
    · simp [e, tabGet_filter_none d f h r]

theorem tabDel_keys {k : Nat} (t : Tab α) : ∀ x ∈ tabDel t k, x.1 ≠ k := by
  intro x hx; simp [tabDel] at hx; exact hx.2

/-- A read of the key just written gives the value written. -/
@[simp] theorem tabGet_put_same [DecidableEq α] (d : α) (t : Tab α) (k : Nat) (v : α) :
    tabGet d (tabPut d t k v) k = v := by
  unfold tabPut
  split
  · next h => subst h; exact tabGet_filter_none _ _ (by simp) t
  · exact tabGet_insert_same d k v _ (tabDel_keys t)

/-- A write leaves every other key alone. -/
theorem tabGet_put_ne [DecidableEq α] (d : α) (t : Tab α) {k j : Nat} (v : α) (h : j ≠ k) :
    tabGet d (tabPut d t k v) j = tabGet d t j := by
  have e : tabGet d (tabDel t k) j = tabGet d t j := tabGet_filter_ne d _ (by simp [h]) t
  unfold tabPut
  split
  · exact e
  · rw [tabGet_insert_ne d v h, e]

theorem tabGet_put [DecidableEq α] (d : α) (t : Tab α) (k j : Nat) (v : α) :
    tabGet d (tabPut d t k v) j = if j = k then v else tabGet d t j := by
  split
  · next h => subst h; simp
  · next h => exact tabGet_put_ne d t v h

@[simp] theorem tabGet_mod_same [DecidableEq α] (d : α) (t : Tab α) (k : Nat) (f : α → α) :
    tabGet d (tabMod d t k f) k = f (tabGet d t k) := tabGet_put_same ..

theorem tabGet_mod_ne [DecidableEq α] (d : α) (t : Tab α) {k j : Nat} (f : α → α) (h : j ≠ k) :
    tabGet d (tabMod d t k f) j = tabGet d t j := tabGet_put_ne d t _ h

/-- Keys strictly rise. -/
def rising (t : Tab α) : Prop := t.Pairwise (fun a b => a.1 < b.1)

theorem rising_filter {t : Tab α} (f : Nat × α → Bool) (h : rising t) : rising (t.filter f) :=
  List.Pairwise.filter f h

theorem mem_tabInsert {k : Nat} {v : α} {x : Nat × α} : ∀ {t : Tab α}, x ∈ tabInsert k v t → x = (k, v) ∨ x ∈ t
  | [], h => by simp [tabInsert] at h; exact .inl h
  | (i, w) :: r, h => by
    by_cases c : k < i
    · simpa [tabInsert, c] using h
    · simp only [tabInsert, c, if_false, List.mem_cons] at h
      rcases h with h | h
      · exact .inr (by simp [h])
      · rcases mem_tabInsert h with e | e
        · exact .inl e
        · exact .inr (by simp [e])

theorem rising_insert {k : Nat} {v : α} : ∀ {t : Tab α}, rising t → (∀ x ∈ t, x.1 ≠ k) → rising (tabInsert k v t)
  | [], _, _ => by simp [tabInsert, rising]
  | (i, w) :: r, h, hk => by
    have hr := List.pairwise_cons.mp h
    by_cases c : k < i
    · simp only [tabInsert, c, if_true]
      refine List.pairwise_cons.mpr ⟨fun x hx => ?_, h⟩
      rcases List.mem_cons.mp hx with e | e
      · subst e; exact c
      · exact Nat.lt_trans c (hr.1 x e)
    · simp only [tabInsert, c, if_false]
      refine List.pairwise_cons.mpr ⟨fun x hx => ?_, rising_insert hr.2 (fun x hx => hk x (by simp [hx]))⟩
      rcases mem_tabInsert hx with e | e
      · subst e
        have := hk (i, w) (by simp)
        simp only [ne_eq] at this ⊢
        omega
      · exact hr.1 x e

theorem rising_put [DecidableEq α] {d : α} {t : Tab α} (k : Nat) (v : α) (h : rising t) : rising (tabPut d t k v) := by
  unfold tabPut
  split
  · exact rising_filter _ h
  · exact rising_insert (rising_filter _ h) (tabDel_keys t)

theorem mem_tabPut [DecidableEq α] {d : α} {t : Tab α} {k : Nat} {v : α} {x : Nat × α} (h : x ∈ tabPut d t k v) :
    (x = (k, v) ∧ v ≠ d) ∨ x ∈ t := by
  unfold tabPut at h
  split at h
  · exact .inr (List.mem_filter.mp h).1
  · next c =>
    rcases mem_tabInsert h with e | e
    · exact .inl ⟨e, c⟩
    · exact .inr (List.mem_filter.mp e).1

end Sys2Proof.Machine
end

