-- ==== Sys2Proof/Laws/Memory.lean ====
section
/-! SUPPORT. Bytes of memory: reads after writes, and the canonical form that every operation keeps. -/

namespace Sys2Proof.Machine

theorem memory_wf_iff (m : List Host.Cell) : Memory.wf m = true ↔ rising m ∧ ∀ x ∈ m, x.2 ≠ 0#8 := by
  simp [Memory.wf, rising]

/-- A read of the byte just written gives the value written. -/
@[simp] theorem rawByte_put_same (m : List Host.Cell) (k : Nat) (v : Byte) : rawByte (rawPut m k v) k = v :=
  tabGet_put_same ..

/-- A write leaves every other byte alone. -/
theorem rawByte_put_ne (m : List Host.Cell) {k j : Nat} (v : Byte) (h : j ≠ k) :
    rawByte (rawPut m k v) j = rawByte m j := tabGet_put_ne _ _ _ h

theorem memory_wf_put {m : List Host.Cell} (k : Nat) (v : Byte) (h : Memory.wf m = true) :
    Memory.wf (rawPut m k v) = true := by
  rw [memory_wf_iff] at h ⊢
  refine ⟨rising_put k v h.1, fun x hx => ?_⟩
  rcases mem_tabPut hx with ⟨e, c⟩ | e
  · subst e; exact c
  · exact h.2 x e

theorem memory_wf_filter {m : List Host.Cell} (f : Host.Cell → Bool) (h : Memory.wf m = true) :
    Memory.wf (m.filter f) = true := by
  rw [memory_wf_iff] at h ⊢
  exact ⟨rising_filter f h.1, fun x hx => h.2 x (List.mem_filter.mp hx).1⟩

theorem memory_wf_clear {m : List Host.Cell} (lo hi : Nat) (h : Memory.wf m = true) :
    Memory.wf (tabClear m lo hi) = true := memory_wf_filter _ h

theorem memory_wf_foldl {β : Type} {f : List Host.Cell → β → List Host.Cell}
    (hf : ∀ m x, Memory.wf m = true → Memory.wf (f m x) = true) :
    ∀ (l : List β) (m : List Host.Cell), Memory.wf m = true → Memory.wf (l.foldl f m) = true
  | [], _, h => h
  | x :: l, m, h => memory_wf_foldl hf l (f m x) (hf m x h)

theorem memory_wf_copy {m : List Host.Cell} (src dst len : Nat) (h : Memory.wf m = true) :
    Memory.wf (copyBytes m src dst len) = true :=
  memory_wf_foldl (fun _ _ h => memory_wf_put _ _ h) _ _ (memory_wf_clear _ _ h)

/-- A cleared range reads as zero. -/
theorem rawByte_clear_in {m : List Host.Cell} {lo hi k : Nat} (h1 : lo ≤ k) (h2 : k < hi) :
    rawByte (tabClear m lo hi) k = 0#8 :=
  tabGet_filter_none _ _ (by intro v; simp; omega) m

/-- A cleared range leaves every other byte alone. -/
theorem rawByte_clear_out {m : List Host.Cell} {lo hi k : Nat} (h : k < lo ∨ hi ≤ k) :
    rawByte (tabClear m lo hi) k = rawByte m k :=
  tabGet_filter_ne _ _ (by intro v; simpa using h) m

end Sys2Proof.Machine
end

