-- ==== Sys2Proof/Laws/KeepsBlock.lean ====
section
/-! SUPPORT. What an update of one block keeps. -/

namespace Sys2Proof.Machine

theorem keeps_modWmc {m : Nat} {s0 s : State} {f : WmcSt → WmcSt} (h : Keeps m s0 s)
    (h0 : m.testBit 4 = true ∨ Part.same s (modWmc f s) .logs) (h1 : m.testBit 53 = true ∨ Part.same s (modWmc f s) .boot) (h2 : m.testBit 54 = true ∨ Part.same s (modWmc f s) .images) (h3 : m.testBit 55 = true ∨ Part.same s (modWmc f s) .records) (h4 : m.testBit 56 = true ∨ Part.same s (modWmc f s) .config) (h5 : m.testBit 57 = true ∨ Part.same s (modWmc f s) .staging) (h6 : m.testBit 58 = true ∨ Part.same s (modWmc f s) .sensors) (h7 : m.testBit 59 = true ∨ Part.same s (modWmc f s) .answers) :
    Keeps m s0 (modWmc f s) := by
  refine ⟨h.pending, h.free, h.memory, h.fuses, fun p => ?_⟩
  cases p
  case logs => exact h0.elim .inl (fun e => (h.frame .logs).imp id (fun a => Part.same_trans a e))
  case boot => exact h1.elim .inl (fun e => (h.frame .boot).imp id (fun a => Part.same_trans a e))
  case images => exact h2.elim .inl (fun e => (h.frame .images).imp id (fun a => Part.same_trans a e))
  case records => exact h3.elim .inl (fun e => (h.frame .records).imp id (fun a => Part.same_trans a e))
  case config => exact h4.elim .inl (fun e => (h.frame .config).imp id (fun a => Part.same_trans a e))
  case staging => exact h5.elim .inl (fun e => (h.frame .staging).imp id (fun a => Part.same_trans a e))
  case sensors => exact h6.elim .inl (fun e => (h.frame .sensors).imp id (fun a => Part.same_trans a e))
  case answers => exact h7.elim .inl (fun e => (h.frame .answers).imp id (fun a => Part.same_trans a e))
  all_goals exact (h.frame _).imp id (fun a => a)

theorem keeps_modEvt {m : Nat} {s0 s : State} {f : EventSt → EventSt} (h : Keeps m s0 s)
    (h0 : m.testBit 1 = true ∨ Part.same s (modEvt f s) .events) (h1 : m.testBit 2 = true ∨ Part.same s (modEvt f s) .eventRing) (h2 : m.testBit 3 = true ∨ Part.same s (modEvt f s) .halts) :
    Keeps m s0 (modEvt f s) := by
  refine ⟨h.pending, h.free, h.memory, h.fuses, fun p => ?_⟩
  cases p
  case events => exact h0.elim .inl (fun e => (h.frame .events).imp id (fun a => Part.same_trans a e))
  case eventRing => exact h1.elim .inl (fun e => (h.frame .eventRing).imp id (fun a => Part.same_trans a e))
  case halts => exact h2.elim .inl (fun e => (h.frame .halts).imp id (fun a => Part.same_trans a e))
  all_goals exact (h.frame _).imp id (fun a => a)

theorem keeps_modPci {m : Nat} {s0 s : State} {f : PciSt → PciSt} (h : Keeps m s0 s)
    (h0 : m.testBit 5 = true ∨ Part.same s (modPci f s) .messages) (h1 : m.testBit 6 = true ∨ Part.same s (modPci f s) .link) (h2 : m.testBit 7 = true ∨ Part.same s (modPci f s) .functions) (h3 : m.testBit 8 = true ∨ Part.same s (modPci f s) .dma) (h4 : m.testBit 9 = true ∨ Part.same s (modPci f s) .bar2) :
    Keeps m s0 (modPci f s) := by
  refine ⟨h.pending, h.free, h.memory, h.fuses, fun p => ?_⟩
  cases p
  case messages => exact h0.elim .inl (fun e => (h.frame .messages).imp id (fun a => Part.same_trans a e))
  case link => exact h1.elim .inl (fun e => (h.frame .link).imp id (fun a => Part.same_trans a e))
  case functions => exact h2.elim .inl (fun e => (h.frame .functions).imp id (fun a => Part.same_trans a e))
  case dma => exact h3.elim .inl (fun e => (h.frame .dma).imp id (fun a => Part.same_trans a e))
  case bar2 => exact h4.elim .inl (fun e => (h.frame .bar2).imp id (fun a => Part.same_trans a e))
  all_goals exact (h.frame _).imp id (fun a => a)

theorem keeps_modTcs {m : Nat} {s0 s : State} {f : TcsSt → TcsSt} (h : Keeps m s0 s)
    (h0 : m.testBit 10 = true ∨ Part.same s (modTcs f s) .queues) (h1 : m.testBit 11 = true ∨ Part.same s (modTcs f s) .keepers) (h2 : m.testBit 12 = true ∨ Part.same s (modTcs f s) .inflight) (h3 : m.testBit 13 = true ∨ Part.same s (modTcs f s) .response) (h4 : m.testBit 14 = true ∨ Part.same s (modTcs f s) .admission) (h5 : m.testBit 15 = true ∨ Part.same s (modTcs f s) .envelopes) :
    Keeps m s0 (modTcs f s) := by
  refine ⟨h.pending, h.free, h.memory, h.fuses, fun p => ?_⟩
  cases p
  case queues => exact h0.elim .inl (fun e => (h.frame .queues).imp id (fun a => Part.same_trans a e))
  case keepers => exact h1.elim .inl (fun e => (h.frame .keepers).imp id (fun a => Part.same_trans a e))
  case inflight => exact h2.elim .inl (fun e => (h.frame .inflight).imp id (fun a => Part.same_trans a e))
  case response => exact h3.elim .inl (fun e => (h.frame .response).imp id (fun a => Part.same_trans a e))
  case admission => exact h4.elim .inl (fun e => (h.frame .admission).imp id (fun a => Part.same_trans a e))
  case envelopes => exact h5.elim .inl (fun e => (h.frame .envelopes).imp id (fun a => Part.same_trans a e))
  all_goals exact (h.frame _).imp id (fun a => a)

theorem keeps_modMxa {m : Nat} {s0 s : State} {f : MxaSt → MxaSt} (h : Keeps m s0 s)
    (h0 : m.testBit 16 = true ∨ Part.same s (modMxa f s) .arrays) (h1 : m.testBit 17 = true ∨ Part.same s (modMxa f s) .arrayFacts) (h2 : m.testBit 18 = true ∨ Part.same s (modMxa f s) .current) :
    Keeps m s0 (modMxa f s) := by
  refine ⟨h.pending, h.free, h.memory, h.fuses, fun p => ?_⟩
  cases p
  case arrays => exact h0.elim .inl (fun e => (h.frame .arrays).imp id (fun a => Part.same_trans a e))
  case arrayFacts => exact h1.elim .inl (fun e => (h.frame .arrayFacts).imp id (fun a => Part.same_trans a e))
  case current => exact h2.elim .inl (fun e => (h.frame .current).imp id (fun a => Part.same_trans a e))
  all_goals exact (h.frame _).imp id (fun a => a)

theorem keeps_modMemBytes {m : Nat} {s0 s : State} {f : MemSt → MemSt} (h : Keeps m s0 s)
    (hw : MemoryOk s → MemoryOk (modMem f s)) (h0 : m.testBit 19 = true ∨ Part.same s (modMem f s) .regions) (h1 : m.testBit 20 = true ∨ Part.same s (modMem f s) .bolts) (h2 : m.testBit 21 = true ∨ Part.same s (modMem f s) .bytes) (h3 : m.testBit 22 = true ∨ Part.same s (modMem f s) .mailbox) (h4 : m.testBit 23 = true ∨ Part.same s (modMem f s) .runAhead) (h5 : m.testBit 24 = true ∨ Part.same s (modMem f s) .reservations) (h6 : m.testBit 25 = true ∨ Part.same s (modMem f s) .t1Faults) :
    Keeps m s0 (modMem f s) := by
  refine ⟨h.pending, h.free, fun x => hw (h.memory x), h.fuses, fun p => ?_⟩
  cases p
  case regions => exact h0.elim .inl (fun e => (h.frame .regions).imp id (fun a => Part.same_trans a e))
  case bolts => exact h1.elim .inl (fun e => (h.frame .bolts).imp id (fun a => Part.same_trans a e))
  case bytes => exact h2.elim .inl (fun e => (h.frame .bytes).imp id (fun a => Part.same_trans a e))
  case mailbox => exact h3.elim .inl (fun e => (h.frame .mailbox).imp id (fun a => Part.same_trans a e))
  case runAhead => exact h4.elim .inl (fun e => (h.frame .runAhead).imp id (fun a => Part.same_trans a e))
  case reservations => exact h5.elim .inl (fun e => (h.frame .reservations).imp id (fun a => Part.same_trans a e))
  case t1Faults => exact h6.elim .inl (fun e => (h.frame .t1Faults).imp id (fun a => Part.same_trans a e))
  all_goals exact (h.frame _).imp id (fun a => a)

theorem keeps_modMem {m : Nat} {s0 s : State} {f : MemSt → MemSt} (h : Keeps m s0 s)
    (hw : ∀ x, (f x).bytes = x.bytes) (h0 : m.testBit 19 = true ∨ Part.same s (modMem f s) .regions) (h1 : m.testBit 20 = true ∨ Part.same s (modMem f s) .bolts) (h2 : m.testBit 21 = true ∨ Part.same s (modMem f s) .bytes) (h3 : m.testBit 22 = true ∨ Part.same s (modMem f s) .mailbox) (h4 : m.testBit 23 = true ∨ Part.same s (modMem f s) .runAhead) (h5 : m.testBit 24 = true ∨ Part.same s (modMem f s) .reservations) (h6 : m.testBit 25 = true ∨ Part.same s (modMem f s) .t1Faults) :
    Keeps m s0 (modMem f s) :=
  keeps_modMemBytes h (fun w => by unfold MemoryOk modMem; rw [hw]; exact w) h0 h1 h2 h3 h4 h5 h6

theorem keeps_modGab {m : Nat} {s0 s : State} {f : GabSt → GabSt} (h : Keeps m s0 s)
    (h0 : m.testBit 26 = true ∨ Part.same s (modGab f s) .gab) (h1 : m.testBit 27 = true ∨ Part.same s (modGab f s) .contributions) :
    Keeps m s0 (modGab f s) := by
  refine ⟨h.pending, h.free, h.memory, h.fuses, fun p => ?_⟩
  cases p
  case gab => exact h0.elim .inl (fun e => (h.frame .gab).imp id (fun a => Part.same_trans a e))
  case contributions => exact h1.elim .inl (fun e => (h.frame .contributions).imp id (fun a => Part.same_trans a e))
  all_goals exact (h.frame _).imp id (fun a => a)

theorem keeps_modNvt {m : Nat} {s0 s : State} {f : NvtSt → NvtSt} (h : Keeps m s0 s)
    (h0 : m.testBit 28 = true ∨ Part.same s (modNvt f s) .flash) (h1 : m.testBit 29 = true ∨ Part.same s (modNvt f s) .checkpoints) (h2 : m.testBit 30 = true ∨ Part.same s (modNvt f s) .journal) (h3 : m.testBit 31 = true ∨ Part.same s (modNvt f s) .collection) :
    Keeps m s0 (modNvt f s) := by
  refine ⟨h.pending, h.free, h.memory, h.fuses, fun p => ?_⟩
  cases p
  case flash => exact h0.elim .inl (fun e => (h.frame .flash).imp id (fun a => Part.same_trans a e))
  case checkpoints => exact h1.elim .inl (fun e => (h.frame .checkpoints).imp id (fun a => Part.same_trans a e))
  case journal => exact h2.elim .inl (fun e => (h.frame .journal).imp id (fun a => Part.same_trans a e))
  case collection => exact h3.elim .inl (fun e => (h.frame .collection).imp id (fun a => Part.same_trans a e))
  all_goals exact (h.frame _).imp id (fun a => a)

theorem keeps_modCol {m : Nat} {s0 s : State} {f : ColSt → ColSt} (h : Keeps m s0 s)
    (h0 : m.testBit 33 = true ∨ Part.same s (modCol f s) .coordinates) (h1 : m.testBit 34 = true ∨ Part.same s (modCol f s) .groups) (h2 : m.testBit 35 = true ∨ Part.same s (modCol f s) .collectives) (h3 : m.testBit 36 = true ∨ Part.same s (modCol f s) .streams) (h4 : m.testBit 37 = true ∨ Part.same s (modCol f s) .colCounters) :
    Keeps m s0 (modCol f s) := by
  refine ⟨h.pending, h.free, h.memory, h.fuses, fun p => ?_⟩
  cases p
  case coordinates => exact h0.elim .inl (fun e => (h.frame .coordinates).imp id (fun a => Part.same_trans a e))
  case groups => exact h1.elim .inl (fun e => (h.frame .groups).imp id (fun a => Part.same_trans a e))
  case collectives => exact h2.elim .inl (fun e => (h.frame .collectives).imp id (fun a => Part.same_trans a e))
  case streams => exact h3.elim .inl (fun e => (h.frame .streams).imp id (fun a => Part.same_trans a e))
  case colCounters => exact h4.elim .inl (fun e => (h.frame .colCounters).imp id (fun a => Part.same_trans a e))
  all_goals exact (h.frame _).imp id (fun a => a)

theorem keeps_modFap {m : Nat} {s0 s : State} {f : FapSt → FapSt} (h : Keeps m s0 s)
    (h0 : m.testBit 38 = true ∨ Part.same s (modFap f s) .agreement) (h1 : m.testBit 39 = true ∨ Part.same s (modFap f s) .fapCounters) :
    Keeps m s0 (modFap f s) := by
  refine ⟨h.pending, h.free, h.memory, h.fuses, fun p => ?_⟩
  cases p
  case agreement => exact h0.elim .inl (fun e => (h.frame .agreement).imp id (fun a => Part.same_trans a e))
  case fapCounters => exact h1.elim .inl (fun e => (h.frame .fapCounters).imp id (fun a => Part.same_trans a e))
  all_goals exact (h.frame _).imp id (fun a => a)

theorem keeps_modSec {m : Nat} {s0 s : State} {f : SecSt → SecSt} (h : Keeps m s0 s)
    (hw : FusesKept s (modSec f s)) (h0 : m.testBit 40 = true ∨ Part.same s (modSec f s) .fuses) (h1 : m.testBit 41 = true ∨ Part.same s (modSec f s) .secrets) :
    Keeps m s0 (modSec f s) := by
  refine ⟨h.pending, h.free, h.memory, fusesKept_trans h.fuses hw, fun p => ?_⟩
  cases p
  case fuses => exact h0.elim .inl (fun e => (h.frame .fuses).imp id (fun a => Part.same_trans a e))
  case secrets => exact h1.elim .inl (fun e => (h.frame .secrets).imp id (fun a => Part.same_trans a e))
  all_goals exact (h.frame _).imp id (fun a => a)

theorem keeps_modPwr {m : Nat} {s0 s : State} {f : PwrSt → PwrSt} (h : Keeps m s0 s)
    (h0 : m.testBit 42 = true ∨ Part.same s (modPwr f s) .power) :
    Keeps m s0 (modPwr f s) := by
  refine ⟨h.pending, h.free, h.memory, h.fuses, fun p => ?_⟩
  cases p
  case power => exact h0.elim .inl (fun e => (h.frame .power).imp id (fun a => Part.same_trans a e))
  all_goals exact (h.frame _).imp id (fun a => a)

theorem keeps_modClk {m : Nat} {s0 s : State} {f : ClkSt → ClkSt} (h : Keeps m s0 s)
    (h0 : m.testBit 43 = true ∨ Part.same s (modClk f s) .clocks) (h1 : m.testBit 44 = true ∨ Part.same s (modClk f s) .time) :
    Keeps m s0 (modClk f s) := by
  refine ⟨h.pending, h.free, h.memory, h.fuses, fun p => ?_⟩
  cases p
  case clocks => exact h0.elim .inl (fun e => (h.frame .clocks).imp id (fun a => Part.same_trans a e))
  case time => exact h1.elim .inl (fun e => (h.frame .time).imp id (fun a => Part.same_trans a e))
  all_goals exact (h.frame _).imp id (fun a => a)

theorem keeps_modCnt {m : Nat} {s0 s : State} {f : CntSt → CntSt} (h : Keeps m s0 s)
    (h0 : m.testBit 45 = true ∨ Part.same s (modCnt f s) .clampCounters) (h1 : m.testBit 46 = true ∨ Part.same s (modCnt f s) .accCounters) (h2 : m.testBit 47 = true ∨ Part.same s (modCnt f s) .lateCounters) (h3 : m.testBit 48 = true ∨ Part.same s (modCnt f s) .selvCounters) (h4 : m.testBit 49 = true ∨ Part.same s (modCnt f s) .phases) (h5 : m.testBit 50 = true ∨ Part.same s (modCnt f s) .normRings) (h6 : m.testBit 51 = true ∨ Part.same s (modCnt f s) .stallCounters) (h7 : m.testBit 52 = true ∨ Part.same s (modCnt f s) .fillCounter) :
    Keeps m s0 (modCnt f s) := by
  refine ⟨h.pending, h.free, h.memory, h.fuses, fun p => ?_⟩
  cases p
  case clampCounters => exact h0.elim .inl (fun e => (h.frame .clampCounters).imp id (fun a => Part.same_trans a e))
  case accCounters => exact h1.elim .inl (fun e => (h.frame .accCounters).imp id (fun a => Part.same_trans a e))
  case lateCounters => exact h2.elim .inl (fun e => (h.frame .lateCounters).imp id (fun a => Part.same_trans a e))
  case selvCounters => exact h3.elim .inl (fun e => (h.frame .selvCounters).imp id (fun a => Part.same_trans a e))
  case phases => exact h4.elim .inl (fun e => (h.frame .phases).imp id (fun a => Part.same_trans a e))
  case normRings => exact h5.elim .inl (fun e => (h.frame .normRings).imp id (fun a => Part.same_trans a e))
  case stallCounters => exact h6.elim .inl (fun e => (h.frame .stallCounters).imp id (fun a => Part.same_trans a e))
  case fillCounter => exact h7.elim .inl (fun e => (h.frame .fillCounter).imp id (fun a => Part.same_trans a e))
  all_goals exact (h.frame _).imp id (fun a => a)

end Sys2Proof.Machine
end

