-- ==== Sys2Proof/Laws/KeepsOps.lean ====
section
/-! SUPPORT. What the operations of Machine/Ops.lean keep. -/

namespace Sys2Proof.Machine

set_option linter.unusedSimpArgs false
set_option linter.unusedVariables false

theorem keeps_setQueue : ∀ a0 a1 s, Keeps 1024 s (setQueue a0 a1 s) := by
  intro a0 a1 s
  have h := Keeps.refl 1024 s
  delta setQueue
  repeat' first
    | with_reducible assumption
    | ((try lift_lets -underBinder); intro x; clear_value x)
    | exact rfl
    | with_reducible apply keeps_modTcs ?_ ?_ ?_ ?_ ?_ ?_ ?_
    | ((with_reducible apply Or.inl); exact rfl)
    | ((with_reducible apply Or.inr); simp only [Part.same, and_self, modTcs])

theorem keeps_modQueue : ∀ a0 a1 s, Keeps 1024 s (modQueue a0 a1 s) := by
  intro a0 a1 s
  have h := Keeps.refl 1024 s
  delta modQueue
  repeat' first
    | with_reducible assumption
    | with_reducible apply Keeps.app ?_ (keeps_setQueue ..) ?_
    | exact rfl

theorem keeps_setKeeper : ∀ a0 a1 s, Keeps 2048 s (setKeeper a0 a1 s) := by
  intro a0 a1 s
  have h := Keeps.refl 2048 s
  delta setKeeper
  repeat' first
    | with_reducible assumption
    | ((try lift_lets -underBinder); intro x; clear_value x)
    | exact rfl
    | with_reducible apply keeps_modTcs ?_ ?_ ?_ ?_ ?_ ?_ ?_
    | ((with_reducible apply Or.inl); exact rfl)
    | ((with_reducible apply Or.inr); simp only [Part.same, and_self, modTcs])

theorem keeps_modInflight : ∀ a0 a1 a2 s, Keeps 4096 s (modInflight a0 a1 a2 s) := by
  intro a0 a1 a2 s
  have h := Keeps.refl 4096 s
  delta modInflight
  repeat' first
    | with_reducible assumption
    | ((try lift_lets -underBinder); intro x; clear_value x)
    | with_reducible apply Keeps.ite ?_ ?_
    | exact rfl
    | with_reducible apply keeps_modTcs ?_ ?_ ?_ ?_ ?_ ?_ ?_
    | ((with_reducible apply Or.inl); exact rfl)
    | ((with_reducible apply Or.inr); simp only [Part.same, and_self, modTcs])
    | split

theorem keeps_markDone : ∀ a0 a1 s, Keeps 4096 s (markDone a0 a1 s) := by
  intro a0 a1 s
  have h := Keeps.refl 4096 s
  delta markDone
  repeat' first
    | with_reducible assumption
    | ((try lift_lets -underBinder); intro x; clear_value x)
    | with_reducible apply Keeps.app ?_ (keeps_modInflight ..) ?_
    | exact rfl

theorem keeps_markStarted : ∀ a0 a1 s, Keeps 4096 s (markStarted a0 a1 s) := by
  intro a0 a1 s
  have h := Keeps.refl 4096 s
  delta markStarted
  repeat' first
    | with_reducible assumption
    | ((try lift_lets -underBinder); intro x; clear_value x)
    | with_reducible apply Keeps.ite ?_ ?_
    | with_reducible apply Keeps.app ?_ (keeps_modInflight ..) ?_
    | exact rfl
    | split

theorem keeps_modArr : ∀ a0 a1 s, Keeps 65536 s (modArr a0 a1 s) := by
  intro a0 a1 s
  have h := Keeps.refl 65536 s
  delta modArr
  repeat' first
    | with_reducible assumption
    | ((try lift_lets -underBinder); intro x; clear_value x)
    | exact rfl
    | with_reducible apply keeps_modMxa ?_ ?_ ?_ ?_
    | ((with_reducible apply Or.inl); exact rfl)
    | ((with_reducible apply Or.inr); simp only [Part.same, and_self, modMxa])

theorem keeps_modEnv : ∀ a0 a1 s, Keeps 32768 s (modEnv a0 a1 s) := by
  intro a0 a1 s
  have h := Keeps.refl 32768 s
  delta modEnv
  repeat' first
    | with_reducible assumption
    | ((try lift_lets -underBinder); intro x; clear_value x)
    | with_reducible apply Keeps.ite ?_ ?_
    | exact rfl
    | with_reducible apply keeps_modTcs ?_ ?_ ?_ ?_ ?_ ?_ ?_
    | ((with_reducible apply Or.inl); exact rfl)
    | ((with_reducible apply Or.inr); simp only [Part.same, and_self, modTcs])
    | split

theorem keeps_bumpFree : ∀ n s, Keeps 1 s (bumpFree n s) := by
  intro n s
  refine ⟨rfl, Nat.le_add_right _ _, id, fusesKept_refl _, fun p => ?_⟩
  cases p
  case free => exact .inl rfl
  all_goals exact .inr (by simp [Part.same, bumpFree])

end Sys2Proof.Machine
end

