-- ==== Sys2Proof/Laws/KeepsFtl.lean ====
section
/-! SUPPORT. What the operations of Machine/Ftl.lean keep. -/

namespace Sys2Proof.Machine

set_option linter.unusedSimpArgs false
set_option linter.unusedVariables false

theorem keeps_modBlock : ∀ a0 a1 s, Keeps 268435456 s (modBlock a0 a1 s) := by
  intro a0 a1 s
  have h := Keeps.refl 268435456 s
  delta modBlock
  repeat' first
    | with_reducible assumption
    | ((try lift_lets -underBinder); intro x; clear_value x)
    | exact rfl
    | with_reducible apply keeps_modNvt ?_ ?_ ?_ ?_ ?_
    | ((with_reducible apply Or.inl); exact rfl)
    | ((with_reducible apply Or.inr); simp only [Part.same, and_self, modNvt])

theorem keeps_noteProgram : ∀ a0 a1 s, Keeps 268435456 s (noteProgram a0 a1 s) := by
  intro a0 a1 s
  have h := Keeps.refl 268435456 s
  delta noteProgram
  repeat' first
    | with_reducible assumption
    | ((try lift_lets -underBinder); intro x; clear_value x)
    | with_reducible apply Keeps.ite ?_ ?_
    | exact rfl
    | with_reducible apply keeps_modNvt ?_ ?_ ?_ ?_ ?_
    | ((with_reducible apply Or.inl); exact rfl)
    | ((with_reducible apply Or.inr); simp only [Part.same, and_self, modNvt])
    | split
    | (dsimp -zeta only)

theorem keeps_programPage : ∀ a0 a1 a2 s, Keeps 268435456 s (programPage a0 a1 a2 s) := by
  intro a0 a1 a2 s
  have h := Keeps.refl 268435456 s
  delta programPage
  repeat' first
    | with_reducible assumption
    | ((try lift_lets -underBinder); intro (x : State); refine have hx : Keeps 268435456 s x := ?_; ?_; rotate_left; clear_value x; rotate_right; dsimp -zeta only [x]; clear x)
    | ((try lift_lets -underBinder); intro x; clear_value x)
    | with_reducible apply Keeps.ite ?_ ?_
    | with_reducible apply Keeps.app ?_ (keeps_noteProgram ..) ?_
    | with_reducible apply Keeps.app ?_ (keeps_modBlock ..) ?_
    | exact rfl
    | with_reducible apply keeps_modNvt ?_ ?_ ?_ ?_ ?_
    | ((with_reducible apply Or.inl); exact rfl)
    | ((with_reducible apply Or.inr); simp only [Part.same, and_self, modNvt])
    | split

theorem keeps_ftlPlace : ∀ a0 a1 a2 a3 a4 s, Keeps 268435456 s (ftlPlace a0 a1 a2 a3 a4 s) := by
  intro a0 a1 a2 a3 a4 s
  have h := Keeps.refl 268435456 s
  delta ftlPlace
  repeat' first
    | with_reducible assumption
    | with_reducible apply Keeps.app ?_ (keeps_programPage ..) ?_
    | exact rfl
    | with_reducible apply Keeps.foldl ?_ _ _ ?_
    | with_reducible apply Keeps.foldlFst ?_ _ _ ?_
    | (intro _ _ _)

theorem keeps_ftlFree : ∀ a0 s, Keeps 268435456 s (ftlFree a0 s) := by
  intro a0 s
  have h := Keeps.refl 268435456 s
  delta ftlFree
  repeat' first
    | with_reducible assumption
    | ((try lift_lets -underBinder); intro (x : State); refine have hx : Keeps 268435456 s x := ?_; ?_; rotate_left; clear_value x; rotate_right; dsimp -zeta only [x]; clear x)
    | ((try lift_lets -underBinder); intro x; clear_value x)
    | with_reducible apply Keeps.ite ?_ ?_
    | exact rfl
    | with_reducible apply keeps_modNvt ?_ ?_ ?_ ?_ ?_
    | ((with_reducible apply Or.inl); exact rfl)
    | ((with_reducible apply Or.inr); simp only [Part.same, and_self, modNvt])
    | split
    | (dsimp -zeta only)

theorem keeps_ftlFreeBolt : ∀ a0 a1 a2 s, Keeps 268435456 s (ftlFreeBolt a0 a1 a2 s) := by
  intro a0 a1 a2 s
  have h := Keeps.refl 268435456 s
  delta ftlFreeBolt
  repeat' first
    | with_reducible assumption
    | with_reducible apply Keeps.app ?_ (keeps_ftlFree ..) ?_
    | exact rfl

theorem keeps_ftlReadPages : ∀ a0 s, Keeps 268435456 s (ftlReadPages a0 s) := by
  intro a0 s
  have h := Keeps.refl 268435456 s
  delta ftlReadPages
  repeat' first
    | with_reducible assumption
    | ((try lift_lets -underBinder); intro (x : State); refine have hx : Keeps 268435456 s x := ?_; ?_; rotate_left; clear_value x; rotate_right; dsimp -zeta only [x]; clear x)
    | ((try lift_lets -underBinder); intro x; clear_value x)
    | with_reducible apply Keeps.ite ?_ ?_
    | exact rfl
    | with_reducible apply keeps_modNvt ?_ ?_ ?_ ?_ ?_
    | ((with_reducible apply Or.inl); exact rfl)
    | ((with_reducible apply Or.inr); simp only [Part.same, and_self, modNvt])
    | split
    | (dsimp -zeta only)

theorem keeps_ftlRead : ∀ a0 a1 a2 s, Keeps 268435456 s (ftlRead a0 a1 a2 s) := by
  intro a0 a1 a2 s
  have h := Keeps.refl 268435456 s
  delta ftlRead
  repeat' first
    | with_reducible assumption
    | with_reducible apply Keeps.app ?_ (keeps_ftlReadPages ..) ?_
    | exact rfl

end Sys2Proof.Machine
end

