-- ==== Sys2Proof/Laws/KeepsMem.lean ====
section
/-! SUPPORT. What the operations of Machine/Mem.lean keep. -/

namespace Sys2Proof.Machine

set_option linter.unusedSimpArgs false
set_option linter.unusedVariables false

theorem keeps_setBolt : ∀ a0 a1 a2 a3 s, Keeps 269484032 s (setBolt a0 a1 a2 a3 s) := by
  intro a0 a1 a2 a3 s
  have h := Keeps.refl 269484032 s
  delta setBolt
  repeat' first
    | with_reducible assumption
    | ((try lift_lets -underBinder); intro (x : State); refine have hx : Keeps 269484032 s x := ?_; ?_; rotate_left; clear_value x; rotate_right; dsimp -zeta only [x]; clear x)
    | ((try lift_lets -underBinder); intro x; clear_value x)
    | with_reducible apply Keeps.ite ?_ ?_
    | with_reducible apply Keeps.app ?_ (keeps_ftlPlace ..) ?_
    | with_reducible apply Keeps.app ?_ (keeps_ftlFreeBolt ..) ?_
    | exact rfl
    | with_reducible apply keeps_modMem ?_ ?_ ?_ ?_ ?_ ?_ ?_ ?_ ?_
    | ((with_reducible apply Or.inl); exact rfl)
    | ((with_reducible apply Or.inr); simp only [Part.same, and_self, modMem])
    | (intro _; exact rfl)
    | (intro w; exact w)
    | exact fun h => memory_wf_put _ _ h
    | exact fun h => memory_wf_clear _ _ h
    | exact fun h => memory_wf_copy _ _ _ h
    | exact fun h => memory_wf_foldl (fun _ _ k => memory_wf_put _ _ k) _ _ (memory_wf_filter _ h)
    | exact fun h => memory_wf_foldl (fun _ _ k => memory_wf_put _ _ k) _ _ h
    | split

theorem keeps_homeRecord : ∀ a0 a1 a2 s, Keeps 1073741824 s (homeRecord a0 a1 a2 s) := by
  intro a0 a1 a2 s
  have h := Keeps.refl 1073741824 s
  delta homeRecord
  repeat' first
    | with_reducible assumption
    | ((try lift_lets -underBinder); intro x; clear_value x)
    | exact rfl
    | with_reducible apply keeps_modNvt ?_ ?_ ?_ ?_ ?_
    | ((with_reducible apply Or.inl); exact rfl)
    | ((with_reducible apply Or.inr); simp only [Part.same, and_self, modNvt])

theorem keeps_writeDown : ∀ a0 a1 s, Keeps 1343225856 s (writeDown a0 a1 s) := by
  intro a0 a1 s
  have h := Keeps.refl 1343225856 s
  delta writeDown
  repeat' first
    | with_reducible assumption
    | ((try lift_lets -underBinder); intro (x : State); refine have hx : Keeps 1343225856 s x := ?_; ?_; rotate_left; clear_value x; rotate_right; dsimp -zeta only [x]; clear x)
    | ((try lift_lets -underBinder); intro x; clear_value x)
    | with_reducible apply Keeps.ite ?_ ?_
    | with_reducible apply Keeps.app ?_ (keeps_setBolt ..) ?_
    | with_reducible apply Keeps.app ?_ (keeps_homeRecord ..) ?_
    | exact rfl
    | split

theorem keeps_evictT1 : ∀ a0 s, Keeps 1343225856 s (evictT1 a0 s) := by
  intro a0 s
  have h := Keeps.refl 1343225856 s
  delta evictT1
  repeat' first
    | with_reducible assumption
    | ((try lift_lets -underBinder); intro (x : State); refine have hx : Keeps 1343225856 s x := ?_; ?_; rotate_left; clear_value x; rotate_right; dsimp -zeta only [x]; clear x)
    | ((try lift_lets -underBinder); intro x; clear_value x)
    | with_reducible apply Keeps.ite ?_ ?_
    | with_reducible apply Keeps.app ?_ (keeps_setBolt ..) ?_
    | with_reducible apply Keeps.app ?_ (keeps_writeDown ..) ?_
    | exact rfl
    | split

theorem keeps_claimT1 : ∀ a0 a1 s, OptKeeps 1343225856 s (claimT1 a0 a1 s) := by
  intro a0 a1 s
  have h := Keeps.refl 1343225856 s
  delta claimT1
  repeat' first
    | with_reducible assumption
    | with_reducible apply Keeps.ite ?_ ?_
    | with_reducible apply Keeps.app ?_ (keeps_evictT1 ..) ?_
    | exact OptKeeps.none
    | with_reducible apply OptKeeps.some
    | with_reducible apply OptKeeps.map
    | with_reducible apply OptKeeps.ite
    | ((with_reducible apply OptKeeps.out); assumption)
    | (intro _)
    | exact rfl
    | split

theorem keeps_evictT0 : ∀ a0 s, Keeps 1343225856 s (evictT0 a0 s) := by
  intro a0 s
  have h := Keeps.refl 1343225856 s
  delta evictT0
  repeat' first
    | with_reducible assumption
    | ((try lift_lets -underBinder); intro (x : State); refine have hx : Keeps 1343225856 s x := ?_; ?_; rotate_left; clear_value x; rotate_right; dsimp -zeta only [x]; clear x)
    | ((try lift_lets -underBinder); intro (x : Option State); refine have hx : OptKeeps 1343225856 s x := ?_; ?_; rotate_left; clear_value x; rotate_right; dsimp -zeta only [x]; clear x)
    | ((try lift_lets -underBinder); intro x; clear_value x)
    | with_reducible apply Keeps.ite ?_ ?_
    | with_reducible apply Keeps.app ?_ (keeps_setBolt ..) ?_
    | with_reducible apply OptKeeps.app ?_ (keeps_claimT1 ..) ?_
    | with_reducible apply Keeps.app ?_ (keeps_writeDown ..) ?_
    | exact OptKeeps.none
    | with_reducible apply OptKeeps.some
    | with_reducible apply OptKeeps.map
    | with_reducible apply OptKeeps.ite
    | ((with_reducible apply OptKeeps.out); assumption)
    | (intro _)
    | exact rfl
    | split

theorem keeps_claimT0 : ∀ a0 a1 s, OptKeeps 1343225856 s (claimT0 a0 a1 s) := by
  intro a0 a1 s
  have h := Keeps.refl 1343225856 s
  delta claimT0
  repeat' first
    | with_reducible assumption
    | with_reducible apply Keeps.ite ?_ ?_
    | with_reducible apply Keeps.app ?_ (keeps_evictT0 ..) ?_
    | exact OptKeeps.none
    | with_reducible apply OptKeeps.some
    | with_reducible apply OptKeeps.map
    | with_reducible apply OptKeeps.ite
    | ((with_reducible apply OptKeeps.out); assumption)
    | (intro _)
    | exact rfl
    | split

theorem keeps_claim (p : Nat) (x : Tier) (third : Bool) (s : State) : OptKeeps 1343225856 s (claim p x third s) := by
  cases x
  · exact (keeps_claimT0 p third s).app rfl (Keeps.refl _ s)
  · exact (keeps_claimT1 p third s).app rfl (Keeps.refl _ s)
  · exact OptKeeps.some (Keeps.refl _ s)

theorem keeps_shrinkTier (x : Tier) : ∀ (fuel : Nat) (s : State), Keeps 1343225856 s (shrinkTier x fuel s)
  | 0, s => Keeps.refl _ s
  | fuel + 1, s => by
    unfold shrinkTier
    split
    · exact Keeps.refl _ s
    · split
      · exact Keeps.refl _ s
      · next v _ =>
        refine (keeps_shrinkTier x fuel _).app rfl ?_
        exact Keeps.ite ((keeps_evictT0 v s).app rfl (Keeps.refl _ s)) ((keeps_evictT1 v s).app rfl (Keeps.refl _ s))

theorem keeps_allocate : ∀ a0 a1 a2 a3 s, OptKeeps 1343225856 s (allocate a0 a1 a2 a3 s) := by
  intro a0 a1 a2 a3 s
  have h := Keeps.refl 1343225856 s
  delta allocate
  repeat' first
    | with_reducible assumption
    | with_reducible apply Keeps.ite ?_ ?_
    | with_reducible apply OptKeeps.app ?_ (keeps_claim ..) ?_
    | exact OptKeeps.none
    | with_reducible apply OptKeeps.some
    | with_reducible apply OptKeeps.map
    | with_reducible apply OptKeeps.ite
    | ((with_reducible apply OptKeeps.out); assumption)
    | (intro _)
    | exact rfl
    | split

theorem keeps_allocateFor (p slot b : Nat) (r : Region) (x : Tier) (s : State) :
    OptKeeps 1343225856 s (allocateFor p slot b r x s) := by
  have hm : ∀ l t, Keeps 1343225856 s t → Keeps 1343225856 s (modMem (fun m => { m with migrations := l }) t) := fun l t h =>
    keeps_modMem h (fun _ => rfl) (.inr rfl) (.inl rfl) (.inr rfl) (.inr ⟨rfl, rfl, rfl⟩) (.inr ⟨rfl, rfl⟩)
      (.inr ⟨rfl, rfl, rfl⟩) (.inr ⟨rfl, rfl, rfl, rfl⟩)
  intro t e
  unfold allocateFor at e
  extract_lets l at e
  cases ha : allocate p r x true (modMem (fun m => { m with migrations :=
      l ++ [{ part := p, slot := slot, bolt := b, dst := .t2, held := [] }] }) s) with
  | none => rw [ha] at e; cases e
  | some v =>
    rw [ha] at e; cases e
    exact hm _ v (OptKeeps.app rfl (keeps_allocate _ _ _ _ _) (hm _ s (Keeps.refl _ s)) v ha)

theorem keeps_setVer : ∀ a0 a1 a2 s, Keeps 1048576 s (setVer a0 a1 a2 s) := by
  intro a0 a1 a2 s
  have h := Keeps.refl 1048576 s
  delta setVer
  repeat' first
    | with_reducible assumption
    | ((try lift_lets -underBinder); intro x; clear_value x)
    | exact rfl
    | with_reducible apply keeps_modMem ?_ ?_ ?_ ?_ ?_ ?_ ?_ ?_ ?_
    | ((with_reducible apply Or.inl); exact rfl)
    | ((with_reducible apply Or.inr); simp only [Part.same, and_self, modMem])
    | (intro _; exact rfl)
    | (intro w; exact w)
    | exact fun h => memory_wf_put _ _ h
    | exact fun h => memory_wf_clear _ _ h
    | exact fun h => memory_wf_copy _ _ _ h
    | exact fun h => memory_wf_foldl (fun _ _ k => memory_wf_put _ _ k) _ _ (memory_wf_filter _ h)
    | exact fun h => memory_wf_foldl (fun _ _ k => memory_wf_put _ _ k) _ _ h

theorem keeps_switchCopy : ∀ a0 a1 a2 a3 a4 s, Keeps 269484032 s (switchCopy a0 a1 a2 a3 a4 s) := by
  intro a0 a1 a2 a3 a4 s
  have h := Keeps.refl 269484032 s
  delta switchCopy
  repeat' first
    | with_reducible assumption
    | ((try lift_lets -underBinder); intro (x : State); refine have hx : Keeps 269484032 s x := ?_; ?_; rotate_left; clear_value x; rotate_right; dsimp -zeta only [x]; clear x)
    | ((try lift_lets -underBinder); intro x; clear_value x)
    | with_reducible apply Keeps.ite ?_ ?_
    | with_reducible apply Keeps.app ?_ (keeps_ftlRead ..) ?_
    | with_reducible apply Keeps.app ?_ (keeps_setBolt ..) ?_
    | exact rfl
    | split

theorem keeps_placeCopy : ∀ a0 a1 a2 a3 a4 s, Keeps 1343225856 s (placeCopy a0 a1 a2 a3 a4 s) := by
  intro a0 a1 a2 a3 a4 s
  have h := Keeps.refl 1343225856 s
  delta placeCopy
  repeat' first
    | with_reducible assumption
    | with_reducible apply Keeps.ite ?_ ?_
    | with_reducible apply Keeps.app ?_ (keeps_switchCopy ..) ?_
    | with_reducible apply Keeps.app ?_ (keeps_homeRecord ..) ?_
    | exact rfl
    | split

theorem keeps_demand : ∀ a0 a1 a2 a3 a4 s, Keeps 1343225856 s (demand a0 a1 a2 a3 a4 s) := by
  intro a0 a1 a2 a3 a4 s
  have h := Keeps.refl 1343225856 s
  delta demand
  repeat' first
    | with_reducible assumption
    | ((try lift_lets -underBinder); intro x; clear_value x)
    | with_reducible apply Keeps.ite ?_ ?_
    | with_reducible apply OptKeeps.app ?_ (keeps_allocateFor ..) ?_
    | with_reducible apply Keeps.app ?_ (keeps_placeCopy ..) ?_
    | exact OptKeeps.none
    | with_reducible apply OptKeeps.some
    | with_reducible apply OptKeeps.map
    | with_reducible apply OptKeeps.ite
    | ((with_reducible apply OptKeeps.out); assumption)
    | (intro _)
    | exact rfl
    | split

theorem keeps_touchBolt : ∀ a0 a1 a2 a3 s, Keeps 269484032 s (touchBolt a0 a1 a2 a3 s) := by
  intro a0 a1 a2 a3 s
  have h := Keeps.refl 269484032 s
  delta touchBolt
  repeat' first
    | with_reducible assumption
    | ((try lift_lets -underBinder); intro (x : State); refine have hx : Keeps 269484032 s x := ?_; ?_; rotate_left; clear_value x; rotate_right; dsimp -zeta only [x]; clear x)
    | ((try lift_lets -underBinder); intro x; clear_value x)
    | with_reducible apply Keeps.app ?_ (keeps_setBolt ..) ?_
    | exact rfl
    | split

theorem keeps_runAheadOne (p : Nat) (r : Region) (b : Nat) (s : State) : Keeps 1351614464 s (runAheadOne p r b s) := by
  have h := Keeps.refl 1351614464 s
  unfold runAheadOne
  extract_lets slot k discard
  have hd : ∀ t, Keeps 1351614464 s t → Keeps 1351614464 s (discard t) := fun t ht =>
    keeps_modMem ht (fun _ => rfl) (.inr rfl) (.inr ⟨rfl, rfl, rfl⟩) (.inr rfl) (.inr ⟨rfl, rfl, rfl⟩) (.inl rfl) (.inr ⟨rfl, rfl, rfl⟩)
      (.inr ⟨rfl, rfl, rfl, rfl⟩)
  clear_value discard
  repeat' first
    | with_reducible assumption
    | with_reducible apply hd
    | with_reducible apply Keeps.ite
    | ((try lift_lets); intro x; refine have hx : Keeps 1351614464 s x := ?_; ?_; rotate_left; clear_value x; rotate_right; dsimp -zeta only [x]; clear x)
    | exact rfl
    | with_reducible apply Keeps.app ?_ (keeps_setBolt ..) ?_
    | with_reducible apply Keeps.app ?_ (keeps_placeCopy ..) ?_
    | with_reducible apply keeps_modMem ?_ ?_ ?_ ?_ ?_ ?_ ?_ ?_ ?_
    | exact .inl rfl
    | exact .inr rfl
    | exact .inr ⟨rfl, rfl⟩
    | exact .inr ⟨rfl, rfl, rfl⟩
    | exact .inr ⟨rfl, rfl, rfl, rfl⟩
    | (intro _; exact rfl)

theorem keeps_runAhead : ∀ a0 a1 a2 s, Keeps 1351614464 s (runAhead a0 a1 a2 s) := by
  intro a0 a1 a2 s
  have h := Keeps.refl 1351614464 s
  delta runAhead
  repeat' first
    | with_reducible assumption
    | with_reducible apply Keeps.app ?_ (keeps_runAheadOne ..) ?_
    | exact rfl
    | with_reducible apply Keeps.foldl ?_ _ _ ?_
    | with_reducible apply Keeps.foldlFst ?_ _ _ ?_
    | (intro _ _ _)

theorem keeps_readPiece : ∀ a0 a1 a2 s, Keeps 1351614464 s (readPiece a0 a1 a2 s) := by
  intro a0 a1 a2 s
  have h := Keeps.refl 1351614464 s
  delta readPiece
  repeat' first
    | with_reducible assumption
    | ((try lift_lets -underBinder); intro (x : State); refine have hx : Keeps 1351614464 s x := ?_; ?_; rotate_left; clear_value x; rotate_right; dsimp -zeta only [x]; clear x)
    | ((try lift_lets -underBinder); intro (x : State × _); refine have hx : Keeps 1351614464 s x.1 := ?_; ?_; rotate_left; clear_value x; rotate_right; dsimp -zeta only [x]; clear x)
    | ((try lift_lets -underBinder); intro x; clear_value x)
    | with_reducible apply Keeps.ite ?_ ?_
    | with_reducible apply Keeps.app ?_ (keeps_touchBolt ..) ?_
    | with_reducible apply Keeps.app ?_ (keeps_demand ..) ?_
    | with_reducible apply Keeps.app ?_ (keeps_runAhead ..) ?_
    | exact rfl
    | with_reducible apply Keeps.foldl ?_ _ _ ?_
    | with_reducible apply Keeps.foldlFst ?_ _ _ ?_
    | (intro _ _ _)
    | split
    | (dsimp -zeta only)

theorem keeps_touchRead : ∀ a0 a1 a2 a3 s, Keeps 1351614464 s (touchRead a0 a1 a2 a3 s) := by
  intro a0 a1 a2 a3 s
  have h := Keeps.refl 1351614464 s
  delta touchRead
  repeat' first
    | with_reducible assumption
    | with_reducible apply Keeps.app ?_ (keeps_readPiece ..) ?_
    | exact rfl
    | with_reducible apply Keeps.foldl ?_ _ _ ?_
    | with_reducible apply Keeps.foldlFst ?_ _ _ ?_
    | (intro _ _ _)

theorem keeps_openPending : ∀ a0 a1 s, Keeps 271581184 s (openPending a0 a1 s) := by
  intro a0 a1 s
  have h := Keeps.refl 271581184 s
  delta openPending
  repeat' first
    | with_reducible assumption
    | ((try lift_lets -underBinder); intro (x : State); refine have hx : Keeps 271581184 s x := ?_; ?_; rotate_left; clear_value x; rotate_right; dsimp -zeta only [x]; clear x)
    | ((try lift_lets -underBinder); intro x; clear_value x)
    | with_reducible apply Keeps.ite ?_ ?_
    | with_reducible apply Keeps.app ?_ (keeps_setBolt ..) ?_
    | with_reducible apply Keeps.app ?_ (keeps_setVer ..) ?_
    | exact rfl
    | with_reducible apply keeps_modMemBytes ?_ ?_ ?_ ?_ ?_ ?_ ?_ ?_ ?_
    | ((with_reducible apply Or.inl); exact rfl)
    | ((with_reducible apply Or.inr); simp only [Part.same, and_self, modMem])
    | (intro _; exact rfl)
    | (intro w; exact w)
    | exact fun h => memory_wf_put _ _ h
    | exact fun h => memory_wf_clear _ _ h
    | exact fun h => memory_wf_copy _ _ _ h
    | exact fun h => memory_wf_foldl (fun _ _ k => memory_wf_put _ _ k) _ _ (memory_wf_filter _ h)
    | exact fun h => memory_wf_foldl (fun _ _ k => memory_wf_put _ _ k) _ _ h
    | split

theorem keeps_prepareSlot : ∀ a0 a1 a2 a3 s, Keeps 1351614464 s (prepareSlot a0 a1 a2 a3 s) := by
  intro a0 a1 a2 a3 s
  have h := Keeps.refl 1351614464 s
  delta prepareSlot
  repeat' first
    | with_reducible assumption
    | ((try lift_lets -underBinder); intro (x : State); refine have hx : Keeps 1351614464 s x := ?_; ?_; rotate_left; clear_value x; rotate_right; dsimp -zeta only [x]; clear x)
    | ((try lift_lets -underBinder); intro x; clear_value x)
    | with_reducible apply Keeps.ite ?_ ?_
    | with_reducible apply Keeps.app ?_ (keeps_touchBolt ..) ?_
    | with_reducible apply Keeps.app ?_ (keeps_demand ..) ?_
    | with_reducible apply Keeps.app ?_ (keeps_setBolt ..) ?_
    | with_reducible apply Keeps.app ?_ (keeps_ftlPlace ..) ?_
    | with_reducible apply Keeps.app ?_ (keeps_ftlFreeBolt ..) ?_
    | with_reducible apply Keeps.app ?_ (keeps_runAhead ..) ?_
    | exact rfl
    | split

theorem keeps_writePiece : ∀ a0 a1 s, Keeps 1353711616 s (writePiece a0 a1 s) := by
  intro a0 a1 s
  have h := Keeps.refl 1353711616 s
  delta writePiece
  repeat' first
    | with_reducible assumption
    | ((try lift_lets -underBinder); intro (x : State); refine have hx : Keeps 1353711616 s x := ?_; ?_; rotate_left; clear_value x; rotate_right; dsimp -zeta only [x]; clear x)
    | ((try lift_lets -underBinder); intro (x : State × _); refine have hx : Keeps 1353711616 s x.1 := ?_; ?_; rotate_left; clear_value x; rotate_right; dsimp -zeta only [x]; clear x)
    | ((try lift_lets -underBinder); intro x; clear_value x)
    | with_reducible apply Keeps.ite ?_ ?_
    | with_reducible apply Keeps.app ?_ (keeps_openPending ..) ?_
    | with_reducible apply Keeps.app ?_ (keeps_prepareSlot ..) ?_
    | exact rfl
    | with_reducible apply Keeps.foldl ?_ _ _ ?_
    | with_reducible apply Keeps.foldlFst ?_ _ _ ?_
    | (intro _ _ _)
    | split
    | (dsimp -zeta only)

theorem keeps_storeByte : ∀ a0 a1 a2 s, Keeps 3145728 s (storeByte a0 a1 a2 s) := by
  intro a0 a1 a2 s
  have h := Keeps.refl 3145728 s
  delta storeByte
  repeat' first
    | with_reducible assumption
    | ((try lift_lets -underBinder); intro (x : State); refine have hx : Keeps 3145728 s x := ?_; ?_; rotate_left; clear_value x; rotate_right; dsimp -zeta only [x]; clear x)
    | ((try lift_lets -underBinder); intro x; clear_value x)
    | with_reducible apply Keeps.ite ?_ ?_
    | exact rfl
    | with_reducible apply keeps_modMemBytes ?_ ?_ ?_ ?_ ?_ ?_ ?_ ?_ ?_
    | ((with_reducible apply Or.inl); exact rfl)
    | ((with_reducible apply Or.inr); simp only [Part.same, and_self, modMem])
    | (intro _; exact rfl)
    | (intro w; exact w)
    | exact fun h => memory_wf_put _ _ h
    | exact fun h => memory_wf_clear _ _ h
    | exact fun h => memory_wf_copy _ _ _ h
    | exact fun h => memory_wf_foldl (fun _ _ k => memory_wf_put _ _ k) _ _ (memory_wf_filter _ h)
    | exact fun h => memory_wf_foldl (fun _ _ k => memory_wf_put _ _ k) _ _ h
    | split

theorem keeps_storeBytes (a : Acc) : ∀ (l : List Byte) (dva : Nat) (s : State), Keeps 3145728 s (storeBytes a dva l s)
  | [], _, s => Keeps.refl _ s
  | _ :: l, dva, s => (keeps_storeBytes a l (dva + 1) _).app rfl ((keeps_storeByte a dva _ s).app rfl (Keeps.refl _ s))

theorem keeps_memWrite : ∀ a0 a1 a2 s, Keeps 1353711616 s (memWrite a0 a1 a2 s) := by
  intro a0 a1 a2 s
  have h := Keeps.refl 1353711616 s
  delta memWrite
  repeat' first
    | with_reducible assumption
    | with_reducible apply Keeps.app ?_ (keeps_storeBytes ..) ?_
    | with_reducible apply Keeps.app ?_ (keeps_writePiece ..) ?_
    | exact rfl
    | with_reducible apply Keeps.foldl ?_ _ _ ?_
    | with_reducible apply Keeps.foldlFst ?_ _ _ ?_
    | (intro _ _ _)

theorem keeps_touchPiece : ∀ a0 s a2, Keeps 1353711616 s.1 ((touchPiece a0 s a2).1) := by
  intro a0 s a2
  have h := Keeps.refl 1353711616 s.1
  delta touchPiece
  repeat' first
    | with_reducible assumption
    | ((try lift_lets -underBinder); intro (x : State); refine have hx : Keeps 1353711616 s.1 x := ?_; ?_; rotate_left; clear_value x; rotate_right; dsimp -zeta only [x]; clear x)
    | ((try lift_lets -underBinder); intro (x : State × _); refine have hx : Keeps 1353711616 s.1 x.1 := ?_; ?_; rotate_left; clear_value x; rotate_right; dsimp -zeta only [x]; clear x)
    | ((try lift_lets -underBinder); intro x; clear_value x)
    | with_reducible apply Keeps.ite ?_ ?_
    | with_reducible apply Keeps.app ?_ (keeps_writePiece ..) ?_
    | with_reducible apply Keeps.app ?_ (keeps_readPiece ..) ?_
    | exact rfl
    | split
    | (dsimp -zeta only)

theorem keeps_touchAll : ∀ a0 s, Keeps 1353711616 s ((touchAll a0 s).1) := by
  intro a0 s
  have h := Keeps.refl 1353711616 s
  delta touchAll
  repeat' first
    | with_reducible assumption
    | with_reducible apply Keeps.app ?_ (keeps_touchPiece ..) ?_
    | ((with_reducible apply Keeps.outPair); assumption)
    | exact rfl
    | with_reducible apply Keeps.foldl ?_ _ _ ?_
    | with_reducible apply Keeps.foldlFst ?_ _ _ ?_
    | (intro _ _ _)
    | (dsimp -zeta only)

theorem keeps_beginMigration : ∀ a0 a1 a2 a3 a4 a5 s, Keeps 1611661312 s (beginMigration a0 a1 a2 a3 a4 a5 s) := by
  intro a0 a1 a2 a3 a4 a5 s
  have h := Keeps.refl 1611661312 s
  delta beginMigration
  repeat' first
    | with_reducible assumption
    | ((try lift_lets -underBinder); intro (x : State); refine have hx : Keeps 1611661312 s x := ?_; ?_; rotate_left; clear_value x; rotate_right; dsimp -zeta only [x]; clear x)
    | ((try lift_lets -underBinder); intro x; clear_value x)
    | with_reducible apply Keeps.ite ?_ ?_
    | with_reducible apply Keeps.app ?_ (keeps_homeRecord ..) ?_
    | exact rfl
    | with_reducible apply keeps_modMem ?_ ?_ ?_ ?_ ?_ ?_ ?_ ?_ ?_
    | with_reducible apply keeps_modNvt ?_ ?_ ?_ ?_ ?_
    | ((with_reducible apply Or.inl); exact rfl)
    | ((with_reducible apply Or.inr); simp only [Part.same, and_self, modMem, modNvt])
    | (intro _; exact rfl)
    | (intro w; exact w)
    | exact fun h => memory_wf_put _ _ h
    | exact fun h => memory_wf_clear _ _ h
    | exact fun h => memory_wf_copy _ _ _ h
    | exact fun h => memory_wf_foldl (fun _ _ k => memory_wf_put _ _ k) _ _ (memory_wf_filter _ h)
    | exact fun h => memory_wf_foldl (fun _ _ k => memory_wf_put _ _ k) _ _ h
    | split

theorem keeps_beginHome : ∀ a0 s a2, Keeps 1880096768 s (beginHome a0 s a2) := by
  intro a0 s a2
  have h := Keeps.refl 1880096768 s
  delta beginHome
  repeat' first
    | with_reducible assumption
    | ((try lift_lets -underBinder); intro x; clear_value x)
    | with_reducible apply Keeps.ite ?_ ?_
    | with_reducible apply Keeps.app ?_ (keeps_beginMigration ..) ?_
    | with_reducible apply OptKeeps.app ?_ (keeps_allocateFor ..) ?_
    | exact OptKeeps.none
    | with_reducible apply OptKeeps.some
    | with_reducible apply OptKeeps.map
    | with_reducible apply OptKeeps.ite
    | ((with_reducible apply OptKeeps.out); assumption)
    | (intro _)
    | exact rfl
    | split
    | (dsimp -zeta only)

theorem keeps_beginHomes (s t : State) : Keeps 1880096768 s (beginHomes s t) :=
  Keeps.foldl (fun _ _ k => Keeps.app rfl (keeps_beginHome ..) k) _ _ (Keeps.refl _ s)

theorem keeps_whenReached {m : Nat} {s0 : State} (a0 : List Sys2Proof.Machine.Access) (a1 : Sys2Proof.Machine.State → Sys2Proof.Machine.State) (s : Sys2Proof.Machine.State)
    (hm : (Nat.land 1890582528 m == 1890582528) = true)
    (hb1 : ∀  t, Keeps m s0 t → Keeps m s0 (a1  t)) (h : Keeps m s0 s) :
    Keeps m s0 (whenReached a0 a1 s) := by
  delta whenReached
  repeat' first
    | with_reducible assumption
    | with_reducible apply Keeps.ite ?_ ?_
    | with_reducible apply Keeps.app ?_ (keeps_beginHomes ..) ?_
    | with_reducible apply Keeps.app ?_ (keeps_touchAll ..) ?_
    | ((with_reducible apply Keeps.outPair); assumption)
    | with_reducible apply hb1
    | exact sub_trans (g := 1890582528) rfl hm
    | exact .inl (bit_of_sub (g := 1890582528) rfl hm)
    | (intro _)
    | exact rfl
    | split
    | (dsimp -zeta only)

theorem keeps_whenFree {m : Nat} {s0 : State} (a0 : Sys2Proof.Machine.State → Sys2Proof.Machine.State) (s : Sys2Proof.Machine.State)
    (hm : (Nat.land 1880096768 m == 1880096768) = true)
    (hb0 : ∀  t, Keeps m s0 t → Keeps m s0 (a0  t)) (h : Keeps m s0 s) :
    Keeps m s0 (whenFree a0 s) := by
  delta whenFree
  repeat' first
    | with_reducible assumption
    | with_reducible apply Keeps.ite ?_ ?_
    | with_reducible apply Keeps.app ?_ (keeps_beginHomes ..) ?_
    | with_reducible apply hb0
    | exact sub_trans (g := 1880096768) rfl hm
    | exact .inl (bit_of_sub (g := 1880096768) rfl hm)
    | (intro _)
    | exact rfl
    | split

theorem keeps_zeroBolt : ∀ a0 a1 a2 s, Keeps 271581184 s (zeroBolt a0 a1 a2 s) := by
  intro a0 a1 a2 s
  have h := Keeps.refl 271581184 s
  delta zeroBolt
  repeat' first
    | with_reducible assumption
    | ((try lift_lets -underBinder); intro x; clear_value x)
    | with_reducible apply Keeps.app ?_ (keeps_setBolt ..) ?_
    | exact rfl
    | with_reducible apply keeps_modMemBytes ?_ ?_ ?_ ?_ ?_ ?_ ?_ ?_ ?_
    | ((with_reducible apply Or.inl); exact rfl)
    | ((with_reducible apply Or.inr); simp only [Part.same, and_self, modMem])
    | (intro _; exact rfl)
    | (intro w; exact w)
    | exact fun h => memory_wf_put _ _ h
    | exact fun h => memory_wf_clear _ _ h
    | exact fun h => memory_wf_copy _ _ _ h
    | exact fun h => memory_wf_foldl (fun _ _ k => memory_wf_put _ _ k) _ _ (memory_wf_filter _ h)
    | exact fun h => memory_wf_foldl (fun _ _ k => memory_wf_put _ _ k) _ _ h

end Sys2Proof.Machine
end

