-- ==== Sys2Proof/Laws/KeepsEvent.lean ====
section
/-! SUPPORT. What the operations of Machine/Event.lean keep. -/

namespace Sys2Proof.Machine

set_option linter.unusedSimpArgs false
set_option linter.unusedVariables false

theorem keeps_hostWriteRo : ∀ a0 a1 a2 s, Keeps 32 s (hostWriteRo a0 a1 a2 s) := by
  intro a0 a1 a2 s
  have h := Keeps.refl 32 s
  delta hostWriteRo
  repeat' first
    | with_reducible assumption
    | ((try lift_lets -underBinder); intro x; clear_value x)
    | exact rfl
    | with_reducible apply keeps_modPci ?_ ?_ ?_ ?_ ?_ ?_
    | ((with_reducible apply Or.inl); exact rfl)
    | ((with_reducible apply Or.inr); simp only [Part.same, and_self, modPci])

theorem keeps_hostWrite : ∀ a0 a1 s, Keeps 32 s (hostWrite a0 a1 s) := by
  intro a0 a1 s
  have h := Keeps.refl 32 s
  delta hostWrite
  repeat' first
    | with_reducible assumption
    | with_reducible apply Keeps.app ?_ (keeps_hostWriteRo ..) ?_
    | exact rfl

theorem keeps_setMsix : ∀ a0 a1 a2 s, Keeps 32 s (setMsix a0 a1 a2 s) := by
  intro a0 a1 a2 s
  have h := Keeps.refl 32 s
  delta setMsix
  repeat' first
    | with_reducible assumption
    | ((try lift_lets -underBinder); intro x; clear_value x)
    | exact rfl
    | with_reducible apply keeps_modPci ?_ ?_ ?_ ?_ ?_ ?_
    | ((with_reducible apply Or.inl); exact rfl)
    | ((with_reducible apply Or.inr); simp only [Part.same, and_self, modPci])

theorem keeps_sendMsix : ∀ a0 a1 s, Keeps 32 s (sendMsix a0 a1 s) := by
  intro a0 a1 s
  have h := Keeps.refl 32 s
  delta sendMsix
  repeat' first
    | with_reducible assumption
    | ((try lift_lets -underBinder); intro (x : State); refine have hx : Keeps 32 s x := ?_; ?_; rotate_left; clear_value x; rotate_right; dsimp -zeta only [x]; clear x)
    | ((try lift_lets -underBinder); intro x; clear_value x)
    | with_reducible apply Keeps.app ?_ (keeps_setMsix ..) ?_
    | with_reducible apply Keeps.app ?_ (keeps_hostWrite ..) ?_
    | exact rfl

theorem keeps_requestMsix : ∀ a0 a1 s, Keeps 32 s (requestMsix a0 a1 s) := by
  intro a0 a1 s
  have h := Keeps.refl 32 s
  delta requestMsix
  repeat' first
    | with_reducible assumption
    | ((try lift_lets -underBinder); intro (x : State); refine have hx : Keeps 32 s x := ?_; ?_; rotate_left; clear_value x; rotate_right; dsimp -zeta only [x]; clear x)
    | ((try lift_lets -underBinder); intro x; clear_value x)
    | with_reducible apply Keeps.ite ?_ ?_
    | with_reducible apply Keeps.app ?_ (keeps_setMsix ..) ?_
    | with_reducible apply Keeps.app ?_ (keeps_sendMsix ..) ?_
    | exact rfl
    | split

theorem keeps_setResp : ∀ a0 a1 s, Keeps 8192 s (setResp a0 a1 s) := by
  intro a0 a1 s
  have h := Keeps.refl 8192 s
  delta setResp
  repeat' first
    | with_reducible assumption
    | ((try lift_lets -underBinder); intro x; clear_value x)
    | exact rfl
    | with_reducible apply keeps_modTcs ?_ ?_ ?_ ?_ ?_ ?_ ?_
    | ((with_reducible apply Or.inl); exact rfl)
    | ((with_reducible apply Or.inr); simp only [Part.same, and_self, modTcs])

theorem keeps_putResp : ∀ a0 a1 s, Keeps 1353719808 s ((putResp a0 a1 s).1) := by
  intro a0 a1 s
  have h := Keeps.refl 1353719808 s
  delta putResp
  repeat' first
    | with_reducible assumption
    | ((try lift_lets -underBinder); intro (x : State); refine have hx : Keeps 1353719808 s x := ?_; ?_; rotate_left; clear_value x; rotate_right; dsimp -zeta only [x]; clear x)
    | ((try lift_lets -underBinder); intro (x : State × _); refine have hx : Keeps 1353719808 s x.1 := ?_; ?_; rotate_left; clear_value x; rotate_right; dsimp -zeta only [x]; clear x)
    | ((try lift_lets -underBinder); intro x; clear_value x)
    | with_reducible apply Keeps.ite ?_ ?_
    | with_reducible apply Keeps.app ?_ (keeps_setResp ..) ?_
    | with_reducible apply Keeps.app ?_ (keeps_memWrite ..) ?_
    | exact rfl
    | split
    | (dsimp -zeta only)

theorem keeps_putPfRing : ∀ a0 s, Keeps 34 s (putPfRing a0 s) := by
  intro a0 s
  have h := Keeps.refl 34 s
  delta putPfRing
  repeat' first
    | with_reducible assumption
    | ((try lift_lets -underBinder); intro (x : State); refine have hx : Keeps 34 s x := ?_; ?_; rotate_left; clear_value x; rotate_right; dsimp -zeta only [x]; clear x)
    | ((try lift_lets -underBinder); intro x; clear_value x)
    | with_reducible apply Keeps.ite ?_ ?_
    | with_reducible apply Keeps.app ?_ (keeps_requestMsix ..) ?_
    | with_reducible apply Keeps.app ?_ (keeps_hostWrite ..) ?_
    | exact rfl
    | with_reducible apply keeps_modEvt ?_ ?_ ?_ ?_
    | ((with_reducible apply Or.inl); exact rfl)
    | ((with_reducible apply Or.inr); simp only [Part.same, and_self, modEvt])
    | split

theorem keeps_noteHalt : ∀ a0 a1 s, Keeps 2 s (noteHalt a0 a1 s) := by
  intro a0 a1 s
  have h := Keeps.refl 2 s
  delta noteHalt
  repeat' first
    | with_reducible assumption
    | ((try lift_lets -underBinder); intro (x : State); refine have hx : Keeps 2 s x := ?_; ?_; rotate_left; clear_value x; rotate_right; dsimp -zeta only [x]; clear x)
    | ((try lift_lets -underBinder); intro x; clear_value x)
    | with_reducible apply Keeps.ite ?_ ?_
    | exact rfl
    | with_reducible apply keeps_modEvt ?_ ?_ ?_ ?_
    | ((with_reducible apply Or.inl); exact rfl)
    | ((with_reducible apply Or.inr); simp only [Part.same, and_self, modEvt])
    | split

theorem keeps_toNor : ∀ a0 s, Keeps 18 s (toNor a0 s) := by
  intro a0 s
  have h := Keeps.refl 18 s
  delta toNor
  repeat' first
    | with_reducible assumption
    | ((try lift_lets -underBinder); intro (x : State); refine have hx : Keeps 18 s x := ?_; ?_; rotate_left; clear_value x; rotate_right; dsimp -zeta only [x]; clear x)
    | ((try lift_lets -underBinder); intro x; clear_value x)
    | with_reducible apply Keeps.ite ?_ ?_
    | exact rfl
    | with_reducible apply keeps_modWmc ?_ ?_ ?_ ?_ ?_ ?_ ?_ ?_ ?_
    | with_reducible apply keeps_modEvt ?_ ?_ ?_ ?_
    | ((with_reducible apply Or.inl); exact rfl)
    | ((with_reducible apply Or.inr); simp only [Part.same, and_self, modEvt, modWmc])
    | split

theorem keeps_toPldm : ∀ a0 s, Keeps 18 s (toPldm a0 s) := by
  intro a0 s
  have h := Keeps.refl 18 s
  delta toPldm
  repeat' first
    | with_reducible assumption
    | ((try lift_lets -underBinder); intro (x : State); refine have hx : Keeps 18 s x := ?_; ?_; rotate_left; clear_value x; rotate_right; dsimp -zeta only [x]; clear x)
    | ((try lift_lets -underBinder); intro x; clear_value x)
    | with_reducible apply Keeps.ite ?_ ?_
    | exact rfl
    | with_reducible apply keeps_modWmc ?_ ?_ ?_ ?_ ?_ ?_ ?_ ?_ ?_
    | with_reducible apply keeps_modEvt ?_ ?_ ?_ ?_
    | ((with_reducible apply Or.inl); exact rfl)
    | ((with_reducible apply Or.inr); simp only [Part.same, and_self, modEvt, modWmc])
    | split

theorem keeps_deliver : ∀ a0 s, Keeps 1353719858 s ((deliver a0 s).1) := by
  intro a0 s
  have h := Keeps.refl 1353719858 s
  delta deliver
  repeat' first
    | with_reducible assumption
    | ((try lift_lets -underBinder); intro (x : State); refine have hx : Keeps 1353719858 s x := ?_; ?_; rotate_left; clear_value x; rotate_right; dsimp -zeta only [x]; clear x)
    | ((try lift_lets -underBinder); intro (x : State × _); refine have hx : Keeps 1353719858 s x.1 := ?_; ?_; rotate_left; clear_value x; rotate_right; dsimp -zeta only [x]; clear x)
    | ((try lift_lets -underBinder); intro x; clear_value x)
    | with_reducible apply Keeps.ite ?_ ?_
    | with_reducible apply Keeps.app ?_ (keeps_noteHalt ..) ?_
    | with_reducible apply Keeps.app ?_ (keeps_toNor ..) ?_
    | with_reducible apply Keeps.app ?_ (keeps_toPldm ..) ?_
    | with_reducible apply Keeps.app ?_ (keeps_putResp ..) ?_
    | with_reducible apply Keeps.app ?_ (keeps_requestMsix ..) ?_
    | with_reducible apply Keeps.app ?_ (keeps_putPfRing ..) ?_
    | ((with_reducible apply Keeps.outPair); assumption)
    | exact rfl
    | with_reducible apply keeps_modEvt ?_ ?_ ?_ ?_
    | ((with_reducible apply Or.inl); exact rfl)
    | ((with_reducible apply Or.inr); simp only [Part.same, and_self, modEvt])
    | with_reducible apply Keeps.foldl ?_ _ _ ?_
    | with_reducible apply Keeps.foldlFst ?_ _ _ ?_
    | (intro _ _ _)
    | split
    | (dsimp -zeta only)

theorem keeps_deliverAll : ∀ (fuel : Nat) (l : List EvReq) (s : State), Keeps 1353719858 s (deliverAll fuel l s)
  | 0, l, s => by cases l <;> exact Keeps.refl _ s
  | fuel + 1, [], s => Keeps.refl _ s
  | fuel + 1, r :: rest, s =>
    (keeps_deliverAll fuel (rest ++ (deliver r s).2) (deliver r s).1).app rfl (keeps_deliver r s)

theorem keeps_eventP : ∀ a0 a1 a2 a3 s, Keeps 1353719858 s (eventP a0 a1 a2 a3 s) := by
  intro a0 a1 a2 a3 s
  have h := Keeps.refl 1353719858 s
  delta eventP
  repeat' first
    | with_reducible assumption
    | with_reducible apply Keeps.app ?_ (keeps_deliverAll ..) ?_
    | exact rfl

theorem keeps_eventD : ∀ a0 a1 a2 s, Keeps 1353719858 s (eventD a0 a1 a2 s) := by
  intro a0 a1 a2 s
  have h := Keeps.refl 1353719858 s
  delta eventD
  repeat' first
    | with_reducible assumption
    | with_reducible apply Keeps.app ?_ (keeps_deliverAll ..) ?_
    | exact rfl

theorem keeps_eventOn : ∀ a0 a1 a2 a3 s, Keeps 1353719858 s (eventOn a0 a1 a2 a3 s) := by
  intro a0 a1 a2 a3 s
  have h := Keeps.refl 1353719858 s
  delta eventOn
  repeat' first
    | with_reducible assumption
    | ((try lift_lets -underBinder); intro x; clear_value x)
    | with_reducible apply Keeps.app ?_ (keeps_eventP ..) ?_
    | with_reducible apply Keeps.app ?_ (keeps_eventD ..) ?_
    | exact rfl
    | split

theorem keeps_eventPs : ∀ a0 a1 a2 a3 s, Keeps 1353719858 s (eventPs a0 a1 a2 a3 s) := by
  intro a0 a1 a2 a3 s
  have h := Keeps.refl 1353719858 s
  delta eventPs
  repeat' first
    | with_reducible assumption
    | with_reducible apply Keeps.app ?_ (keeps_deliverAll ..) ?_
    | exact rfl

theorem keeps_eventBatch : ∀ a0 s, Keeps 1353719858 s (eventBatch a0 s) := by
  intro a0 s
  have h := Keeps.refl 1353719858 s
  delta eventBatch
  repeat' first
    | with_reducible assumption
    | ((try lift_lets -underBinder); intro (x : State); refine have hx : Keeps 1353719858 s x := ?_; ?_; rotate_left; clear_value x; rotate_right; dsimp -zeta only [x]; clear x)
    | ((try lift_lets -underBinder); intro x; clear_value x)
    | with_reducible apply Keeps.app ?_ (keeps_deliverAll ..) ?_
    | exact rfl
    | split

theorem keeps_raiseVector : ∀ a0 a1 a2 s, Keeps 1353719858 s (raiseVector a0 a1 a2 s) := by
  intro a0 a1 a2 s
  have h := Keeps.refl 1353719858 s
  delta raiseVector
  repeat' first
    | with_reducible assumption
    | ((try lift_lets -underBinder); intro x; clear_value x)
    | with_reducible apply Keeps.ite ?_ ?_
    | with_reducible apply Keeps.app ?_ (keeps_requestMsix ..) ?_
    | with_reducible apply Keeps.app ?_ (keeps_eventD ..) ?_
    | exact rfl
    | with_reducible apply keeps_modPci ?_ ?_ ?_ ?_ ?_ ?_
    | ((with_reducible apply Or.inl); exact rfl)
    | ((with_reducible apply Or.inr); simp only [Part.same, and_self, modPci])
    | split

theorem keeps_raiseQueue : ∀ a0 s, Keeps 1353719858 s (raiseQueue a0 s) := by
  intro a0 s
  have h := Keeps.refl 1353719858 s
  delta raiseQueue
  repeat' first
    | with_reducible assumption
    | with_reducible apply Keeps.app ?_ (keeps_raiseVector ..) ?_
    | exact rfl

theorem keeps_eventUnmapped : ∀ a0 a1 s, Keeps 1353719858 s (eventUnmapped a0 a1 s) := by
  intro a0 a1 s
  have h := Keeps.refl 1353719858 s
  delta eventUnmapped
  repeat' first
    | with_reducible assumption
    | ((try lift_lets -underBinder); intro x; clear_value x)
    | with_reducible apply Keeps.app ?_ (keeps_deliverAll ..) ?_
    | exact rfl
    | split

theorem keeps_eventError : ∀ a0 a1 s, Keeps 1387274290 s (eventError a0 a1 s) := by
  intro a0 a1 s
  have h := Keeps.refl 1387274290 s
  delta eventError
  repeat' first
    | with_reducible assumption
    | ((try lift_lets -underBinder); intro x; clear_value x)
    | with_reducible apply Keeps.ite ?_ ?_
    | with_reducible apply Keeps.app ?_ (keeps_eventOn ..) ?_
    | with_reducible apply Keeps.app ?_ (keeps_eventP ..) ?_
    | with_reducible apply Keeps.app ?_ (keeps_eventD ..) ?_
    | exact rfl
    | with_reducible apply keeps_modMem ?_ ?_ ?_ ?_ ?_ ?_ ?_ ?_ ?_
    | ((with_reducible apply Or.inl); exact rfl)
    | ((with_reducible apply Or.inr); simp only [Part.same, and_self, modMem])
    | (intro _; exact rfl)
    | (intro w; exact w)
    | exact fun h => memory_wf_put _ _ h
    | exact fun h => memory_wf_clear _ _ h
    | exact fun h => memory_wf_copy _ _ _ h
    | exact fun h => memory_wf_foldl (fun _ _ k => memory_wf_put _ _ k) _ _ (memory_wf_filter _ h)
    | exact fun h => memory_wf_foldl (fun _ _ k => memory_wf_put _ _ k) _ _ h
    | split

end Sys2Proof.Machine
end

