-- ==== Sys2Proof/Laws/KeepsFlags.lean ====
section
/-! SUPPORT. What the operations of Machine/Flags.lean keep. -/

namespace Sys2Proof.Machine

set_option linter.unusedSimpArgs false
set_option linter.unusedVariables false

theorem keeps_countAcc : ∀ a0 a1 a2 a3 s, Keeps 70368744177664 s (countAcc a0 a1 a2 a3 s) := by
  intro a0 a1 a2 a3 s
  have h := Keeps.refl 70368744177664 s
  delta countAcc
  repeat' first
    | with_reducible assumption
    | ((try lift_lets -underBinder); intro x; clear_value x)
    | exact rfl
    | with_reducible apply keeps_modCnt ?_ ?_ ?_ ?_ ?_ ?_ ?_ ?_ ?_
    | ((with_reducible apply Or.inl); exact rfl)
    | ((with_reducible apply Or.inr); simp only [Part.same, and_self, modCnt])

theorem keeps_clampPart : ∀ a0 a1 s, Keeps 35184372088832 s (clampPart a0 a1 s) := by
  intro a0 a1 s
  have h := Keeps.refl 35184372088832 s
  delta clampPart
  repeat' first
    | with_reducible assumption
    | ((try lift_lets -underBinder); intro x; clear_value x)
    | exact rfl
    | with_reducible apply keeps_modCnt ?_ ?_ ?_ ?_ ?_ ?_ ?_ ?_ ?_
    | ((with_reducible apply Or.inl); exact rfl)
    | ((with_reducible apply Or.inr); simp only [Part.same, and_self, modCnt])
    | with_reducible apply Keeps.foldl ?_ _ _ ?_
    | with_reducible apply Keeps.foldlFst ?_ _ _ ?_
    | (intro _ _ _)

theorem keeps_clampDevice : ∀ a0 s, Keeps 35184372088832 s (clampDevice a0 s) := by
  intro a0 s
  have h := Keeps.refl 35184372088832 s
  delta clampDevice
  repeat' first
    | with_reducible assumption
    | ((try lift_lets -underBinder); intro x; clear_value x)
    | exact rfl
    | with_reducible apply keeps_modCnt ?_ ?_ ?_ ?_ ?_ ?_ ?_ ?_ ?_
    | ((with_reducible apply Or.inl); exact rfl)
    | ((with_reducible apply Or.inr); simp only [Part.same, and_self, modCnt])
    | with_reducible apply Keeps.foldl ?_ _ _ ?_
    | with_reducible apply Keeps.foldlFst ?_ _ _ ?_
    | (intro _ _ _)

theorem keeps_vflagOverflow : ∀ a0 s, Keeps 65536 s (vflagOverflow a0 s) := by
  intro a0 s
  have h := Keeps.refl 65536 s
  delta vflagOverflow
  repeat' first
    | with_reducible assumption
    | ((try lift_lets -underBinder); intro x; clear_value x)
    | with_reducible apply Keeps.app ?_ (keeps_modArr ..) ?_
    | exact rfl

theorem keeps_accOverflow : ∀ a0 a1 s, Keeps 65536 s (accOverflow a0 a1 s) := by
  intro a0 a1 s
  have h := Keeps.refl 65536 s
  delta accOverflow
  repeat' first
    | with_reducible assumption
    | ((try lift_lets -underBinder); intro x; clear_value x)
    | with_reducible apply Keeps.app ?_ (keeps_modArr ..) ?_
    | exact rfl

theorem keeps_undefTiles : ∀ a0 a1 s, Keeps 65537 s (undefTiles a0 a1 s) := by
  intro a0 a1 s
  have h := Keeps.refl 65537 s
  delta undefTiles
  repeat' first
    | with_reducible assumption
    | with_reducible apply Keeps.app ?_ (keeps_bumpFree ..) ?_
    | with_reducible apply Keeps.app ?_ (keeps_modArr ..) ?_
    | exact rfl
    | with_reducible apply Keeps.foldl ?_ _ _ ?_
    | with_reducible apply Keeps.foldlFst ?_ _ _ ?_
    | (intro _ _ _)

theorem keeps_undefAccs : ∀ a0 a1 s, Keeps 65537 s (undefAccs a0 a1 s) := by
  intro a0 a1 s
  have h := Keeps.refl 65537 s
  delta undefAccs
  repeat' first
    | with_reducible assumption
    | ((try lift_lets -underBinder); intro x; clear_value x)
    | with_reducible apply Keeps.app ?_ (keeps_bumpFree ..) ?_
    | with_reducible apply Keeps.app ?_ (keeps_modArr ..) ?_
    | exact rfl
    | with_reducible apply Keeps.foldl ?_ _ _ ?_
    | with_reducible apply Keeps.foldlFst ?_ _ _ ?_
    | (intro _ _ _)

theorem keeps_noteTierWait : ∀ a0 s a2, Keeps 2251799813685248 s (noteTierWait a0 s a2) := by
  intro a0 s a2
  have h := Keeps.refl 2251799813685248 s
  delta noteTierWait
  repeat' first
    | with_reducible assumption
    | ((try lift_lets -underBinder); intro x; clear_value x)
    | with_reducible apply Keeps.ite ?_ ?_
    | exact rfl
    | with_reducible apply keeps_modCnt ?_ ?_ ?_ ?_ ?_ ?_ ?_ ?_ ?_
    | ((with_reducible apply Or.inl); exact rfl)
    | ((with_reducible apply Or.inr); simp only [Part.same, and_self, modCnt])
    | (intro _)
    | split

end Sys2Proof.Machine
end

