-- ==== Sys2Proof/Laws/KeepsNorm.lean ====
section
/-! SUPPORT. What the operations of Machine/Norm.lean keep. -/

namespace Sys2Proof.Machine

set_option linter.unusedSimpArgs false
set_option linter.unusedVariables false

theorem keeps_pushBolt : ∀ a0 a1 a2 a3 a4 s, Keeps 67108864 s (pushBolt a0 a1 a2 a3 a4 s) := by
  intro a0 a1 a2 a3 a4 s
  have h := Keeps.refl 67108864 s
  delta pushBolt
  repeat' first
    | with_reducible assumption
    | ((try lift_lets -underBinder); intro x; clear_value x)
    | with_reducible apply Keeps.ite ?_ ?_
    | exact rfl
    | with_reducible apply keeps_modGab ?_ ?_ ?_
    | ((with_reducible apply Or.inl); exact rfl)
    | ((with_reducible apply Or.inr); simp only [Part.same, and_self, modGab])
    | split

theorem keeps_normTerm : ∀ a0 a1 a2 a3 a4 a5 s, Keeps 67108864 s (normTerm a0 a1 a2 a3 a4 a5 s) := by
  intro a0 a1 a2 a3 a4 a5 s
  have h := Keeps.refl 67108864 s
  delta normTerm
  repeat' first
    | with_reducible assumption
    | ((try lift_lets -underBinder); intro (x : State); refine have hx : Keeps 67108864 s x := ?_; ?_; rotate_left; clear_value x; rotate_right; dsimp -zeta only [x]; clear x)
    | ((try lift_lets -underBinder); intro (fn : State → State); refine have hfn : ∀ t, Keeps 67108864 s t → Keeps 67108864 s (fn t) := ?_; ?_; rotate_left; clear_value fn; rotate_right; dsimp -zeta only [fn]; clear fn)
    | ((try lift_lets -underBinder); intro (fn2 : _ → State → State); refine have hfn2 : ∀ a t, Keeps 67108864 s t → Keeps 67108864 s (fn2 a t) := ?_; ?_; rotate_left; clear_value fn2; rotate_right; dsimp -zeta only [fn2]; clear fn2)
    | with_reducible apply hfn
    | with_reducible apply hfn2
    | ((try lift_lets -underBinder); intro x; clear_value x)
    | with_reducible apply Keeps.ite ?_ ?_
    | with_reducible apply Keeps.app ?_ (keeps_pushBolt ..) ?_
    | exact rfl
    | (intro _)
    | split
    | (dsimp -zeta only)

theorem keeps_normTerms : ∀ a0 a1 a2 a3 s, Keeps 67108864 s (normTerms a0 a1 a2 a3 s) := by
  intro a0 a1 a2 a3 s
  have h := Keeps.refl 67108864 s
  delta normTerms
  repeat' first
    | with_reducible assumption
    | ((try lift_lets -underBinder); intro x; clear_value x)
    | with_reducible apply Keeps.ite ?_ ?_
    | with_reducible apply Keeps.app ?_ (keeps_normTerm ..) ?_
    | exact rfl
    | with_reducible apply Keeps.foldl ?_ _ _ ?_
    | with_reducible apply Keeps.foldlFst ?_ _ _ ?_
    | (intro _ _ _)
    | split
    | (dsimp -zeta only)

theorem keeps_cmdWrite : ∀ a0 a1 a2 s, Keeps 1420820480 s (cmdWrite a0 a1 a2 s) := by
  intro a0 a1 a2 s
  have h := Keeps.refl 1420820480 s
  delta cmdWrite
  repeat' first
    | with_reducible assumption
    | ((try lift_lets -underBinder); intro (x : State); refine have hx : Keeps 1420820480 s x := ?_; ?_; rotate_left; clear_value x; rotate_right; dsimp -zeta only [x]; clear x)
    | ((try lift_lets -underBinder); intro x; clear_value x)
    | with_reducible apply Keeps.ite ?_ ?_
    | with_reducible apply Keeps.app ?_ (keeps_memWrite ..) ?_
    | with_reducible apply Keeps.app ?_ (keeps_normTerms ..) ?_
    | exact rfl
    | split

theorem keeps_cmdWrites : ∀ a0 a1 s, Keeps 1420820480 s (cmdWrites a0 a1 s) := by
  intro a0 a1 s
  have h := Keeps.refl 1420820480 s
  delta cmdWrites
  repeat' first
    | with_reducible assumption
    | with_reducible apply Keeps.app ?_ (keeps_cmdWrite ..) ?_
    | exact rfl
    | with_reducible apply Keeps.foldl ?_ _ _ ?_
    | with_reducible apply Keeps.foldlFst ?_ _ _ ?_
    | (intro _ _ _)
    | (dsimp -zeta only)

end Sys2Proof.Machine
end

