-- ==== Sys2Proof/Laws/KeepsEnvelope.lean ====
section
/-! SUPPORT. What the operations of Machine/Envelope.lean keep. -/

namespace Sys2Proof.Machine

set_option linter.unusedSimpArgs false
set_option linter.unusedVariables false

theorem keeps_respond : ∀ a0 a1 a2 a3 a4 s, Keeps 1353719858 s (respond a0 a1 a2 a3 a4 s) := by
  intro a0 a1 a2 a3 a4 s
  have h := Keeps.refl 1353719858 s
  delta respond
  repeat' first
    | with_reducible assumption
    | ((try lift_lets -underBinder); intro (x : State); refine have hx : Keeps 1353719858 s x := ?_; ?_; rotate_left; clear_value x; rotate_right; dsimp -zeta only [x]; clear x)
    | ((try lift_lets -underBinder); intro (x : State × _); refine have hx : Keeps 1353719858 s x.1 := ?_; ?_; rotate_left; clear_value x; rotate_right; dsimp -zeta only [x]; clear x)
    | ((try lift_lets -underBinder); intro x; clear_value x)
    | with_reducible apply Keeps.ite ?_ ?_
    | with_reducible apply Keeps.app ?_ (keeps_putResp ..) ?_
    | with_reducible apply Keeps.app ?_ (keeps_raiseQueue ..) ?_
    | with_reducible apply Keeps.app ?_ (keeps_eventUnmapped ..) ?_
    | ((with_reducible apply Keeps.outPair); assumption)
    | exact rfl
    | split
    | (dsimp -zeta only)

theorem keeps_numberAnswer : ∀ s, Keeps 32768 s (numberAnswer s) := by
  intro s
  have h := Keeps.refl 32768 s
  delta numberAnswer
  repeat' first
    | with_reducible assumption
    | ((try lift_lets -underBinder); intro x; clear_value x)
    | exact rfl
    | with_reducible apply keeps_modTcs ?_ ?_ ?_ ?_ ?_ ?_ ?_
    | ((with_reducible apply Or.inl); exact rfl)
    | ((with_reducible apply Or.inr); simp only [Part.same, and_self, modTcs])

theorem keeps_countAdm : ∀ a0 a1 s, Keeps 16384 s (countAdm a0 a1 s) := by
  intro a0 a1 s
  have h := Keeps.refl 16384 s
  delta countAdm
  repeat' first
    | with_reducible assumption
    | ((try lift_lets -underBinder); intro x; clear_value x)
    | exact rfl
    | with_reducible apply keeps_modTcs ?_ ?_ ?_ ?_ ?_ ?_ ?_
    | ((with_reducible apply Or.inl); exact rfl)
    | ((with_reducible apply Or.inr); simp only [Part.same, and_self, modTcs])

theorem keeps_enterPart : ∀ a0 a1 s, Keeps 1024 s (enterPart a0 a1 s) := by
  intro a0 a1 s
  have h := Keeps.refl 1024 s
  delta enterPart
  repeat' first
    | with_reducible assumption
    | ((try lift_lets -underBinder); intro x; clear_value x)
    | with_reducible apply Keeps.app ?_ (keeps_modQueue ..) ?_
    | exact rfl

theorem keeps_dropMarker : ∀ a0 a1 s, Keeps 4096 s (dropMarker a0 a1 s) := by
  intro a0 a1 s
  have h := Keeps.refl 4096 s
  delta dropMarker
  repeat' first
    | with_reducible assumption
    | ((try lift_lets -underBinder); intro x; clear_value x)
    | exact rfl
    | with_reducible apply keeps_modTcs ?_ ?_ ?_ ?_ ?_ ?_ ?_
    | ((with_reducible apply Or.inl); exact rfl)
    | ((with_reducible apply Or.inr); simp only [Part.same, and_self, modTcs])

theorem keeps_dropWait : ∀ a0 s, Keeps 4096 s (dropWait a0 s) := by
  intro a0 s
  have h := Keeps.refl 4096 s
  delta dropWait
  repeat' first
    | with_reducible assumption
    | ((try lift_lets -underBinder); intro x; clear_value x)
    | with_reducible apply Keeps.app ?_ (keeps_dropMarker ..) ?_
    | exact rfl
    | split

theorem keeps_skipPart : ∀ a0 a1 s, Keeps 5120 s (skipPart a0 a1 s) := by
  intro a0 a1 s
  have h := Keeps.refl 5120 s
  delta skipPart
  repeat' first
    | with_reducible assumption
    | ((try lift_lets -underBinder); intro (x : State); refine have hx : Keeps 5120 s x := ?_; ?_; rotate_left; clear_value x; rotate_right; dsimp -zeta only [x]; clear x)
    | ((try lift_lets -underBinder); intro x; clear_value x)
    | with_reducible apply Keeps.ite ?_ ?_
    | with_reducible apply Keeps.app ?_ (keeps_dropMarker ..) ?_
    | with_reducible apply Keeps.app ?_ (keeps_modQueue ..) ?_
    | with_reducible apply Keeps.app ?_ (keeps_dropWait ..) ?_
    | exact rfl
    | split
    | (dsimp -zeta only)

theorem keeps_skipEnvelope : ∀ a0 a1 s, Keeps 37888 s (skipEnvelope a0 a1 s) := by
  intro a0 a1 s
  have h := Keeps.refl 37888 s
  delta skipEnvelope
  repeat' first
    | with_reducible assumption
    | ((try lift_lets -underBinder); intro (x : State); refine have hx : Keeps 37888 s x := ?_; ?_; rotate_left; clear_value x; rotate_right; dsimp -zeta only [x]; clear x)
    | ((try lift_lets -underBinder); intro (x : State × _); refine have hx : Keeps 37888 s x.1 := ?_; ?_; rotate_left; clear_value x; rotate_right; dsimp -zeta only [x]; clear x)
    | ((try lift_lets -underBinder); intro x; clear_value x)
    | with_reducible apply Keeps.ite ?_ ?_
    | with_reducible apply Keeps.app ?_ (keeps_skipPart ..) ?_
    | with_reducible apply Keeps.app ?_ (keeps_modEnv ..) ?_
    | exact rfl
    | with_reducible apply Keeps.foldl ?_ _ _ ?_
    | with_reducible apply Keeps.foldlFst ?_ _ _ ?_
    | (intro _ _ _)
    | split

theorem keeps_purgeEnvs : ∀ s, Keeps 32768 s (purgeEnvs s) := by
  intro s
  have h := Keeps.refl 32768 s
  delta purgeEnvs
  repeat' first
    | with_reducible assumption
    | ((try lift_lets -underBinder); intro x; clear_value x)
    | exact rfl
    | with_reducible apply keeps_modTcs ?_ ?_ ?_ ?_ ?_ ?_ ?_
    | ((with_reducible apply Or.inl); exact rfl)
    | ((with_reducible apply Or.inr); simp only [Part.same, and_self, modTcs])

theorem keeps_stampHead : ∀ a0 s, Keeps 32768 s (stampHead a0 s) := by
  intro a0 s
  have h := Keeps.refl 32768 s
  delta stampHead
  repeat' first
    | with_reducible assumption
    | ((try lift_lets -underBinder); intro x; clear_value x)
    | with_reducible apply Keeps.app ?_ (keeps_modEnv ..) ?_
    | exact rfl
    | split

theorem keeps_leaveQueue : ∀ a0 a1 s, Keeps 32768 s (leaveQueue a0 a1 s) := by
  intro a0 a1 s
  have h := Keeps.refl 32768 s
  delta leaveQueue
  repeat' first
    | with_reducible assumption
    | ((try lift_lets -underBinder); intro (x : State); refine have hx : Keeps 32768 s x := ?_; ?_; rotate_left; clear_value x; rotate_right; dsimp -zeta only [x]; clear x)
    | ((try lift_lets -underBinder); intro x; clear_value x)
    | with_reducible apply Keeps.ite ?_ ?_
    | with_reducible apply Keeps.app ?_ (keeps_stampHead ..) ?_
    | exact rfl
    | with_reducible apply keeps_modTcs ?_ ?_ ?_ ?_ ?_ ?_ ?_
    | ((with_reducible apply Or.inl); exact rfl)
    | ((with_reducible apply Or.inr); simp only [Part.same, and_self, modTcs])
    | split

theorem keeps_behindEarlier : ∀ a0 s, Keeps 32768 s (behindEarlier a0 s) := by
  intro a0 s
  have h := Keeps.refl 32768 s
  delta behindEarlier
  repeat' first
    | with_reducible assumption
    | ((try lift_lets -underBinder); intro x; clear_value x)
    | with_reducible apply Keeps.ite ?_ ?_
    | exact rfl
    | with_reducible apply keeps_modTcs ?_ ?_ ?_ ?_ ?_ ?_ ?_
    | ((with_reducible apply Or.inl); exact rfl)
    | ((with_reducible apply Or.inr); simp only [Part.same, and_self, modTcs])
    | split

theorem keeps_noteDraw : ∀ a0 a1 s, Keeps 281474976743424 s (noteDraw a0 a1 s) := by
  intro a0 a1 s
  have h := Keeps.refl 281474976743424 s
  delta noteDraw
  repeat' first
    | with_reducible assumption
    | ((try lift_lets -underBinder); intro x; clear_value x)
    | with_reducible apply Keeps.ite ?_ ?_
    | with_reducible apply Keeps.app ?_ (keeps_modEnv ..) ?_
    | exact rfl
    | with_reducible apply keeps_modCnt ?_ ?_ ?_ ?_ ?_ ?_ ?_ ?_ ?_
    | ((with_reducible apply Or.inl); exact rfl)
    | ((with_reducible apply Or.inr); simp only [Part.same, and_self, modCnt])
    | split

theorem keeps_countDrawn : ∀ a0 s, Keeps 281474976743424 s (countDrawn a0 s) := by
  intro a0 s
  have h := Keeps.refl 281474976743424 s
  delta countDrawn
  repeat' first
    | with_reducible assumption
    | ((try lift_lets -underBinder); intro x; clear_value x)
    | with_reducible apply Keeps.ite ?_ ?_
    | with_reducible apply Keeps.app ?_ (keeps_modEnv ..) ?_
    | exact rfl
    | with_reducible apply keeps_modCnt ?_ ?_ ?_ ?_ ?_ ?_ ?_ ?_ ?_
    | ((with_reducible apply Or.inl); exact rfl)
    | ((with_reducible apply Or.inr); simp only [Part.same, and_self, modCnt])
    | split

theorem keeps_revoke : ∀ a0 a1 a2 s, Keeps 281476330479666 s (revoke a0 a1 a2 s) := by
  intro a0 a1 a2 s
  have h := Keeps.refl 281476330479666 s
  delta revoke
  repeat' first
    | with_reducible assumption
    | ((try lift_lets -underBinder); intro (x : State); refine have hx : Keeps 281476330479666 s x := ?_; ?_; rotate_left; clear_value x; rotate_right; dsimp -zeta only [x]; clear x)
    | ((try lift_lets -underBinder); intro x; clear_value x)
    | with_reducible apply Keeps.ite ?_ ?_
    | with_reducible apply Keeps.app ?_ (keeps_noteDraw ..) ?_
    | with_reducible apply Keeps.app ?_ (keeps_countAdm ..) ?_
    | with_reducible apply Keeps.app ?_ (keeps_countDrawn ..) ?_
    | with_reducible apply Keeps.app ?_ (keeps_respond ..) ?_
    | with_reducible apply Keeps.app ?_ (keeps_eventP ..) ?_
    | with_reducible apply Keeps.app ?_ (keeps_modEnv ..) ?_
    | exact rfl
    | split
    | (dsimp -zeta only)

theorem keeps_cutRes (p : Nat) (r : CapRes) (old new : Nat) (s : State) : Keeps 1370497074 s (cutRes p r old new s) := by
  have h := Keeps.refl 1370497074 s
  unfold cutRes
  extract_lets k cur set s1
  have hs : ∀ v, Keeps 1370497074 s (set v s) := fun v =>
    keeps_modMem h (fun _ => rfl) (.inr rfl) (.inr ⟨rfl, rfl, rfl⟩) (.inr rfl) (.inr ⟨rfl, rfl, rfl⟩) (.inr ⟨rfl, rfl⟩) (.inl rfl)
      (.inr ⟨rfl, rfl, rfl, rfl⟩)
  refine Keeps.app rfl (keeps_eventP ..) ?_
  cases r
  · exact h
  · exact hs _
  · exact hs _

theorem keeps_capCutEnv (r : CapRes) (acc : State × Nat) (e : Envelope) :
    Keeps 281476347256882 acc.1 (capCutEnv r acc e).1 := by
  have h := Keeps.refl 281476347256882 acc.1
  unfold capCutEnv
  split
  · exact h
  · exact Keeps.app rfl (keeps_revoke ..) (Keeps.ite h (Keeps.app rfl (keeps_cutRes ..) h))

theorem keeps_capacityLoss (r : CapRes) (remaining : Nat) (s : State) : Keeps 281476347256882 s (capacityLoss r remaining s) := by
  have h := Keeps.refl 281476347256882 s
  unfold capacityLoss
  extract_lets total short a rest
  have ha : Keeps 281476347256882 s a.1 := Keeps.foldlFst (fun b e k => Keeps.app rfl (keeps_capCutEnv r b e) k) _ (s, short) h
  clear_value a rest total short
  repeat' first
    | with_reducible assumption
    | with_reducible apply Keeps.app ?_ (keeps_cutRes ..) ?_
    | exact rfl
    | with_reducible apply Keeps.foldlFst ?_ _ _ ?_
    | (intro _ _ _)
    | split
    | (dsimp only)

end Sys2Proof.Machine
end

