-- ==== Sys2Proof/Laws/KeepsFault.lean ====
section
/-! SUPPORT. What the operations of Machine/Fault.lean keep. -/

namespace Sys2Proof.Machine

set_option linter.unusedSimpArgs false
set_option linter.unusedVariables false

theorem keeps_modHw : ∀ a0 s, Keeps 36028797019095040 s (modHw a0 s) := by
  intro a0 s
  have h := Keeps.refl 36028797019095040 s
  delta modHw
  repeat' first
    | with_reducible assumption
    | ((try lift_lets -underBinder); intro x; clear_value x)
    | exact rfl
    | with_reducible apply keeps_modWmc ?_ ?_ ?_ ?_ ?_ ?_ ?_ ?_ ?_
    | with_reducible apply keeps_modMxa ?_ ?_ ?_ ?_
    | ((with_reducible apply Or.inl); exact rfl)
    | ((with_reducible apply Or.inr); simp only [Part.same, and_self, modMxa, modWmc])

theorem keeps_eventRetireT1 : ∀ a0 a1 s, Keeps 1353719858 s (eventRetireT1 a0 a1 s) := by
  intro a0 a1 s
  have h := Keeps.refl 1353719858 s
  delta eventRetireT1
  repeat' first
    | with_reducible assumption
    | with_reducible apply Keeps.app ?_ (keeps_eventD ..) ?_
    | exact rfl

theorem keeps_retireT1 : ∀ a0 s, Keeps 36310273399906354 s (retireT1 a0 s) := by
  intro a0 s
  have h := Keeps.refl 36310273399906354 s
  delta retireT1
  repeat' first
    | with_reducible assumption
    | ((try lift_lets -underBinder); intro (x : State); refine have hx : Keeps 36310273399906354 s x := ?_; ?_; rotate_left; clear_value x; rotate_right; dsimp -zeta only [x]; clear x)
    | ((try lift_lets -underBinder); intro x; clear_value x)
    | with_reducible apply Keeps.ite ?_ ?_
    | with_reducible apply Keeps.app ?_ (keeps_modHw ..) ?_
    | with_reducible apply Keeps.app ?_ (keeps_eventRetireT1 ..) ?_
    | with_reducible apply Keeps.app ?_ (keeps_shrinkTier ..) ?_
    | with_reducible apply Keeps.app ?_ (keeps_capacityLoss ..) ?_
    | exact rfl
    | with_reducible apply keeps_modMem ?_ ?_ ?_ ?_ ?_ ?_ ?_ ?_ ?_
    | ((with_reducible apply Or.inl); exact rfl)
    | ((with_reducible apply Or.inr); simp only [Part.same, and_self, modMem])
    | (intro _; exact rfl)
    | (intro w; exact w)
    | exact fun h => memory_wf_put _ _ h
    | exact fun h => memory_wf_clear _ _ h
    | exact fun h => memory_wf_copy _ _ _ h
    | exact fun h => memory_wf_foldl (fun _ _ k => memory_wf_put _ _ k) _ _ (memory_wf_filter _ h)
    | exact fun h => memory_wf_foldl (fun _ _ k => memory_wf_put _ _ k) _ _ h
    | split

theorem keeps_noteT1Error : ∀ a0 s, Keeps 36310273399906354 s (noteT1Error a0 s) := by
  intro a0 s
  have h := Keeps.refl 36310273399906354 s
  delta noteT1Error
  repeat' first
    | with_reducible assumption
    | ((try lift_lets -underBinder); intro (x : State); refine have hx : Keeps 36310273399906354 s x := ?_; ?_; rotate_left; clear_value x; rotate_right; dsimp -zeta only [x]; clear x)
    | ((try lift_lets -underBinder); intro x; clear_value x)
    | with_reducible apply Keeps.ite ?_ ?_
    | with_reducible apply Keeps.app ?_ (keeps_retireT1 ..) ?_
    | exact rfl
    | with_reducible apply keeps_modMem ?_ ?_ ?_ ?_ ?_ ?_ ?_ ?_ ?_
    | ((with_reducible apply Or.inl); exact rfl)
    | ((with_reducible apply Or.inr); simp only [Part.same, and_self, modMem])
    | (intro _; exact rfl)
    | (intro w; exact w)
    | exact fun h => memory_wf_put _ _ h
    | exact fun h => memory_wf_clear _ _ h
    | exact fun h => memory_wf_copy _ _ _ h
    | exact fun h => memory_wf_foldl (fun _ _ k => memory_wf_put _ _ k) _ _ (memory_wf_filter _ h)
    | exact fun h => memory_wf_foldl (fun _ _ k => memory_wf_put _ _ k) _ _ h
    | split
    | (dsimp -zeta only)

theorem keeps_noteError : ∀ a0 a1 s, Keeps 36310273399906354 s (noteError a0 a1 s) := by
  intro a0 a1 s
  have h := Keeps.refl 36310273399906354 s
  delta noteError
  repeat' first
    | with_reducible assumption
    | ((try lift_lets -underBinder); intro (x : State); refine have hx : Keeps 36310273399906354 s x := ?_; ?_; rotate_left; clear_value x; rotate_right; dsimp -zeta only [x]; clear x)
    | ((try lift_lets -underBinder); intro x; clear_value x)
    | with_reducible apply Keeps.ite ?_ ?_
    | with_reducible apply Keeps.app ?_ (keeps_eventError ..) ?_
    | with_reducible apply Keeps.app ?_ (keeps_noteT1Error ..) ?_
    | with_reducible apply Keeps.app ?_ (keeps_retireT1 ..) ?_
    | with_reducible apply Keeps.app ?_ (keeps_modBlock ..) ?_
    | exact rfl
    | split

theorem keeps_noteErrors : ∀ a0 a1 s, Keeps 36310273399906354 s (noteErrors a0 a1 s) := by
  intro a0 a1 s
  have h := Keeps.refl 36310273399906354 s
  delta noteErrors
  repeat' first
    | with_reducible assumption
    | with_reducible apply Keeps.app ?_ (keeps_noteError ..) ?_
    | exact rfl
    | with_reducible apply Keeps.foldl ?_ _ _ ?_
    | with_reducible apply Keeps.foldlFst ?_ _ _ ?_
    | (intro _ _ _)

end Sys2Proof.Machine
end

