-- ==== Sys2Proof/Laws/KeepsGab.lean ====
section
/-! SUPPORT. What the operations of Machine/Gab.lean keep. -/

namespace Sys2Proof.Machine

set_option linter.unusedSimpArgs false
set_option linter.unusedVariables false

theorem keeps_modEntry : ∀ a0 a1 a2 s, Keeps 67108864 s (modEntry a0 a1 a2 s) := by
  intro a0 a1 a2 s
  have h := Keeps.refl 67108864 s
  delta modEntry
  repeat' first
    | with_reducible assumption
    | ((try lift_lets -underBinder); intro x; clear_value x)
    | with_reducible apply Keeps.ite ?_ ?_
    | exact rfl
    | with_reducible apply keeps_modGab ?_ ?_ ?_
    | ((with_reducible apply Or.inl); exact rfl)
    | ((with_reducible apply Or.inr); simp only [Part.same, and_self, modGab])
    | split

theorem keeps_adderWrite : ∀ a0 a1 a2 s, Keeps 271581184 s (adderWrite a0 a1 a2 s) := by
  intro a0 a1 a2 s
  have h := Keeps.refl 271581184 s
  delta adderWrite
  repeat' first
    | with_reducible assumption
    | ((try lift_lets -underBinder); intro (x : State); refine have hx : Keeps 271581184 s x := ?_; ?_; rotate_left; clear_value x; rotate_right; dsimp -zeta only [x]; clear x)
    | ((try lift_lets -underBinder); intro (x : State × _); refine have hx : Keeps 271581184 s x.1 := ?_; ?_; rotate_left; clear_value x; rotate_right; dsimp -zeta only [x]; clear x)
    | ((try lift_lets -underBinder); intro x; clear_value x)
    | with_reducible apply Keeps.ite ?_ ?_
    | with_reducible apply Keeps.app ?_ (keeps_storeBytes ..) ?_
    | with_reducible apply Keeps.app ?_ (keeps_setBolt ..) ?_
    | exact rfl
    | with_reducible apply Keeps.foldl ?_ _ _ ?_
    | with_reducible apply Keeps.foldlFst ?_ _ _ ?_
    | (intro _ _ _)
    | split
    | (dsimp -zeta only)

theorem keeps_setGabElem : ∀ a0 a1 a2 a3 a4 s, Keeps 338690048 s (setGabElem a0 a1 a2 a3 a4 s) := by
  intro a0 a1 a2 a3 a4 s
  have h := Keeps.refl 338690048 s
  delta setGabElem
  repeat' first
    | with_reducible assumption
    | ((try lift_lets -underBinder); intro x; clear_value x)
    | with_reducible apply Keeps.ite ?_ ?_
    | with_reducible apply Keeps.app ?_ (keeps_adderWrite ..) ?_
    | with_reducible apply Keeps.app ?_ (keeps_modEntry ..) ?_
    | exact rfl
    | split

theorem keeps_writeHeader : ∀ a0 a1 a2 s, Keeps 271581185 s (writeHeader a0 a1 a2 s) := by
  intro a0 a1 a2 s
  have h := Keeps.refl 271581185 s
  delta writeHeader
  repeat' first
    | with_reducible assumption
    | with_reducible apply Keeps.ite ?_ ?_
    | with_reducible apply Keeps.app ?_ (keeps_bumpFree ..) ?_
    | with_reducible apply Keeps.app ?_ (keeps_adderWrite ..) ?_
    | exact rfl
    | split

theorem keeps_setBand : ∀ a0 a1 a2 a3 s, Keeps 338690049 s (setBand a0 a1 a2 a3 s) := by
  intro a0 a1 a2 a3 s
  have h := Keeps.refl 338690049 s
  delta setBand
  repeat' first
    | with_reducible assumption
    | ((try lift_lets -underBinder); intro x; clear_value x)
    | with_reducible apply Keeps.app ?_ (keeps_writeHeader ..) ?_
    | with_reducible apply Keeps.app ?_ (keeps_modEntry ..) ?_
    | exact rfl

theorem keeps_zeroEntry : ∀ a0 a1 s, Keeps 338690049 s (zeroEntry a0 a1 s) := by
  intro a0 a1 s
  have h := Keeps.refl 338690049 s
  delta zeroEntry
  repeat' first
    | with_reducible assumption
    | ((try lift_lets -underBinder); intro (x : State); refine have hx : Keeps 338690049 s x := ?_; ?_; rotate_left; clear_value x; rotate_right; dsimp -zeta only [x]; clear x)
    | ((try lift_lets -underBinder); intro (x : State × _); refine have hx : Keeps 338690049 s x.1 := ?_; ?_; rotate_left; clear_value x; rotate_right; dsimp -zeta only [x]; clear x)
    | ((try lift_lets -underBinder); intro x; clear_value x)
    | with_reducible apply Keeps.ite ?_ ?_
    | with_reducible apply Keeps.app ?_ (keeps_modEntry ..) ?_
    | with_reducible apply Keeps.app ?_ (keeps_adderWrite ..) ?_
    | with_reducible apply Keeps.app ?_ (keeps_writeHeader ..) ?_
    | exact rfl
    | with_reducible apply Keeps.foldl ?_ _ _ ?_
    | with_reducible apply Keeps.foldlFst ?_ _ _ ?_
    | (intro _ _ _)
    | split

theorem keeps_putStored : ∀ a0 a1 a2 a3 s, Keeps 2097152 s (putStored a0 a1 a2 a3 s) := by
  intro a0 a1 a2 a3 s
  have h := Keeps.refl 2097152 s
  delta putStored
  repeat' first
    | with_reducible assumption
    | ((try lift_lets -underBinder); intro (x : State); refine have hx : Keeps 2097152 s x := ?_; ?_; rotate_left; clear_value x; rotate_right; dsimp -zeta only [x]; clear x)
    | ((try lift_lets -underBinder); intro (x : State × _); refine have hx : Keeps 2097152 s x.1 := ?_; ?_; rotate_left; clear_value x; rotate_right; dsimp -zeta only [x]; clear x)
    | ((try lift_lets -underBinder); intro x; clear_value x)
    | with_reducible apply Keeps.ite ?_ ?_
    | exact rfl
    | with_reducible apply keeps_modMemBytes ?_ ?_ ?_ ?_ ?_ ?_ ?_ ?_ ?_
    | ((with_reducible apply Or.inl); exact rfl)
    | ((with_reducible apply Or.inr); simp only [Part.same, and_self, modMem])
    | (intro _; exact rfl)
    | (intro w; exact w)
    | exact fun h => memory_wf_put _ _ h
    | exact fun h => memory_wf_clear _ _ h
    | exact fun h => memory_wf_copy _ _ _ h
    | exact fun h => memory_wf_foldl (fun _ _ k => memory_wf_put _ _ k) _ _ (memory_wf_filter _ h)
    | exact fun h => memory_wf_foldl (fun _ _ k => memory_wf_put _ _ k) _ _ h
    | with_reducible apply Keeps.foldl ?_ _ _ ?_
    | with_reducible apply Keeps.foldlFst ?_ _ _ ?_
    | (intro _ _ _)
    | split
    | (dsimp -zeta only)

theorem keeps_keepStored : ∀ a0 a1 s, Keeps 69206016 s (keepStored a0 a1 s) := by
  intro a0 a1 s
  have h := Keeps.refl 69206016 s
  delta keepStored
  repeat' first
    | with_reducible assumption
    | ((try lift_lets -underBinder); intro x; clear_value x)
    | with_reducible apply Keeps.ite ?_ ?_
    | with_reducible apply Keeps.app ?_ (keeps_putStored ..) ?_
    | with_reducible apply Keeps.app ?_ (keeps_modEntry ..) ?_
    | exact rfl
    | with_reducible apply Keeps.foldl ?_ _ _ ?_
    | with_reducible apply Keeps.foldlFst ?_ _ _ ?_
    | (intro _ _ _)
    | split
    | (dsimp -zeta only)

theorem keeps_meetErrors {m : Nat} {s0 : State} (a0 : Sys2Proof.Machine.Acc) (a1 : List Sys2Proof.ReadError) (a2 : Sys2Proof.Machine.State → Sys2Proof.Machine.State) (s : Sys2Proof.Machine.State)
    (hm : (Nat.land 36310273467015218 m == 36310273467015218) = true)
    (hb2 : ∀  t, Keeps m s0 t → Keeps m s0 (a2  t)) (h : Keeps m s0 s) :
    Keeps m s0 (meetErrors a0 a1 a2 s) := by
  delta meetErrors
  repeat' first
    | with_reducible assumption
    | with_reducible apply Keeps.app ?_ (keeps_noteErrors ..) ?_
    | with_reducible apply Keeps.app ?_ (keeps_keepStored ..) ?_
    | with_reducible apply hb2
    | exact sub_trans (g := 36310273467015218) rfl hm
    | exact .inl (bit_of_sub (g := 36310273467015218) rfl hm)
    | (intro _)
    | exact rfl
    | split

theorem keeps_eventGabRef : ∀ a0 a1 a2 a3 a4 a5 s, Keeps 1353719858 s (eventGabRef a0 a1 a2 a3 a4 a5 s) := by
  intro a0 a1 a2 a3 a4 a5 s
  have h := Keeps.refl 1353719858 s
  delta eventGabRef
  repeat' first
    | with_reducible assumption
    | with_reducible apply Keeps.app ?_ (keeps_eventP ..) ?_
    | exact rfl

theorem keeps_queueContribution : ∀ a0 a1 a2 s, Keeps 1487941682 s (queueContribution a0 a1 a2 s) := by
  intro a0 a1 a2 s
  have h := Keeps.refl 1487941682 s
  delta queueContribution
  repeat' first
    | with_reducible assumption
    | ((try lift_lets -underBinder); intro (x : State); refine have hx : Keeps 1487941682 s x := ?_; ?_; rotate_left; clear_value x; rotate_right; dsimp -zeta only [x]; clear x)
    | ((try lift_lets -underBinder); intro x; clear_value x)
    | with_reducible apply Keeps.ite ?_ ?_
    | with_reducible apply Keeps.app ?_ (keeps_markDone ..) ?_
    | with_reducible apply Keeps.app ?_ (keeps_eventGabRef ..) ?_
    | exact rfl
    | with_reducible apply keeps_modGab ?_ ?_ ?_
    | ((with_reducible apply Or.inl); exact rfl)
    | ((with_reducible apply Or.inr); simp only [Part.same, and_self, modGab])
    | split
    | (dsimp -zeta only)

theorem keeps_addElem : ∀ a0 a1 a2 a3 a4 s, Keeps 338690048 s.1 ((addElem a0 a1 a2 a3 a4 s).1) := by
  intro a0 a1 a2 a3 a4 s
  have h := Keeps.refl 338690048 s.1
  delta addElem
  repeat' first
    | with_reducible assumption
    | ((try lift_lets -underBinder); intro (x : State); refine have hx : Keeps 338690048 s.1 x := ?_; ?_; rotate_left; clear_value x; rotate_right; dsimp -zeta only [x]; clear x)
    | ((try lift_lets -underBinder); intro (x : State × _); refine have hx : Keeps 338690048 s.1 x.1 := ?_; ?_; rotate_left; clear_value x; rotate_right; dsimp -zeta only [x]; clear x)
    | ((try lift_lets -underBinder); intro x; clear_value x)
    | with_reducible apply Keeps.app ?_ (keeps_setGabElem ..) ?_
    | exact rfl
    | (dsimp -zeta only)

theorem keeps_addBand : ∀ a0 a1 a2 s, Keeps 70369082867713 s (addBand a0 a1 a2 s) := by
  intro a0 a1 a2 s
  have h := Keeps.refl 70369082867713 s
  delta addBand
  repeat' first
    | with_reducible assumption
    | ((try lift_lets -underBinder); intro (x : State); refine have hx : Keeps 70369082867713 s x := ?_; ?_; rotate_left; clear_value x; rotate_right; dsimp -zeta only [x]; clear x)
    | ((try lift_lets -underBinder); intro (x : State × _); refine have hx : Keeps 70369082867713 s x.1 := ?_; ?_; rotate_left; clear_value x; rotate_right; dsimp -zeta only [x]; clear x)
    | ((try lift_lets -underBinder); intro x; clear_value x)
    | with_reducible apply Keeps.ite ?_ ?_
    | with_reducible apply Keeps.app ?_ (keeps_addElem ..) ?_
    | with_reducible apply Keeps.app ?_ (keeps_setBand ..) ?_
    | with_reducible apply Keeps.app ?_ (keeps_countAcc ..) ?_
    | ((with_reducible apply Keeps.outPair); assumption)
    | exact rfl
    | with_reducible apply Keeps.foldl ?_ _ _ ?_
    | with_reducible apply Keeps.foldlFst ?_ _ _ ?_
    | (intro _ _ _)
    | split
    | (dsimp -zeta only)

theorem keeps_putContrib : ∀ a0 s, Keeps 134221824 s (putContrib a0 s) := by
  intro a0 s
  have h := Keeps.refl 134221824 s
  delta putContrib
  repeat' first
    | with_reducible assumption
    | ((try lift_lets -underBinder); intro (x : State); refine have hx : Keeps 134221824 s x := ?_; ?_; rotate_left; clear_value x; rotate_right; dsimp -zeta only [x]; clear x)
    | ((try lift_lets -underBinder); intro x; clear_value x)
    | with_reducible apply Keeps.ite ?_ ?_
    | with_reducible apply Keeps.app ?_ (keeps_markDone ..) ?_
    | exact rfl
    | with_reducible apply keeps_modGab ?_ ?_ ?_
    | ((with_reducible apply Or.inl); exact rfl)
    | ((with_reducible apply Or.inr); simp only [Part.same, and_self, modGab])
    | split

theorem keeps_contribStep : ∀ a0 a1 s, Keeps 70370299228211 s (contribStep a0 a1 s) := by
  intro a0 a1 s
  have h := Keeps.refl 70370299228211 s
  delta contribStep
  repeat' first
    | with_reducible assumption
    | ((try lift_lets -underBinder); intro (x : State); refine have hx : Keeps 70370299228211 s x := ?_; ?_; rotate_left; clear_value x; rotate_right; dsimp -zeta only [x]; clear x)
    | ((try lift_lets -underBinder); intro x; clear_value x)
    | with_reducible apply Keeps.ite ?_ ?_
    | with_reducible apply Keeps.app ?_ (keeps_putContrib ..) ?_
    | with_reducible apply Keeps.app ?_ (keeps_setBand ..) ?_
    | with_reducible apply Keeps.app ?_ (keeps_eventUnmapped ..) ?_
    | with_reducible apply Keeps.app ?_ (keeps_addBand ..) ?_
    | with_reducible apply Keeps.app ?_ (keeps_eventP ..) ?_
    | exact rfl
    | split

theorem keeps_contribTimeout : ∀ a0 a1 s, Keeps 1555050547 s (contribTimeout a0 a1 s) := by
  intro a0 a1 s
  have h := Keeps.refl 1555050547 s
  delta contribTimeout
  repeat' first
    | with_reducible assumption
    | ((try lift_lets -underBinder); intro (x : State); refine have hx : Keeps 1555050547 s x := ?_; ?_; rotate_left; clear_value x; rotate_right; dsimp -zeta only [x]; clear x)
    | ((try lift_lets -underBinder); intro (x : State × _); refine have hx : Keeps 1555050547 s x.1 := ?_; ?_; rotate_left; clear_value x; rotate_right; dsimp -zeta only [x]; clear x)
    | ((try lift_lets -underBinder); intro x; clear_value x)
    | with_reducible apply Keeps.ite ?_ ?_
    | with_reducible apply Keeps.app ?_ (keeps_eventP ..) ?_
    | with_reducible apply Keeps.app ?_ (keeps_setBand ..) ?_
    | with_reducible apply Keeps.app ?_ (keeps_putContrib ..) ?_
    | exact rfl
    | with_reducible apply Keeps.foldl ?_ _ _ ?_
    | with_reducible apply Keeps.foldlFst ?_ _ _ ?_
    | (intro _ _ _)
    | split

end Sys2Proof.Machine
end

