-- ==== Sys2Proof/Laws/KeepsEngine.lean ====
section
/-! SUPPORT. What the operations of Machine/Engine.lean keep. -/

namespace Sys2Proof.Machine

set_option linter.unusedSimpArgs false
set_option linter.unusedVariables false

theorem keeps_discardCmd : ∀ a0 s, Keeps 140738976329778 s (discardCmd a0 s) := by
  intro a0 s
  have h := Keeps.refl 140738976329778 s
  delta discardCmd
  repeat' first
    | with_reducible assumption
    | ((try lift_lets -underBinder); intro (x : State); refine have hx : Keeps 140738976329778 s x := ?_; ?_; rotate_left; clear_value x; rotate_right; dsimp -zeta only [x]; clear x)
    | ((try lift_lets -underBinder); intro x; clear_value x)
    | with_reducible apply Keeps.ite ?_ ?_
    | with_reducible apply Keeps.app ?_ (keeps_modEnv ..) ?_
    | with_reducible apply Keeps.app ?_ (keeps_modInflight ..) ?_
    | with_reducible apply Keeps.app ?_ (keeps_queueContribution ..) ?_
    | exact rfl
    | with_reducible apply keeps_modCnt ?_ ?_ ?_ ?_ ?_ ?_ ?_ ?_ ?_
    | ((with_reducible apply Or.inl); exact rfl)
    | ((with_reducible apply Or.inr); simp only [Part.same, and_self, modCnt])
    | split

theorem keeps_startCmd : ∀ a0 s, Keeps 69632 s (startCmd a0 s) := by
  intro a0 s
  have h := Keeps.refl 69632 s
  delta startCmd
  repeat' first
    | with_reducible assumption
    | ((try lift_lets -underBinder); intro (x : State); refine have hx : Keeps 69632 s x := ?_; ?_; rotate_left; clear_value x; rotate_right; dsimp -zeta only [x]; clear x)
    | ((try lift_lets -underBinder); intro x; clear_value x)
    | with_reducible apply Keeps.app ?_ (keeps_markStarted ..) ?_
    | with_reducible apply Keeps.app ?_ (keeps_modArr ..) ?_
    | exact rfl
    | split

theorem keeps_runNow {m : Nat} {s0 : State} (a0 : Sys2Proof.CmdWord → Bool) (a1 : Nat) (a2 : BitVec 32) (a3 : Sys2Proof.Machine.Inflight → Sys2Proof.Machine.State → List (Nat × Nat)) (a4 : Sys2Proof.Machine.Inflight → Sys2Proof.Machine.State → Sys2Proof.Machine.State) (s : Sys2Proof.Machine.State)
    (hm : (Nat.land 140738976395314 m == 140738976395314) = true)
    (hb4 : ∀ x0 t, Keeps m s0 t → Keeps m s0 (a4 x0 t)) (h : Keeps m s0 s) :
    Keeps m s0 (runNow a0 a1 a2 a3 a4 s) := by
  delta runNow
  repeat' first
    | with_reducible assumption
    | ((try lift_lets -underBinder); intro x; clear_value x)
    | with_reducible apply Keeps.app ?_ (keeps_discardCmd ..) ?_
    | with_reducible apply Keeps.app ?_ (keeps_markDone ..) ?_
    | with_reducible apply Keeps.app ?_ (keeps_startCmd ..) ?_
    | with_reducible apply hb4
    | exact sub_trans (g := 140738976395314) rfl hm
    | exact .inl (bit_of_sub (g := 140738976395314) rfl hm)
    | (intro _)
    | exact rfl
    | split

theorem keeps_runLong {m : Nat} {s0 : State} (a0 : Sys2Proof.CmdWord → Bool) (a1 : Nat) (a2 : BitVec 32) (a3 : Sys2Proof.Machine.Inflight → Sys2Proof.Machine.State → List (Nat × Nat)) (a4 : Sys2Proof.Machine.Inflight → Sys2Proof.Machine.State → Sys2Proof.Machine.State) (s : Sys2Proof.Machine.State)
    (hm : (Nat.land 140738976395314 m == 140738976395314) = true)
    (hb4 : ∀ x0 t, Keeps m s0 t → Keeps m s0 (a4 x0 t)) (h : Keeps m s0 s) :
    Keeps m s0 (runLong a0 a1 a2 a3 a4 s) := by
  delta runLong
  repeat' first
    | with_reducible assumption
    | ((try lift_lets -underBinder); intro x; clear_value x)
    | with_reducible apply Keeps.app ?_ (keeps_discardCmd ..) ?_
    | with_reducible apply Keeps.app ?_ (keeps_startCmd ..) ?_
    | with_reducible apply hb4
    | exact sub_trans (g := 140738976395314) rfl hm
    | exact .inl (bit_of_sub (g := 140738976395314) rfl hm)
    | (intro _)
    | exact rfl
    | split

theorem keeps_runNowAt {m : Nat} {s0 : State} (a0 : Sys2Proof.CmdWord → Bool) (a1 : Nat) (a2 : BitVec 32) (a3 : Sys2Proof.Machine.Inflight → Sys2Proof.Machine.State → List (Nat × Nat)) (a4 : Sys2Proof.Machine.Inflight → Sys2Proof.Machine.State → List Sys2Proof.Machine.Access) (a5 : Sys2Proof.Machine.Inflight → Sys2Proof.Machine.State → Sys2Proof.Machine.State) (s : Sys2Proof.Machine.State)
    (hm : (Nat.land 140739513266226 m == 140739513266226) = true)
    (hb5 : ∀ x0 t, Keeps m s0 t → Keeps m s0 (a5 x0 t)) (h : Keeps m s0 s) :
    Keeps m s0 (runNowAt a0 a1 a2 a3 a4 a5 s) := by
  delta runNowAt
  repeat' first
    | with_reducible assumption
    | ((try lift_lets -underBinder); intro x; clear_value x)
    | with_reducible apply Keeps.app ?_ (keeps_discardCmd ..) ?_
    | with_reducible apply keeps_whenReached
    | with_reducible apply Keeps.app ?_ (keeps_markDone ..) ?_
    | with_reducible apply Keeps.app ?_ (keeps_startCmd ..) ?_
    | with_reducible apply hb5
    | exact sub_trans (g := 140739513266226) rfl hm
    | exact .inl (bit_of_sub (g := 140739513266226) rfl hm)
    | (intro _)
    | exact rfl
    | split

theorem keeps_runLongAt {m : Nat} {s0 : State} (a0 : Sys2Proof.CmdWord → Bool) (a1 : Nat) (a2 : BitVec 32) (a3 : Sys2Proof.Machine.Inflight → Sys2Proof.Machine.State → List (Nat × Nat)) (a4 : Sys2Proof.Machine.Inflight → Sys2Proof.Machine.State → List Sys2Proof.Machine.Access) (a5 : Sys2Proof.Machine.Inflight → Sys2Proof.Machine.State → Sys2Proof.Machine.State) (s : Sys2Proof.Machine.State)
    (hm : (Nat.land 140739513266226 m == 140739513266226) = true)
    (hb5 : ∀ x0 t, Keeps m s0 t → Keeps m s0 (a5 x0 t)) (h : Keeps m s0 s) :
    Keeps m s0 (runLongAt a0 a1 a2 a3 a4 a5 s) := by
  delta runLongAt
  repeat' first
    | with_reducible assumption
    | ((try lift_lets -underBinder); intro x; clear_value x)
    | with_reducible apply Keeps.app ?_ (keeps_discardCmd ..) ?_
    | with_reducible apply keeps_whenReached
    | with_reducible apply Keeps.app ?_ (keeps_startCmd ..) ?_
    | with_reducible apply hb5
    | exact sub_trans (g := 140739513266226) rfl hm
    | exact .inl (bit_of_sub (g := 140739513266226) rfl hm)
    | (intro _)
    | exact rfl
    | split

end Sys2Proof.Machine
end

