-- ==== Sys2Proof/Laws/KeepsQueue.lean ====
section
/-! SUPPORT. What the operations of Machine/Queue.lean keep. -/

namespace Sys2Proof.Machine

set_option linter.unusedSimpArgs false
set_option linter.unusedVariables false

theorem keeps_eventAbi : ∀ a0 a1 a2 s, Keeps 1353719858 s (eventAbi a0 a1 a2 s) := by
  intro a0 a1 a2 s
  have h := Keeps.refl 1353719858 s
  delta eventAbi
  repeat' first
    | with_reducible assumption
    | ((try lift_lets -underBinder); intro (x : State); refine have hx : Keeps 1353719858 s x := ?_; ?_; rotate_left; clear_value x; rotate_right; dsimp -zeta only [x]; clear x)
    | ((try lift_lets -underBinder); intro x; clear_value x)
    | with_reducible apply Keeps.app ?_ (keeps_eventOn ..) ?_
    | exact rfl

theorem keeps_eventHalted : ∀ a0 a1 s, Keeps 1353719858 s (eventHalted a0 a1 s) := by
  intro a0 a1 s
  have h := Keeps.refl 1353719858 s
  delta eventHalted
  repeat' first
    | with_reducible assumption
    | with_reducible apply Keeps.app ?_ (keeps_eventP ..) ?_
    | exact rfl

theorem keeps_enableBlock : ∀ a0 a1 a2 a3 s, OptKeeps 1353719858 s (enableBlock a0 a1 a2 a3 s) := by
  intro a0 a1 a2 a3 s
  have h := Keeps.refl 1353719858 s
  delta enableBlock
  repeat' first
    | with_reducible assumption
    | with_reducible apply Keeps.ite ?_ ?_
    | with_reducible apply Keeps.app ?_ (keeps_eventD ..) ?_
    | with_reducible apply Keeps.app ?_ (keeps_eventAbi ..) ?_
    | with_reducible apply Keeps.app ?_ (keeps_eventHalted ..) ?_
    | exact OptKeeps.none
    | with_reducible apply OptKeeps.some
    | with_reducible apply OptKeeps.map
    | with_reducible apply OptKeeps.ite
    | ((with_reducible apply OptKeeps.out); assumption)
    | (intro _)
    | exact rfl
    | split

theorem keeps_holdPart : ∀ a0 s, Keeps 144115188075855872 s (holdPart a0 s) := by
  intro a0 s
  have h := Keeps.refl 144115188075855872 s
  delta holdPart
  repeat' first
    | with_reducible assumption
    | ((try lift_lets -underBinder); intro x; clear_value x)
    | with_reducible apply Keeps.ite ?_ ?_
    | exact rfl
    | with_reducible apply keeps_modWmc ?_ ?_ ?_ ?_ ?_ ?_ ?_ ?_ ?_
    | ((with_reducible apply Or.inl); exact rfl)
    | ((with_reducible apply Or.inr); simp only [Part.same, and_self, modWmc])
    | split

theorem keeps_holdIfIdle : ∀ a0 s, Keeps 144115188075855872 s (holdIfIdle a0 s) := by
  intro a0 s
  have h := Keeps.refl 144115188075855872 s
  delta holdIfIdle
  repeat' first
    | with_reducible assumption
    | with_reducible apply Keeps.ite ?_ ?_
    | with_reducible apply Keeps.app ?_ (keeps_holdPart ..) ?_
    | exact rfl
    | split

theorem keeps_startQueue : ∀ a0 s, Keeps 1024 s (startQueue a0 s) := by
  intro a0 s
  have h := Keeps.refl 1024 s
  delta startQueue
  repeat' first
    | with_reducible assumption
    | ((try lift_lets -underBinder); intro x; clear_value x)
    | with_reducible apply Keeps.app ?_ (keeps_modQueue ..) ?_
    | exact rfl

theorem keeps_abortEnvelope : ∀ a0 s a2, Keeps 1353757746 s (abortEnvelope a0 s a2) := by
  intro a0 s a2
  have h := Keeps.refl 1353757746 s
  delta abortEnvelope
  repeat' first
    | with_reducible assumption
    | ((try lift_lets -underBinder); intro (x : State); refine have hx : Keeps 1353757746 s x := ?_; ?_; rotate_left; clear_value x; rotate_right; dsimp -zeta only [x]; clear x)
    | ((try lift_lets -underBinder); intro x; clear_value x)
    | with_reducible apply Keeps.ite ?_ ?_
    | with_reducible apply Keeps.app ?_ (keeps_skipEnvelope ..) ?_
    | with_reducible apply Keeps.app ?_ (keeps_modEnv ..) ?_
    | with_reducible apply Keeps.app ?_ (keeps_leaveQueue ..) ?_
    | with_reducible apply Keeps.app ?_ (keeps_respond ..) ?_
    | exact rfl
    | split

theorem keeps_discardPart : ∀ a0 s, Keeps 32768 s (discardPart a0 s) := by
  intro a0 s
  have h := Keeps.refl 32768 s
  delta discardPart
  repeat' first
    | with_reducible assumption
    | ((try lift_lets -underBinder); intro (x : State); refine have hx : Keeps 32768 s x := ?_; ?_; rotate_left; clear_value x; rotate_right; dsimp -zeta only [x]; clear x)
    | ((try lift_lets -underBinder); intro x; clear_value x)
    | with_reducible apply Keeps.ite ?_ ?_
    | exact rfl
    | with_reducible apply keeps_modTcs ?_ ?_ ?_ ?_ ?_ ?_ ?_
    | ((with_reducible apply Or.inl); exact rfl)
    | ((with_reducible apply Or.inr); simp only [Part.same, and_self, modTcs])
    | split

theorem keeps_abortQueue : ∀ a0 s, Keeps 144115189429613618 s (abortQueue a0 s) := by
  intro a0 s
  have h := Keeps.refl 144115189429613618 s
  delta abortQueue
  repeat' first
    | with_reducible assumption
    | ((try lift_lets -underBinder); intro (x : State); refine have hx : Keeps 144115189429613618 s x := ?_; ?_; rotate_left; clear_value x; rotate_right; dsimp -zeta only [x]; clear x)
    | ((try lift_lets -underBinder); intro (x : State × _); refine have hx : Keeps 144115189429613618 s x.1 := ?_; ?_; rotate_left; clear_value x; rotate_right; dsimp -zeta only [x]; clear x)
    | ((try lift_lets -underBinder); intro x; clear_value x)
    | with_reducible apply Keeps.app ?_ (keeps_discardPart ..) ?_
    | with_reducible apply Keeps.app ?_ (keeps_dropMarker ..) ?_
    | with_reducible apply Keeps.app ?_ (keeps_dropWait ..) ?_
    | with_reducible apply Keeps.app ?_ (keeps_modQueue ..) ?_
    | with_reducible apply Keeps.app ?_ (keeps_holdIfIdle ..) ?_
    | with_reducible apply Keeps.app ?_ (keeps_purgeEnvs ..) ?_
    | with_reducible apply Keeps.app ?_ (keeps_abortEnvelope ..) ?_
    | exact rfl
    | with_reducible apply Keeps.foldl ?_ _ _ ?_
    | with_reducible apply Keeps.foldlFst ?_ _ _ ?_
    | (intro _ _ _)

theorem keeps_completionActions : ∀ a0 a1 a2 s, Keeps 1353721906 s (completionActions a0 a1 a2 s) := by
  intro a0 a1 a2 s
  have h := Keeps.refl 1353721906 s
  delta completionActions
  repeat' first
    | with_reducible assumption
    | ((try lift_lets -underBinder); intro (x : State); refine have hx : Keeps 1353721906 s x := ?_; ?_; rotate_left; clear_value x; rotate_right; dsimp -zeta only [x]; clear x)
    | ((try lift_lets -underBinder); intro x; clear_value x)
    | with_reducible apply Keeps.ite ?_ ?_
    | with_reducible apply Keeps.app ?_ (keeps_setKeeper ..) ?_
    | with_reducible apply Keeps.app ?_ (keeps_eventP ..) ?_
    | with_reducible apply Keeps.app ?_ (keeps_raiseQueue ..) ?_
    | exact rfl
    | split

end Sys2Proof.Machine
end

