-- ==== Sys2Proof/Laws/KeepsMatrix.lean ====
section
/-! SUPPORT. What the operations of Machine/Matrix.lean keep. -/

namespace Sys2Proof.Machine

set_option linter.unusedSimpArgs false
set_option linter.unusedVariables false

theorem keeps_writeC : ∀ a0 a1 a2 a3 a4 s, Keeps 1420820480 s (writeC a0 a1 a2 a3 a4 s) := by
  intro a0 a1 a2 a3 a4 s
  have h := Keeps.refl 1420820480 s
  delta writeC
  repeat' first
    | with_reducible assumption
    | ((try lift_lets -underBinder); intro (x : State); refine have hx : Keeps 1420820480 s x := ?_; ?_; rotate_left; clear_value x; rotate_right; dsimp -zeta only [x]; clear x)
    | ((try lift_lets -underBinder); intro x; clear_value x)
    | with_reducible apply Keeps.ite ?_ ?_
    | with_reducible apply Keeps.app ?_ (keeps_cmdWrites ..) ?_
    | exact rfl
    | split

theorem keeps_countTile : ∀ a0 a1 a2 a3 s, Keeps 549755879424 s (countTile a0 a1 a2 a3 s) := by
  intro a0 a1 a2 a3 s
  have h := Keeps.refl 549755879424 s
  delta countTile
  repeat' first
    | with_reducible assumption
    | ((try lift_lets -underBinder); intro (x : State); refine have hx : Keeps 549755879424 s x := ?_; ?_; rotate_left; clear_value x; rotate_right; dsimp -zeta only [x]; clear x)
    | ((try lift_lets -underBinder); intro x; clear_value x)
    | with_reducible apply Keeps.ite ?_ ?_
    | with_reducible apply Keeps.app ?_ (keeps_modArr ..) ?_
    | exact rfl
    | with_reducible apply keeps_modFap ?_ ?_ ?_
    | ((with_reducible apply Or.inl); exact rfl)
    | ((with_reducible apply Or.inr); simp only [Part.same, and_self, modFap])
    | split
    | (dsimp -zeta only)

theorem keeps_countTiles : ∀ a0 a1 a2 a3 a4 s, Keeps 549755879424 s (countTiles a0 a1 a2 a3 a4 s) := by
  intro a0 a1 a2 a3 a4 s
  have h := Keeps.refl 549755879424 s
  delta countTiles
  repeat' first
    | with_reducible assumption
    | with_reducible apply Keeps.app ?_ (keeps_countTile ..) ?_
    | exact rfl
    | with_reducible apply Keeps.foldl ?_ _ _ ?_
    | with_reducible apply Keeps.foldlFst ?_ _ _ ?_
    | (intro _ _ _)

theorem keeps_undefHidden : ∀ a0 a1 s, Keeps 65537 s (undefHidden a0 a1 s) := by
  intro a0 a1 s
  have h := Keeps.refl 65537 s
  delta undefHidden
  repeat' first
    | with_reducible assumption
    | ((try lift_lets -underBinder); intro x; clear_value x)
    | with_reducible apply Keeps.ite ?_ ?_
    | with_reducible apply Keeps.app ?_ (keeps_bumpFree ..) ?_
    | with_reducible apply Keeps.app ?_ (keeps_modArr ..) ?_
    | exact rfl
    | split

theorem keeps_mxProductRun : ∀ a0 a1 a2 a3 s, Keeps 70920055107635 s (mxProductRun a0 a1 a2 a3 s) := by
  intro a0 a1 a2 a3 s
  have h := Keeps.refl 70920055107635 s
  delta mxProductRun
  repeat' first
    | with_reducible assumption
    | ((try lift_lets -underBinder); intro (x : State); refine have hx : Keeps 70920055107635 s x := ?_; ?_; rotate_left; clear_value x; rotate_right; dsimp -zeta only [x]; clear x)
    | ((try lift_lets -underBinder); intro (x : State × _); refine have hx : Keeps 70920055107635 s x.1 := ?_; ?_; rotate_left; clear_value x; rotate_right; dsimp -zeta only [x]; clear x)
    | ((try lift_lets -underBinder); intro x; clear_value x)
    | with_reducible apply Keeps.ite ?_ ?_
    | with_reducible apply Keeps.app ?_ (keeps_countAcc ..) ?_
    | with_reducible apply Keeps.app ?_ (keeps_countTiles ..) ?_
    | with_reducible apply Keeps.app ?_ (keeps_undefHidden ..) ?_
    | with_reducible apply Keeps.app ?_ (keeps_writeC ..) ?_
    | with_reducible apply Keeps.app ?_ (keeps_markDone ..) ?_
    | with_reducible apply Keeps.app ?_ (keeps_undefAccs ..) ?_
    | with_reducible apply Keeps.app ?_ (keeps_undefTiles ..) ?_
    | with_reducible apply Keeps.app ?_ (keeps_modArr ..) ?_
    | with_reducible apply Keeps.app ?_ (keeps_queueContribution ..) ?_
    | exact rfl
    | with_reducible apply Keeps.foldl ?_ _ _ ?_
    | with_reducible apply Keeps.foldlFst ?_ _ _ ?_
    | (intro _ _ _)
    | split
    | (dsimp -zeta only)

theorem keeps_mxReject : ∀ a0 a1 s, Keeps 1353719858 s (mxReject a0 a1 s) := by
  intro a0 a1 s
  have h := Keeps.refl 1353719858 s
  delta mxReject
  repeat' first
    | with_reducible assumption
    | with_reducible apply Keeps.app ?_ (keeps_eventP ..) ?_
    | exact rfl

theorem keeps_touchSpans : ∀ a0 a1 s, Keeps 1351614464 s (touchSpans a0 a1 s) := by
  intro a0 a1 s
  have h := Keeps.refl 1351614464 s
  delta touchSpans
  repeat' first
    | with_reducible assumption
    | with_reducible apply Keeps.app ?_ (keeps_touchRead ..) ?_
    | exact rfl
    | with_reducible apply Keeps.foldl ?_ _ _ ?_
    | with_reducible apply Keeps.foldlFst ?_ _ _ ?_
    | (intro _ _ _)
    | (dsimp -zeta only)

theorem keeps_eventCmdUnmapped : ∀ a0 a1 a2 a3 a4 s, Keeps 1353719858 s (eventCmdUnmapped a0 a1 a2 a3 a4 s) := by
  intro a0 a1 a2 a3 a4 s
  have h := Keeps.refl 1353719858 s
  delta eventCmdUnmapped
  repeat' first
    | with_reducible assumption
    | ((try lift_lets -underBinder); intro (x : State); refine have hx : Keeps 1353719858 s x := ?_; ?_; rotate_left; clear_value x; rotate_right; dsimp -zeta only [x]; clear x)
    | ((try lift_lets -underBinder); intro x; clear_value x)
    | with_reducible apply Keeps.app ?_ (keeps_eventUnmapped ..) ?_
    | exact rfl
    | split

theorem keeps_mxOperands : ∀ a0 s, Keeps 35185723703296 s (mxOperands a0 s) := by
  intro a0 s
  have h := Keeps.refl 35185723703296 s
  delta mxOperands
  repeat' first
    | with_reducible assumption
    | ((try lift_lets -underBinder); intro (x : State); refine have hx : Keeps 35185723703296 s x := ?_; ?_; rotate_left; clear_value x; rotate_right; dsimp -zeta only [x]; clear x)
    | ((try lift_lets -underBinder); intro x; clear_value x)
    | with_reducible apply Keeps.app ?_ (keeps_touchSpans ..) ?_
    | with_reducible apply Keeps.app ?_ (keeps_clampPart ..) ?_
    | exact rfl
    | (dsimp -zeta only)

theorem keeps_mxRun {m : Nat} {s0 : State} (a0 : List Sys2Proof.ReadError) (a1 : Sys2Proof.Machine.Inflight →   Sys2Proof.Machine.MxCmd → Sys2Proof.Machine.MxDescs → Sys2Proof.Machine.State → Sys2Proof.Machine.State) (a2 : Sys2Proof.Machine.Inflight) (s : Sys2Proof.Machine.State)
    (hm : (Nat.land 36345457771999282 m == 36345457771999282) = true)
    (hb1 : ∀ x0 x1 x2 t, Keeps m s0 t → Keeps m s0 (a1 x0 x1 x2 t)) (h : Keeps m s0 s) :
    Keeps m s0 (mxRun a0 a1 a2 s) := by
  delta mxRun
  repeat' first
    | with_reducible assumption
    | ((try lift_lets -underBinder); intro (x : State); refine have hx : Keeps m s0 x := ?_; ?_; rotate_left; clear_value x; rotate_right; dsimp -zeta only [x]; clear x)
    | ((try lift_lets -underBinder); intro x; clear_value x)
    | with_reducible apply Keeps.ite ?_ ?_
    | with_reducible apply Keeps.app ?_ (keeps_clampPart ..) ?_
    | with_reducible apply Keeps.app ?_ (keeps_eventCmdUnmapped ..) ?_
    | with_reducible apply Keeps.app ?_ (keeps_touchSpans ..) ?_
    | with_reducible apply Keeps.app ?_ (keeps_markDone ..) ?_
    | with_reducible apply Keeps.app ?_ (keeps_mxReject ..) ?_
    | with_reducible apply Keeps.app ?_ (keeps_noteErrors ..) ?_
    | with_reducible apply Keeps.app ?_ (keeps_mxOperands ..) ?_
    | with_reducible apply hb1
    | exact sub_trans (g := 36345457771999282) rfl hm
    | exact .inl (bit_of_sub (g := 36345457771999282) rfl hm)
    | (intro _)
    | exact rfl
    | split
    | (dsimp -zeta only)

theorem keeps_mxRow {m : Nat} {s0 : State} (a0 : Nat) (a1 : Nat) (a2 : BitVec 32) (a3 : List Sys2Proof.ReadError) (a4 : Sys2Proof.Machine.Inflight →   Sys2Proof.Machine.MxCmd → Sys2Proof.Machine.MxDescs → Sys2Proof.Machine.State → Sys2Proof.Machine.State) (s : Sys2Proof.Machine.State)
    (hm : (Nat.land 36486195931508786 m == 36486195931508786) = true)
    (hb4 : ∀ x0 x1 x2 t, Keeps m s0 t → Keeps m s0 (a4 x0 x1 x2 t)) (h : Keeps m s0 s) :
    Keeps m s0 (mxRow a0 a1 a2 a3 a4 s) := by
  delta mxRow
  repeat' first
    | with_reducible assumption
    | with_reducible apply keeps_runLongAt
    | with_reducible apply keeps_mxRun
    | with_reducible apply hb4
    | exact sub_trans (g := 36486195931508786) rfl hm
    | exact .inl (bit_of_sub (g := 36486195931508786) rfl hm)
    | (intro _)
    | exact rfl
    | split

end Sys2Proof.Machine
end

