-- ==== Sys2Proof/Laws/KeepsVector.lean ====
section
/-! SUPPORT. What the operations of Machine/Vector.lean keep. -/

namespace Sys2Proof.Machine

set_option linter.unusedSimpArgs false
set_option linter.unusedVariables false

theorem keeps_vxReject : ∀ a0 a1 s, Keeps 1353719858 s (vxReject a0 a1 s) := by
  intro a0 a1 s
  have h := Keeps.refl 1353719858 s
  delta vxReject
  repeat' first
    | with_reducible assumption
    | with_reducible apply Keeps.app ?_ (keeps_eventP ..) ?_
    | exact rfl

theorem keeps_vxOverflow : ∀ a0 s, Keeps 65536 s (vxOverflow a0 s) := by
  intro a0 s
  have h := Keeps.refl 65536 s
  delta vxOverflow
  repeat' first
    | with_reducible assumption
    | with_reducible apply Keeps.ite ?_ ?_
    | with_reducible apply Keeps.app ?_ (keeps_vflagOverflow ..) ?_
    | with_reducible apply Keeps.app ?_ (keeps_accOverflow ..) ?_
    | exact rfl
    | split

theorem keeps_vxCompute : ∀ a0 a1 a2 s, Keeps 36345457772060722 s (vxCompute a0 a1 a2 s) := by
  intro a0 a1 a2 s
  have h := Keeps.refl 36345457772060722 s
  delta vxCompute
  repeat' first
    | with_reducible assumption
    | ((try lift_lets -underBinder); intro (x : State); refine have hx : Keeps 36345457772060722 s x := ?_; ?_; rotate_left; clear_value x; rotate_right; dsimp -zeta only [x]; clear x)
    | ((try lift_lets -underBinder); intro x; clear_value x)
    | with_reducible apply Keeps.ite ?_ ?_
    | with_reducible apply Keeps.app ?_ (keeps_vxReject ..) ?_
    | with_reducible apply Keeps.app ?_ (keeps_clampPart ..) ?_
    | with_reducible apply Keeps.app ?_ (keeps_modArr ..) ?_
    | with_reducible apply Keeps.app ?_ (keeps_noteErrors ..) ?_
    | with_reducible apply Keeps.app ?_ (keeps_vxOverflow ..) ?_
    | exact rfl
    | split

theorem keeps_vxRow : ∀ a0 a1 a2 a3 a4 a5 s, Keeps 36486195394637874 s (vxRow a0 a1 a2 a3 a4 a5 s) := by
  intro a0 a1 a2 a3 a4 a5 s
  have h := Keeps.refl 36486195394637874 s
  delta vxRow
  repeat' first
    | with_reducible assumption
    | with_reducible apply keeps_runNow
    | with_reducible apply Keeps.app ?_ (keeps_vxCompute ..) ?_
    | (intro _)
    | exact rfl

theorem keeps_vxMemory {m : Nat} {s0 : State} (a0 : Sys2Proof.Machine.Inflight) (a1 : Sys2Proof.Machine.VxCmd → Sys2Proof.Machine.VxClamped → Sys2Proof.Machine.State → Sys2Proof.Machine.State) (s : Sys2Proof.Machine.State)
    (hm : (Nat.land 35185725808690 m == 35185725808690) = true)
    (hb1 : ∀ x0 x1 t, Keeps m s0 t → Keeps m s0 (a1 x0 x1 t)) (h : Keeps m s0 s) :
    Keeps m s0 (vxMemory a0 a1 s) := by
  delta vxMemory
  repeat' first
    | with_reducible assumption
    | ((try lift_lets -underBinder); intro (x : State); refine have hx : Keeps m s0 x := ?_; ?_; rotate_left; clear_value x; rotate_right; dsimp -zeta only [x]; clear x)
    | ((try lift_lets -underBinder); intro x; clear_value x)
    | with_reducible apply Keeps.ite ?_ ?_
    | with_reducible apply Keeps.app ?_ (keeps_clampPart ..) ?_
    | with_reducible apply Keeps.app ?_ (keeps_vxReject ..) ?_
    | with_reducible apply hb1
    | exact sub_trans (g := 35185725808690) rfl hm
    | exact .inl (bit_of_sub (g := 35185725808690) rfl hm)
    | (intro _)
    | exact rfl
    | split

end Sys2Proof.Machine
end

