-- ==== Sys2Proof/Laws/KeepsKeeper.lean ====
section
/-! SUPPORT. What the operations of Machine/Keeper.lean keep. -/

namespace Sys2Proof.Machine

set_option linter.unusedSimpArgs false
set_option linter.unusedVariables false

theorem keeps_eventKeeper : ∀ a0 a1 a2 a3 s, Keeps 1353719858 s (eventKeeper a0 a1 a2 a3 s) := by
  intro a0 a1 a2 a3 s
  have h := Keeps.refl 1353719858 s
  delta eventKeeper
  repeat' first
    | with_reducible assumption
    | with_reducible apply Keeps.app ?_ (keeps_eventP ..) ?_
    | exact rfl

theorem keeps_keeperCmd {m : Nat} {s0 : State} (a0 : Sys2Proof.Machine.Inflight) (a1 : Nat → Sys2Proof.Machine.State → Sys2Proof.Machine.State) (s : Sys2Proof.Machine.State)
    (hm : (Nat.land 1353719858 m == 1353719858) = true)
    (hb1 : ∀ x0 t, Keeps m s0 t → Keeps m s0 (a1 x0 t)) (h : Keeps m s0 s) :
    Keeps m s0 (keeperCmd a0 a1 s) := by
  delta keeperCmd
  repeat' first
    | with_reducible assumption
    | ((try lift_lets -underBinder); intro x; clear_value x)
    | with_reducible apply Keeps.app ?_ (keeps_eventKeeper ..) ?_
    | with_reducible apply hb1
    | exact sub_trans (g := 1353719858) rfl hm
    | exact .inl (bit_of_sub (g := 1353719858) rfl hm)
    | (intro _)
    | exact rfl
    | split

theorem keeps_releaseWait : ∀ a0 s, Keeps 1024 s (releaseWait a0 s) := by
  intro a0 s
  have h := Keeps.refl 1024 s
  delta releaseWait
  repeat' first
    | with_reducible assumption
    | ((try lift_lets -underBinder); intro x; clear_value x)
    | with_reducible apply Keeps.ite ?_ ?_
    | with_reducible apply Keeps.app ?_ (keeps_modQueue ..) ?_
    | exact rfl
    | split

theorem keeps_waitTurn : ∀ a0 s, Keeps 140738976330802 s (waitTurn a0 s) := by
  intro a0 s
  have h := Keeps.refl 140738976330802 s
  delta waitTurn
  repeat' first
    | with_reducible assumption
    | with_reducible apply Keeps.ite ?_ ?_
    | with_reducible apply Keeps.app ?_ (keeps_releaseWait ..) ?_
    | with_reducible apply Keeps.app ?_ (keeps_discardCmd ..) ?_
    | with_reducible apply Keeps.app ?_ (keeps_markDone ..) ?_
    | with_reducible apply Keeps.app ?_ (keeps_eventKeeper ..) ?_
    | with_reducible apply Keeps.app ?_ (keeps_markStarted ..) ?_
    | exact rfl
    | split

theorem keeps_hostKeeperWrite : ∀ a0 a1 a2 s, Keeps 1353721906 s (hostKeeperWrite a0 a1 a2 s) := by
  intro a0 a1 a2 s
  have h := Keeps.refl 1353721906 s
  delta hostKeeperWrite
  repeat' first
    | with_reducible assumption
    | ((try lift_lets -underBinder); intro x; clear_value x)
    | with_reducible apply Keeps.app ?_ (keeps_setKeeper ..) ?_
    | with_reducible apply Keeps.app ?_ (keeps_eventKeeper ..) ?_
    | exact rfl
    | split

theorem keeps_putNorm : ∀ a0 a1 s, Keeps 1125901260554240 s ((putNorm a0 a1 s).1) := by
  intro a0 a1 s
  have h := Keeps.refl 1125901260554240 s
  delta putNorm
  repeat' first
    | with_reducible assumption
    | ((try lift_lets -underBinder); intro (x : State); refine have hx : Keeps 1125901260554240 s x := ?_; ?_; rotate_left; clear_value x; rotate_right; dsimp -zeta only [x]; clear x)
    | ((try lift_lets -underBinder); intro (x : State × _); refine have hx : Keeps 1125901260554240 s x.1 := ?_; ?_; rotate_left; clear_value x; rotate_right; dsimp -zeta only [x]; clear x)
    | ((try lift_lets -underBinder); intro (fn : State → State); refine have hfn : ∀ t, Keeps 1125901260554240 s t → Keeps 1125901260554240 s (fn t) := ?_; ?_; rotate_left; clear_value fn; rotate_right; dsimp -zeta only [fn]; clear fn)
    | ((try lift_lets -underBinder); intro (fn2 : _ → State → State); refine have hfn2 : ∀ a t, Keeps 1125901260554240 s t → Keeps 1125901260554240 s (fn2 a t) := ?_; ?_; rotate_left; clear_value fn2; rotate_right; dsimp -zeta only [fn2]; clear fn2)
    | with_reducible apply hfn
    | with_reducible apply hfn2
    | ((try lift_lets -underBinder); intro x; clear_value x)
    | with_reducible apply Keeps.ite ?_ ?_
    | with_reducible apply Keeps.app ?_ (keeps_memWrite ..) ?_
    | exact rfl
    | with_reducible apply keeps_modCnt ?_ ?_ ?_ ?_ ?_ ?_ ?_ ?_ ?_
    | ((with_reducible apply Or.inl); exact rfl)
    | ((with_reducible apply Or.inr); simp only [Part.same, and_self, modCnt])
    | (intro _)
    | split
    | (dsimp -zeta only)

theorem keeps_writeNorms : ∀ a0 a1 s, Keeps 1125901327671346 s (writeNorms a0 a1 s) := by
  intro a0 a1 s
  have h := Keeps.refl 1125901327671346 s
  delta writeNorms
  repeat' first
    | with_reducible assumption
    | ((try lift_lets -underBinder); intro (x : State); refine have hx : Keeps 1125901327671346 s x := ?_; ?_; rotate_left; clear_value x; rotate_right; dsimp -zeta only [x]; clear x)
    | ((try lift_lets -underBinder); intro (x : State × _); refine have hx : Keeps 1125901327671346 s x.1 := ?_; ?_; rotate_left; clear_value x; rotate_right; dsimp -zeta only [x]; clear x)
    | ((try lift_lets -underBinder); intro x; clear_value x)
    | with_reducible apply Keeps.app ?_ (keeps_putNorm ..) ?_
    | with_reducible apply Keeps.app ?_ (keeps_eventUnmapped ..) ?_
    | ((with_reducible apply Keeps.outPair); assumption)
    | exact rfl
    | with_reducible apply keeps_modGab ?_ ?_ ?_
    | ((with_reducible apply Or.inl); exact rfl)
    | ((with_reducible apply Or.inr); simp only [Part.same, and_self, modGab])
    | with_reducible apply Keeps.foldl ?_ _ _ ?_
    | with_reducible apply Keeps.foldlFst ?_ _ _ ?_
    | (intro _ _ _)
    | split
    | (dsimp -zeta only)

theorem keeps_swapSlots : ∀ a0 s, Keeps 1048576 s (swapSlots a0 s) := by
  intro a0 s
  have h := Keeps.refl 1048576 s
  delta swapSlots
  repeat' first
    | with_reducible assumption
    | ((try lift_lets -underBinder); intro x; clear_value x)
    | with_reducible apply Keeps.ite ?_ ?_
    | exact rfl
    | with_reducible apply keeps_modMem ?_ ?_ ?_ ?_ ?_ ?_ ?_ ?_ ?_
    | ((with_reducible apply Or.inl); exact rfl)
    | ((with_reducible apply Or.inr); simp only [Part.same, and_self, modMem])
    | (intro _; exact rfl)
    | (intro w; exact w)
    | exact fun h => memory_wf_put _ _ h
    | exact fun h => memory_wf_clear _ _ h
    | exact fun h => memory_wf_copy _ _ _ h
    | exact fun h => memory_wf_foldl (fun _ _ k => memory_wf_put _ _ k) _ _ (memory_wf_filter _ h)
    | exact fun h => memory_wf_foldl (fun _ _ k => memory_wf_put _ _ k) _ _ h
    | split
    | (dsimp -zeta only)

theorem keeps_closeFence : ∀ a0 a1 s, Keeps 140737556512768 s (closeFence a0 a1 s) := by
  intro a0 a1 s
  have h := Keeps.refl 140737556512768 s
  delta closeFence
  repeat' first
    | with_reducible assumption
    | ((try lift_lets -underBinder); intro (x : State); refine have hx : Keeps 140737556512768 s x := ?_; ?_; rotate_left; clear_value x; rotate_right; dsimp -zeta only [x]; clear x)
    | ((try lift_lets -underBinder); intro x; clear_value x)
    | with_reducible apply Keeps.ite ?_ ?_
    | with_reducible apply Keeps.app ?_ (keeps_swapSlots ..) ?_
    | exact rfl
    | with_reducible apply keeps_modGab ?_ ?_ ?_
    | with_reducible apply keeps_modCnt ?_ ?_ ?_ ?_ ?_ ?_ ?_ ?_ ?_
    | ((with_reducible apply Or.inl); exact rfl)
    | ((with_reducible apply Or.inr); simp only [Part.same, and_self, modCnt, modGab])
    | split

end Sys2Proof.Machine
end

