-- ==== Sys2Proof/Laws/KeepsAdmission.lean ====
section
/-! SUPPORT. What the operations of Machine/Admission.lean keep. -/

namespace Sys2Proof.Machine

set_option linter.unusedSimpArgs false
set_option linter.unusedVariables false

theorem keeps_enterParts : ∀ a0 s, Keeps 1024 s (enterParts a0 s) := by
  intro a0 s
  have h := Keeps.refl 1024 s
  delta enterParts
  repeat' first
    | with_reducible assumption
    | ((try lift_lets -underBinder); intro x; clear_value x)
    | with_reducible apply Keeps.app ?_ (keeps_modQueue ..) ?_
    | with_reducible apply Keeps.app ?_ (keeps_enterPart ..) ?_
    | exact rfl
    | with_reducible apply Keeps.foldl ?_ _ _ ?_
    | with_reducible apply Keeps.foldlFst ?_ _ _ ?_
    | (intro _ _ _)
    | split
    | (dsimp -zeta only)

theorem keeps_acceptEnvelope : ∀ a0 a1 s, Keeps 1353770034 s (acceptEnvelope a0 a1 s) := by
  intro a0 a1 s
  have h := Keeps.refl 1353770034 s
  delta acceptEnvelope
  repeat' first
    | with_reducible assumption
    | ((try lift_lets -underBinder); intro (x : State); refine have hx : Keeps 1353770034 s x := ?_; ?_; rotate_left; clear_value x; rotate_right; dsimp -zeta only [x]; clear x)
    | ((try lift_lets -underBinder); intro x; clear_value x)
    | with_reducible apply Keeps.app ?_ (keeps_modEnv ..) ?_
    | with_reducible apply Keeps.app ?_ (keeps_enterParts ..) ?_
    | with_reducible apply Keeps.app ?_ (keeps_leaveQueue ..) ?_
    | with_reducible apply Keeps.app ?_ (keeps_numberAnswer ..) ?_
    | with_reducible apply Keeps.app ?_ (keeps_respond ..) ?_
    | with_reducible apply Keeps.app ?_ (keeps_countAdm ..) ?_
    | exact rfl
    | (dsimp -zeta only)

theorem keeps_refuseEnvelope : ∀ a0 a1 s, Keeps 1353774130 s (refuseEnvelope a0 a1 s) := by
  intro a0 a1 s
  have h := Keeps.refl 1353774130 s
  delta refuseEnvelope
  repeat' first
    | with_reducible assumption
    | ((try lift_lets -underBinder); intro (x : State); refine have hx : Keeps 1353774130 s x := ?_; ?_; rotate_left; clear_value x; rotate_right; dsimp -zeta only [x]; clear x)
    | ((try lift_lets -underBinder); intro (x : State × _); refine have hx : Keeps 1353774130 s x.1 := ?_; ?_; rotate_left; clear_value x; rotate_right; dsimp -zeta only [x]; clear x)
    | ((try lift_lets -underBinder); intro x; clear_value x)
    | with_reducible apply Keeps.ite ?_ ?_
    | with_reducible apply Keeps.app ?_ (keeps_numberAnswer ..) ?_
    | with_reducible apply Keeps.app ?_ (keeps_modEnv ..) ?_
    | with_reducible apply Keeps.app ?_ (keeps_leaveQueue ..) ?_
    | with_reducible apply Keeps.app ?_ (keeps_enterParts ..) ?_
    | with_reducible apply Keeps.app ?_ (keeps_skipEnvelope ..) ?_
    | with_reducible apply Keeps.app ?_ (keeps_modQueue ..) ?_
    | with_reducible apply Keeps.app ?_ (keeps_dropMarker ..) ?_
    | with_reducible apply Keeps.app ?_ (keeps_countAdm ..) ?_
    | with_reducible apply Keeps.app ?_ (keeps_purgeEnvs ..) ?_
    | with_reducible apply Keeps.app ?_ (keeps_respond ..) ?_
    | exact rfl
    | with_reducible apply Keeps.foldl ?_ _ _ ?_
    | with_reducible apply Keeps.foldlFst ?_ _ _ ?_
    | (intro _ _ _)
    | split
    | (dsimp -zeta only)

theorem keeps_releaseProtected : ∀ a0 s, Keeps 1048576 s (releaseProtected a0 s) := by
  intro a0 s
  have h := Keeps.refl 1048576 s
  delta releaseProtected
  repeat' first
    | with_reducible assumption
    | ((try lift_lets -underBinder); intro x; clear_value x)
    | with_reducible apply Keeps.ite ?_ ?_
    | exact rfl
    | with_reducible apply keeps_modMem ?_ ?_ ?_ ?_ ?_ ?_ ?_ ?_ ?_
    | ((with_reducible apply Or.inl); exact rfl)
    | ((with_reducible apply Or.inr); simp only [Part.same, and_self, modMem])
    | (intro _; exact rfl)
    | (intro w; exact w)
    | exact fun h => memory_wf_put _ _ h
    | exact fun h => memory_wf_clear _ _ h
    | exact fun h => memory_wf_copy _ _ _ h
    | exact fun h => memory_wf_foldl (fun _ _ k => memory_wf_put _ _ k) _ _ (memory_wf_filter _ h)
    | exact fun h => memory_wf_foldl (fun _ _ k => memory_wf_put _ _ k) _ _ h
    | split
    | (dsimp -zeta only)

end Sys2Proof.Machine
end

