-- ==== Sys2Proof/Laws/KeepsTiers.lean ====
section
/-! SUPPORT. What the operations of Machine/Tiers.lean keep. -/

namespace Sys2Proof.Machine

set_option linter.unusedSimpArgs false
set_option linter.unusedVariables false

theorem keeps_modRegions : ∀ a0 a1 s, Keeps 524288 s (modRegions a0 a1 s) := by
  intro a0 a1 s
  have h := Keeps.refl 524288 s
  delta modRegions
  repeat' first
    | with_reducible assumption
    | ((try lift_lets -underBinder); intro x; clear_value x)
    | exact rfl
    | with_reducible apply keeps_modMem ?_ ?_ ?_ ?_ ?_ ?_ ?_ ?_ ?_
    | ((with_reducible apply Or.inl); exact rfl)
    | ((with_reducible apply Or.inr); simp only [Part.same, and_self, modMem])
    | (intro _; exact rfl)
    | (intro w; exact w)
    | exact fun h => memory_wf_put _ _ h
    | exact fun h => memory_wf_clear _ _ h
    | exact fun h => memory_wf_copy _ _ _ h
    | exact fun h => memory_wf_foldl (fun _ _ k => memory_wf_put _ _ k) _ _ (memory_wf_filter _ h)
    | exact fun h => memory_wf_foldl (fun _ _ k => memory_wf_put _ _ k) _ _ h

theorem keeps_placeZeros : ∀ a0 a1 a2 a3 a4 s, Keeps 1343225856 s (placeZeros a0 a1 a2 a3 a4 s) := by
  intro a0 a1 a2 a3 a4 s
  have h := Keeps.refl 1343225856 s
  delta placeZeros
  repeat' first
    | with_reducible assumption
    | ((try lift_lets -underBinder); intro x; clear_value x)
    | with_reducible apply Keeps.ite ?_ ?_
    | with_reducible apply OptKeeps.app ?_ (keeps_allocateFor ..) ?_
    | with_reducible apply Keeps.app ?_ (keeps_placeCopy ..) ?_
    | exact OptKeeps.none
    | with_reducible apply OptKeeps.some
    | with_reducible apply OptKeeps.map
    | with_reducible apply OptKeeps.ite
    | ((with_reducible apply OptKeeps.out); assumption)
    | (intro _)
    | exact rfl
    | with_reducible apply Keeps.foldl ?_ _ _ ?_
    | with_reducible apply Keeps.foldlFst ?_ _ _ ?_
    | (intro _ _ _)
    | split

theorem keeps_addRegion : ∀ a0 a1 s, Keeps 1343750144 s (addRegion a0 a1 s) := by
  intro a0 a1 s
  have h := Keeps.refl 1343750144 s
  delta addRegion
  repeat' first
    | with_reducible assumption
    | ((try lift_lets -underBinder); intro (x : State); refine have hx : Keeps 1343750144 s x := ?_; ?_; rotate_left; clear_value x; rotate_right; dsimp -zeta only [x]; clear x)
    | ((try lift_lets -underBinder); intro x; clear_value x)
    | with_reducible apply Keeps.app ?_ (keeps_modRegions ..) ?_
    | with_reducible apply Keeps.app ?_ (keeps_shrinkTier ..) ?_
    | with_reducible apply Keeps.app ?_ (keeps_placeZeros ..) ?_
    | exact rfl
    | split

theorem keeps_doMap : ∀ a0 a1 s, Keeps 1343750144 s (doMap a0 a1 s) := by
  intro a0 a1 s
  have h := Keeps.refl 1343750144 s
  delta doMap
  repeat' first
    | with_reducible assumption
    | ((try lift_lets -underBinder); intro (x : State); refine have hx : Keeps 1343750144 s x := ?_; ?_; rotate_left; clear_value x; rotate_right; dsimp -zeta only [x]; clear x)
    | ((try lift_lets -underBinder); intro x; clear_value x)
    | with_reducible apply Keeps.app ?_ (keeps_addRegion ..) ?_
    | exact rfl
    | split

theorem keeps_doUnmap : ∀ a0 a1 s, Keeps 272105472 s (doUnmap a0 a1 s) := by
  intro a0 a1 s
  have h := Keeps.refl 272105472 s
  delta doUnmap
  repeat' first
    | with_reducible assumption
    | ((try lift_lets -underBinder); intro (x : State); refine have hx : Keeps 272105472 s x := ?_; ?_; rotate_left; clear_value x; rotate_right; dsimp -zeta only [x]; clear x)
    | ((try lift_lets -underBinder); intro (x : State × _); refine have hx : Keeps 272105472 s x.1 := ?_; ?_; rotate_left; clear_value x; rotate_right; dsimp -zeta only [x]; clear x)
    | ((try lift_lets -underBinder); intro x; clear_value x)
    | with_reducible apply Keeps.app ?_ (keeps_setVer ..) ?_
    | with_reducible apply Keeps.app ?_ (keeps_zeroBolt ..) ?_
    | with_reducible apply Keeps.app ?_ (keeps_modRegions ..) ?_
    | exact rfl
    | with_reducible apply Keeps.foldl ?_ _ _ ?_
    | with_reducible apply Keeps.foldlFst ?_ _ _ ?_
    | (intro _ _ _)

theorem keeps_doAttr : ∀ a0 a1 s, Keeps 524288 s (doAttr a0 a1 s) := by
  intro a0 a1 s
  have h := Keeps.refl 524288 s
  delta doAttr
  repeat' first
    | with_reducible assumption
    | ((try lift_lets -underBinder); intro (x : State); refine have hx : Keeps 524288 s x := ?_; ?_; rotate_left; clear_value x; rotate_right; dsimp -zeta only [x]; clear x)
    | ((try lift_lets -underBinder); intro x; clear_value x)
    | with_reducible apply Keeps.ite ?_ ?_
    | with_reducible apply Keeps.app ?_ (keeps_modRegions ..) ?_
    | exact rfl
    | split

theorem keeps_setPins : ∀ a0 a1 a2 a3 s, Keeps 524288 s (setPins a0 a1 a2 a3 s) := by
  intro a0 a1 a2 a3 s
  have h := Keeps.refl 524288 s
  delta setPins
  repeat' first
    | with_reducible assumption
    | ((try lift_lets -underBinder); intro (x : State); refine have hx : Keeps 524288 s x := ?_; ?_; rotate_left; clear_value x; rotate_right; dsimp -zeta only [x]; clear x)
    | ((try lift_lets -underBinder); intro (x : State × _); refine have hx : Keeps 524288 s x.1 := ?_; ?_; rotate_left; clear_value x; rotate_right; dsimp -zeta only [x]; clear x)
    | ((try lift_lets -underBinder); intro x; clear_value x)
    | with_reducible apply Keeps.ite ?_ ?_
    | with_reducible apply Keeps.app ?_ (keeps_modRegions ..) ?_
    | exact rfl
    | with_reducible apply Keeps.foldl ?_ _ _ ?_
    | with_reducible apply Keeps.foldlFst ?_ _ _ ?_
    | (intro _ _ _)
    | split
    | (dsimp -zeta only)

theorem keeps_doPin : ∀ a0 a1 s, Keeps 1343750144 s (doPin a0 a1 s) := by
  intro a0 a1 s
  have h := Keeps.refl 1343750144 s
  delta doPin
  repeat' first
    | with_reducible assumption
    | ((try lift_lets -underBinder); intro (x : State); refine have hx : Keeps 1343750144 s x := ?_; ?_; rotate_left; clear_value x; rotate_right; dsimp -zeta only [x]; clear x)
    | ((try lift_lets -underBinder); intro x; clear_value x)
    | with_reducible apply Keeps.app ?_ (keeps_setPins ..) ?_
    | with_reducible apply Keeps.app ?_ (keeps_placeZeros ..) ?_
    | exact rfl
    | split

theorem keeps_moveBolt : ∀ a0 a1 a2 a3 a4 a5 s, Keeps 269484032 s (moveBolt a0 a1 a2 a3 a4 a5 s) := by
  intro a0 a1 a2 a3 a4 a5 s
  have h := Keeps.refl 269484032 s
  delta moveBolt
  repeat' first
    | with_reducible assumption
    | ((try lift_lets -underBinder); intro (x : State); refine have hx : Keeps 269484032 s x := ?_; ?_; rotate_left; clear_value x; rotate_right; dsimp -zeta only [x]; clear x)
    | ((try lift_lets -underBinder); intro x; clear_value x)
    | with_reducible apply Keeps.ite ?_ ?_
    | with_reducible apply Keeps.app ?_ (keeps_ftlRead ..) ?_
    | with_reducible apply Keeps.app ?_ (keeps_setBolt ..) ?_
    | exact rfl
    | split

theorem keeps_protect : ∀ a0 a1 a2 a3 a4 s, Keeps 269484032 s (protect a0 a1 a2 a3 a4 s) := by
  intro a0 a1 a2 a3 a4 s
  have h := Keeps.refl 269484032 s
  delta protect
  repeat' first
    | with_reducible assumption
    | ((try lift_lets -underBinder); intro (x : State); refine have hx : Keeps 269484032 s x := ?_; ?_; rotate_left; clear_value x; rotate_right; dsimp -zeta only [x]; clear x)
    | ((try lift_lets -underBinder); intro x; clear_value x)
    | with_reducible apply Keeps.app ?_ (keeps_setBolt ..) ?_
    | exact rfl
    | split

theorem keeps_transferBolt (f : Inflight) (r : Region) (src dst : Tier) (env : Option Nat) (acc : Moved) (b : Nat) :
    Keeps 1890623538 acc.s (transferBolt f r src dst env acc b).s := by
  have h := Keeps.refl 1890623538 acc.s
  have ho := fun p sl => OptKeeps.app rfl (keeps_allocateFor p sl b r dst acc.s) h
  unfold transferBolt
  extract_lets p sl k
  split
  · exact h
  · split
    · exact h
    · next s1 e =>
      have h1 := ho _ _ s1 e
      extract_lets u s2
      have h2 : Keeps 1890623538 acc.s s2 := Keeps.app rfl (keeps_moveBolt p sl b r src dst s1) h1
      clear_value s2 u
      dsimp only
      refine Keeps.ite (Keeps.app rfl (keeps_beginMigration ..) h1) ?_
      split
      · exact Keeps.app rfl (keeps_protect ..) h2
      · exact h2

theorem keeps_transferBolts (f : Inflight) (r : Region) (src dst : Tier) (env : Option Nat) :
    ∀ (l : List Nat) (acc : Moved), Keeps 1890623538 acc.s (l.foldl (transferBolt f r src dst env) acc).s
  | [], acc => Keeps.refl 1890623538 acc.s
  | b :: l, acc => Keeps.app rfl (keeps_transferBolts f r src dst env l _) (keeps_transferBolt f r src dst env acc b)

theorem keeps_doTransfer (f : Inflight) (x : TxCmd) (s : State) :
    Keeps 1890623538 s (doTransfer f x s) := by
  have h := Keeps.refl 1890623538 s
  unfold doTransfer
  extract_lets p e
  split
  · extract_lets m s1 s2
    have h1 : Keeps 1890623538 s s1 := keeps_transferBolts _ _ _ _ _ _ ⟨s, 0, 0⟩
    clear_value m s1 e
    have h2 : Keeps 1890623538 s s2 := Keeps.ite h1 (Keeps.app rfl (keeps_eventP ..) h1)
    clear_value s2
    split
    · refine Keeps.ite h2 ?_
      with_reducible apply Keeps.app ?_ (keeps_eventP ..) ?_
      · rfl
      · exact Keeps.app rfl (keeps_modEnv ..) h2
    · exact h2
  · exact h

theorem keeps_txRefuse : ∀ a0 a1 s, Keeps 1353719858 s (txRefuse a0 a1 s) := by
  intro a0 a1 s
  have h := Keeps.refl 1353719858 s
  delta txRefuse
  repeat' first
    | with_reducible assumption
    | with_reducible apply Keeps.app ?_ (keeps_eventP ..) ?_
    | exact rfl

theorem keeps_txRow {m : Nat} {s0 : State} (a0 : Nat) (a1 : Nat) (a2 : BitVec 32) (a3 : Sys2Proof.Machine.Inflight → Sys2Proof.Machine.TxCmd → Sys2Proof.Machine.State → Sys2Proof.Machine.State) (s : Sys2Proof.Machine.State)
    (hm : (Nat.land 140739513266226 m == 140739513266226) = true)
    (hb3 : ∀ x0 x1 t, Keeps m s0 t → Keeps m s0 (a3 x0 x1 t)) (h : Keeps m s0 s) :
    Keeps m s0 (txRow a0 a1 a2 a3 s) := by
  delta txRow
  repeat' first
    | with_reducible assumption
    | ((try lift_lets -underBinder); intro (x : State); refine have hx : Keeps m s0 x := ?_; ?_; rotate_left; clear_value x; rotate_right; dsimp -zeta only [x]; clear x)
    | ((try lift_lets -underBinder); intro x; clear_value x)
    | with_reducible apply Keeps.ite ?_ ?_
    | with_reducible apply keeps_runNow
    | with_reducible apply Keeps.app ?_ (keeps_txRefuse ..) ?_
    | with_reducible apply keeps_whenFree
    | with_reducible apply hb3
    | exact sub_trans (g := 140739513266226) rfl hm
    | exact .inl (bit_of_sub (g := 140739513266226) rfl hm)
    | (intro _)
    | exact rfl
    | split

theorem keeps_transferRow : ∀ a0 a1 a2 a3 s, Keeps 36451011626528818 s (transferRow a0 a1 a2 a3 s) := by
  intro a0 a1 a2 a3 s
  have h := Keeps.refl 36451011626528818 s
  delta transferRow
  repeat' first
    | with_reducible assumption
    | ((try lift_lets -underBinder); intro (x : State); refine have hx : Keeps 36451011626528818 s x := ?_; ?_; rotate_left; clear_value x; rotate_right; dsimp -zeta only [x]; clear x)
    | ((try lift_lets -underBinder); intro x; clear_value x)
    | with_reducible apply Keeps.ite ?_ ?_
    | with_reducible apply keeps_runNow
    | with_reducible apply Keeps.app ?_ (keeps_txRefuse ..) ?_
    | with_reducible apply keeps_whenFree
    | with_reducible apply keeps_runLong
    | with_reducible apply keeps_meetErrors
    | with_reducible apply Keeps.app ?_ (keeps_doTransfer ..) ?_
    | with_reducible apply Keeps.app ?_ (keeps_markDone ..) ?_
    | (intro _)
    | exact rfl
    | split

theorem keeps_unmapExact : ∀ a0 a1 s, Keeps 272105472 s (unmapExact a0 a1 s) := by
  intro a0 a1 s
  have h := Keeps.refl 272105472 s
  delta unmapExact
  repeat' first
    | with_reducible assumption
    | ((try lift_lets -underBinder); intro x; clear_value x)
    | with_reducible apply Keeps.app ?_ (keeps_doUnmap ..) ?_
    | exact rfl
    | split

theorem keeps_mailboxDone : ∀ a0 a1 s, Keeps 4194304 s (mailboxDone a0 a1 s) := by
  intro a0 a1 s
  have h := Keeps.refl 4194304 s
  delta mailboxDone
  repeat' first
    | with_reducible assumption
    | ((try lift_lets -underBinder); intro x; clear_value x)
    | exact rfl
    | with_reducible apply keeps_modMem ?_ ?_ ?_ ?_ ?_ ?_ ?_ ?_ ?_
    | ((with_reducible apply Or.inl); exact rfl)
    | ((with_reducible apply Or.inr); simp only [Part.same, and_self, modMem])
    | (intro _; exact rfl)
    | (intro w; exact w)
    | exact fun h => memory_wf_put _ _ h
    | exact fun h => memory_wf_clear _ _ h
    | exact fun h => memory_wf_copy _ _ _ h
    | exact fun h => memory_wf_foldl (fun _ _ k => memory_wf_put _ _ k) _ _ (memory_wf_filter _ h)
    | exact fun h => memory_wf_foldl (fun _ _ k => memory_wf_put _ _ k) _ _ h

theorem keeps_mailboxCmd : ∀ a0 a1 s, Keeps 1345847296 s (mailboxCmd a0 a1 s) := by
  intro a0 a1 s
  have h := Keeps.refl 1345847296 s
  delta mailboxCmd
  repeat' first
    | with_reducible assumption
    | ((try lift_lets -underBinder); intro x; clear_value x)
    | with_reducible apply Keeps.app ?_ (keeps_doPin ..) ?_
    | with_reducible apply Keeps.app ?_ (keeps_setPins ..) ?_
    | with_reducible apply Keeps.app ?_ (keeps_doAttr ..) ?_
    | with_reducible apply Keeps.app ?_ (keeps_doMap ..) ?_
    | with_reducible apply Keeps.app ?_ (keeps_unmapExact ..) ?_
    | exact rfl
    | split

theorem keeps_runMailbox : ∀ a0 a1 s, Keeps 1886912512 s (runMailbox a0 a1 s) := by
  intro a0 a1 s
  have h := Keeps.refl 1886912512 s
  delta runMailbox
  repeat' first
    | with_reducible assumption
    | ((try lift_lets -underBinder); intro (x : State); refine have hx : Keeps 1886912512 s x := ?_; ?_; rotate_left; clear_value x; rotate_right; dsimp -zeta only [x]; clear x)
    | ((try lift_lets -underBinder); intro (fn : State → State); refine have hfn : ∀ t, Keeps 1886912512 s t → Keeps 1886912512 s (fn t) := ?_; ?_; rotate_left; clear_value fn; rotate_right; dsimp -zeta only [fn]; clear fn)
    | ((try lift_lets -underBinder); intro (fn2 : _ → State → State); refine have hfn2 : ∀ a t, Keeps 1886912512 s t → Keeps 1886912512 s (fn2 a t) := ?_; ?_; rotate_left; clear_value fn2; rotate_right; dsimp -zeta only [fn2]; clear fn2)
    | with_reducible apply hfn
    | with_reducible apply hfn2
    | ((try lift_lets -underBinder); intro x; clear_value x)
    | with_reducible apply Keeps.ite ?_ ?_
    | with_reducible apply Keeps.app ?_ (keeps_mailboxDone ..) ?_
    | with_reducible apply Keeps.app ?_ (keeps_mailboxCmd ..) ?_
    | with_reducible apply Keeps.app ?_ (keeps_beginHomes ..) ?_
    | exact rfl
    | with_reducible apply keeps_modMem ?_ ?_ ?_ ?_ ?_ ?_ ?_ ?_ ?_
    | ((with_reducible apply Or.inl); exact rfl)
    | ((with_reducible apply Or.inr); simp only [Part.same, and_self, modMem])
    | (intro _; exact rfl)
    | (intro w; exact w)
    | exact fun h => memory_wf_put _ _ h
    | exact fun h => memory_wf_clear _ _ h
    | exact fun h => memory_wf_copy _ _ _ h
    | exact fun h => memory_wf_foldl (fun _ _ k => memory_wf_put _ _ k) _ _ (memory_wf_filter _ h)
    | exact fun h => memory_wf_foldl (fun _ _ k => memory_wf_put _ _ k) _ _ h
    | (intro _)
    | split

theorem keeps_pumpMailbox : ∀ a0 s, Keeps 1886912512 s (pumpMailbox a0 s) := by
  intro a0 s
  have h := Keeps.refl 1886912512 s
  delta pumpMailbox
  repeat' first
    | with_reducible assumption
    | ((try lift_lets -underBinder); intro x; clear_value x)
    | with_reducible apply Keeps.app ?_ (keeps_runMailbox ..) ?_
    | exact rfl
    | split

theorem keeps_finishMigration : ∀ a0 a1 a2 s, Keeps 271585280 s (finishMigration a0 a1 a2 s) := by
  intro a0 a1 a2 s
  have h := Keeps.refl 271585280 s
  delta finishMigration
  repeat' first
    | with_reducible assumption
    | ((try lift_lets -underBinder); intro (x : State); refine have hx : Keeps 271585280 s x := ?_; ?_; rotate_left; clear_value x; rotate_right; dsimp -zeta only [x]; clear x)
    | ((try lift_lets -underBinder); intro (x : State × _); refine have hx : Keeps 271585280 s x.1 := ?_; ?_; rotate_left; clear_value x; rotate_right; dsimp -zeta only [x]; clear x)
    | ((try lift_lets -underBinder); intro (fn : State → State); refine have hfn : ∀ t, Keeps 271585280 s t → Keeps 271585280 s (fn t) := ?_; ?_; rotate_left; clear_value fn; rotate_right; dsimp -zeta only [fn]; clear fn)
    | ((try lift_lets -underBinder); intro (fn2 : _ → State → State); refine have hfn2 : ∀ a t, Keeps 271585280 s t → Keeps 271585280 s (fn2 a t) := ?_; ?_; rotate_left; clear_value fn2; rotate_right; dsimp -zeta only [fn2]; clear fn2)
    | with_reducible apply hfn
    | with_reducible apply hfn2
    | ((try lift_lets -underBinder); intro x; clear_value x)
    | with_reducible apply Keeps.ite ?_ ?_
    | with_reducible apply Keeps.app ?_ (keeps_markDone ..) ?_
    | with_reducible apply Keeps.app ?_ (keeps_switchCopy ..) ?_
    | with_reducible apply Keeps.app ?_ (keeps_protect ..) ?_
    | with_reducible apply Keeps.app ?_ (keeps_setBolt ..) ?_
    | exact rfl
    | with_reducible apply keeps_modMemBytes ?_ ?_ ?_ ?_ ?_ ?_ ?_ ?_ ?_
    | ((with_reducible apply Or.inl); exact rfl)
    | ((with_reducible apply Or.inr); simp only [Part.same, and_self, modMem])
    | (intro _; exact rfl)
    | (intro w; exact w)
    | exact fun h => memory_wf_put _ _ h
    | exact fun h => memory_wf_clear _ _ h
    | exact fun h => memory_wf_copy _ _ _ h
    | exact fun h => memory_wf_foldl (fun _ _ k => memory_wf_put _ _ k) _ _ (memory_wf_filter _ h)
    | exact fun h => memory_wf_foldl (fun _ _ k => memory_wf_put _ _ k) _ _ h
    | with_reducible apply Keeps.foldl ?_ _ _ ?_
    | with_reducible apply Keeps.foldlFst ?_ _ _ ?_
    | (intro _ _ _)
    | (intro _)
    | split
    | (dsimp -zeta only)

end Sys2Proof.Machine
end

