-- ==== Sys2Proof/Laws/KeepsGabRows.lean ====
section
/-! SUPPORT. What the operations of Machine/GabRows.lean keep. -/

namespace Sys2Proof.Machine

set_option linter.unusedSimpArgs false
set_option linter.unusedVariables false

theorem keeps_doBind : ∀ a0 s, Keeps 1420828723 s (doBind a0 s) := by
  intro a0 s
  have h := Keeps.refl 1420828723 s
  delta doBind
  repeat' first
    | with_reducible assumption
    | ((try lift_lets -underBinder); intro (x : State); refine have hx : Keeps 1420828723 s x := ?_; ?_; rotate_left; clear_value x; rotate_right; dsimp -zeta only [x]; clear x)
    | ((try lift_lets -underBinder); intro (x : State × _); refine have hx : Keeps 1420828723 s x.1 := ?_; ?_; rotate_left; clear_value x; rotate_right; dsimp -zeta only [x]; clear x)
    | ((try lift_lets -underBinder); intro x; clear_value x)
    | with_reducible apply Keeps.ite ?_ ?_
    | with_reducible apply Keeps.app ?_ (keeps_touchRead ..) ?_
    | with_reducible apply Keeps.app ?_ (keeps_zeroEntry ..) ?_
    | with_reducible apply Keeps.app ?_ (keeps_eventBatch ..) ?_
    | exact rfl
    | with_reducible apply keeps_modMem ?_ ?_ ?_ ?_ ?_ ?_ ?_ ?_ ?_
    | with_reducible apply keeps_modGab ?_ ?_ ?_
    | ((with_reducible apply Or.inl); exact rfl)
    | ((with_reducible apply Or.inr); simp only [Part.same, and_self, modGab, modMem])
    | (intro _; exact rfl)
    | (intro w; exact w)
    | exact fun h => memory_wf_put _ _ h
    | exact fun h => memory_wf_clear _ _ h
    | exact fun h => memory_wf_copy _ _ _ h
    | exact fun h => memory_wf_foldl (fun _ _ k => memory_wf_put _ _ k) _ _ (memory_wf_filter _ h)
    | exact fun h => memory_wf_foldl (fun _ _ k => memory_wf_put _ _ k) _ _ h
    | with_reducible apply Keeps.foldl ?_ _ _ ?_
    | with_reducible apply Keeps.foldlFst ?_ _ _ ?_
    | (intro _ _ _)
    | split
    | (dsimp -zeta only)

theorem keeps_doZero : ∀ a0 s, Keeps 1420828723 s (doZero a0 s) := by
  intro a0 s
  have h := Keeps.refl 1420828723 s
  delta doZero
  repeat' first
    | with_reducible assumption
    | ((try lift_lets -underBinder); intro (x : State); refine have hx : Keeps 1420828723 s x := ?_; ?_; rotate_left; clear_value x; rotate_right; dsimp -zeta only [x]; clear x)
    | ((try lift_lets -underBinder); intro (x : State × _); refine have hx : Keeps 1420828723 s x.1 := ?_; ?_; rotate_left; clear_value x; rotate_right; dsimp -zeta only [x]; clear x)
    | ((try lift_lets -underBinder); intro x; clear_value x)
    | with_reducible apply Keeps.ite ?_ ?_
    | with_reducible apply Keeps.app ?_ (keeps_zeroEntry ..) ?_
    | with_reducible apply Keeps.app ?_ (keeps_eventGabRef ..) ?_
    | exact rfl
    | with_reducible apply Keeps.foldl ?_ _ _ ?_
    | with_reducible apply Keeps.foldlFst ?_ _ _ ?_
    | (intro _ _ _)
    | split

theorem keeps_flushEntry : ∀ a0 a1 a2 a3 a4 a5 s, Keeps 1420828722 s (flushEntry a0 a1 a2 a3 a4 a5 s) := by
  intro a0 a1 a2 a3 a4 a5 s
  have h := Keeps.refl 1420828722 s
  delta flushEntry
  repeat' first
    | with_reducible assumption
    | ((try lift_lets -underBinder); intro (x : State); refine have hx : Keeps 1420828722 s x := ?_; ?_; rotate_left; clear_value x; rotate_right; dsimp -zeta only [x]; clear x)
    | ((try lift_lets -underBinder); intro (x : State × _); refine have hx : Keeps 1420828722 s x.1 := ?_; ?_; rotate_left; clear_value x; rotate_right; dsimp -zeta only [x]; clear x)
    | ((try lift_lets -underBinder); intro x; clear_value x)
    | with_reducible apply Keeps.ite ?_ ?_
    | with_reducible apply Keeps.app ?_ (keeps_cmdWrites ..) ?_
    | with_reducible apply Keeps.app ?_ (keeps_modEntry ..) ?_
    | with_reducible apply Keeps.app ?_ (keeps_eventUnmapped ..) ?_
    | exact rfl
    | with_reducible apply Keeps.foldl ?_ _ _ ?_
    | with_reducible apply Keeps.foldlFst ?_ _ _ ?_
    | (intro _ _ _)
    | split

theorem keeps_endFlush : ∀ a0 s, Keeps 134221824 s (endFlush a0 s) := by
  intro a0 s
  have h := Keeps.refl 134221824 s
  delta endFlush
  repeat' first
    | with_reducible assumption
    | ((try lift_lets -underBinder); intro x; clear_value x)
    | with_reducible apply Keeps.app ?_ (keeps_markDone ..) ?_
    | exact rfl
    | with_reducible apply keeps_modGab ?_ ?_ ?_
    | ((with_reducible apply Or.inl); exact rfl)
    | ((with_reducible apply Or.inr); simp only [Part.same, and_self, modGab])

theorem keeps_flushZero : ∀ a0 s, Keeps 472911873 s (flushZero a0 s) := by
  intro a0 s
  have h := Keeps.refl 472911873 s
  delta flushZero
  repeat' first
    | with_reducible assumption
    | ((try lift_lets -underBinder); intro (x : State); refine have hx : Keeps 472911873 s x := ?_; ?_; rotate_left; clear_value x; rotate_right; dsimp -zeta only [x]; clear x)
    | ((try lift_lets -underBinder); intro x; clear_value x)
    | with_reducible apply Keeps.ite ?_ ?_
    | with_reducible apply Keeps.app ?_ (keeps_endFlush ..) ?_
    | with_reducible apply Keeps.app ?_ (keeps_zeroEntry ..) ?_
    | exact rfl
    | split

theorem keeps_flushWritten : ∀ a0 s, Keeps 134217728 s (flushWritten a0 s) := by
  intro a0 s
  have h := Keeps.refl 134217728 s
  delta flushWritten
  repeat' first
    | with_reducible assumption
    | ((try lift_lets -underBinder); intro x; clear_value x)
    | with_reducible apply Keeps.ite ?_ ?_
    | exact rfl
    | with_reducible apply keeps_modGab ?_ ?_ ?_
    | ((with_reducible apply Or.inl); exact rfl)
    | ((with_reducible apply Or.inr); simp only [Part.same, and_self, modGab])
    | split

theorem keeps_eventUnmet : ∀ a0 a1 a2 a3 s, Keeps 1353719858 s (eventUnmet a0 a1 a2 a3 s) := by
  intro a0 a1 a2 a3 s
  have h := Keeps.refl 1353719858 s
  delta eventUnmet
  repeat' first
    | with_reducible assumption
    | ((try lift_lets -underBinder); intro x; clear_value x)
    | with_reducible apply Keeps.app ?_ (keeps_eventP ..) ?_
    | exact rfl
    | split

theorem keeps_flushNow : ∀ a0 a1 a2 a3 a4 a5 s, Keeps 36310274138107955 s (flushNow a0 a1 a2 a3 a4 a5 s) := by
  intro a0 a1 a2 a3 a4 a5 s
  have h := Keeps.refl 36310274138107955 s
  delta flushNow
  repeat' first
    | with_reducible assumption
    | ((try lift_lets -underBinder); intro (x : State); refine have hx : Keeps 36310274138107955 s x := ?_; ?_; rotate_left; clear_value x; rotate_right; dsimp -zeta only [x]; clear x)
    | ((try lift_lets -underBinder); intro x; clear_value x)
    | with_reducible apply keeps_whenReached
    | with_reducible apply Keeps.app ?_ (keeps_flushZero ..) ?_
    | with_reducible apply Keeps.app ?_ (keeps_flushWritten ..) ?_
    | with_reducible apply keeps_meetErrors
    | with_reducible apply Keeps.app ?_ (keeps_flushEntry ..) ?_
    | with_reducible apply Keeps.app ?_ (keeps_eventUnmet ..) ?_
    | (intro _)
    | exact rfl

theorem keeps_flushTurn : ∀ a0 a1 a2 s, Keeps 36310274138107955 s (flushTurn a0 a1 a2 s) := by
  intro a0 a1 a2 s
  have h := Keeps.refl 36310274138107955 s
  delta flushTurn
  repeat' first
    | with_reducible assumption
    | ((try lift_lets -underBinder); intro (x : State); refine have hx : Keeps 36310274138107955 s x := ?_; ?_; rotate_left; clear_value x; rotate_right; dsimp -zeta only [x]; clear x)
    | ((try lift_lets -underBinder); intro x; clear_value x)
    | with_reducible apply Keeps.ite ?_ ?_
    | with_reducible apply Keeps.app ?_ (keeps_flushNow ..) ?_
    | with_reducible apply Keeps.app ?_ (keeps_flushZero ..) ?_
    | with_reducible apply Keeps.app ?_ (keeps_endFlush ..) ?_
    | exact rfl
    | split

theorem keeps_flushStart : ∀ a0 a1 s, Keeps 36345458510196787 s (flushStart a0 a1 s) := by
  intro a0 a1 s
  have h := Keeps.refl 36345458510196787 s
  delta flushStart
  repeat' first
    | with_reducible assumption
    | ((try lift_lets -underBinder); intro (x : State); refine have hx : Keeps 36345458510196787 s x := ?_; ?_; rotate_left; clear_value x; rotate_right; dsimp -zeta only [x]; clear x)
    | ((try lift_lets -underBinder); intro (x : State × _); refine have hx : Keeps 36345458510196787 s x.1 := ?_; ?_; rotate_left; clear_value x; rotate_right; dsimp -zeta only [x]; clear x)
    | ((try lift_lets -underBinder); intro x; clear_value x)
    | with_reducible apply Keeps.ite ?_ ?_
    | with_reducible apply Keeps.app ?_ (keeps_clampPart ..) ?_
    | with_reducible apply Keeps.app ?_ (keeps_touchRead ..) ?_
    | with_reducible apply Keeps.app ?_ (keeps_eventUnmapped ..) ?_
    | with_reducible apply Keeps.app ?_ (keeps_flushTurn ..) ?_
    | with_reducible apply Keeps.app ?_ (keeps_markDone ..) ?_
    | with_reducible apply Keeps.app ?_ (keeps_eventGabRef ..) ?_
    | exact rfl
    | with_reducible apply keeps_modGab ?_ ?_ ?_
    | ((with_reducible apply Or.inl); exact rfl)
    | ((with_reducible apply Or.inr); simp only [Part.same, and_self, modGab])
    | with_reducible apply Keeps.foldl ?_ _ _ ?_
    | with_reducible apply Keeps.foldlFst ?_ _ _ ?_
    | (intro _ _ _)
    | split
    | (dsimp -zeta only)

end Sys2Proof.Machine
end

