-- ==== Sys2Proof/Laws/KeepsFlash.lean ====
section
/-! SUPPORT. What the operations of Machine/Flash.lean keep. -/

namespace Sys2Proof.Machine

set_option linter.unusedSimpArgs false
set_option linter.unusedVariables false

theorem keeps_modCommit : ∀ a0 a1 s, Keeps 536870912 s (modCommit a0 a1 s) := by
  intro a0 a1 s
  have h := Keeps.refl 536870912 s
  delta modCommit
  repeat' first
    | with_reducible assumption
    | ((try lift_lets -underBinder); intro x; clear_value x)
    | with_reducible apply Keeps.ite ?_ ?_
    | exact rfl
    | with_reducible apply keeps_modNvt ?_ ?_ ?_ ?_ ?_
    | ((with_reducible apply Or.inl); exact rfl)
    | ((with_reducible apply Or.inr); simp only [Part.same, and_self, modNvt])
    | split

theorem keeps_dropCommit : ∀ a0 s, Keeps 536870912 s (dropCommit a0 s) := by
  intro a0 s
  have h := Keeps.refl 536870912 s
  delta dropCommit
  repeat' first
    | with_reducible assumption
    | ((try lift_lets -underBinder); intro x; clear_value x)
    | exact rfl
    | with_reducible apply keeps_modNvt ?_ ?_ ?_ ?_ ?_
    | ((with_reducible apply Or.inl); exact rfl)
    | ((with_reducible apply Or.inr); simp only [Part.same, and_self, modNvt])

theorem keeps_journal : ∀ a0 s, Keeps 1073741824 s (journal a0 s) := by
  intro a0 s
  have h := Keeps.refl 1073741824 s
  delta journal
  repeat' first
    | with_reducible assumption
    | ((try lift_lets -underBinder); intro x; clear_value x)
    | exact rfl
    | with_reducible apply keeps_modNvt ?_ ?_ ?_ ?_ ?_
    | ((with_reducible apply Or.inl); exact rfl)
    | ((with_reducible apply Or.inr); simp only [Part.same, and_self, modNvt])

theorem keeps_flashWork : ∀ a0 s, Keeps 536870912 s (flashWork a0 s) := by
  intro a0 s
  have h := Keeps.refl 536870912 s
  delta flashWork
  repeat' first
    | with_reducible assumption
    | ((try lift_lets -underBinder); intro x; clear_value x)
    | exact rfl
    | with_reducible apply keeps_modNvt ?_ ?_ ?_ ?_ ?_
    | ((with_reducible apply Or.inl); exact rfl)
    | ((with_reducible apply Or.inr); simp only [Part.same, and_self, modNvt])

theorem keeps_freeImage : ∀ a0 a1 s, Keeps 268435456 s (freeImage a0 a1 s) := by
  intro a0 a1 s
  have h := Keeps.refl 268435456 s
  delta freeImage
  repeat' first
    | with_reducible assumption
    | with_reducible apply Keeps.app ?_ (keeps_ftlFree ..) ?_
    | exact rfl

theorem keeps_beginDurable : ∀ a0 s, Keeps 805306368 s (beginDurable a0 s) := by
  intro a0 s
  have h := Keeps.refl 805306368 s
  delta beginDurable
  repeat' first
    | with_reducible assumption
    | ((try lift_lets -underBinder); intro (x : State); refine have hx : Keeps 805306368 s x := ?_; ?_; rotate_left; clear_value x; rotate_right; dsimp -zeta only [x]; clear x)
    | ((try lift_lets -underBinder); intro x; clear_value x)
    | with_reducible apply Keeps.app ?_ (keeps_flashWork ..) ?_
    | with_reducible apply Keeps.app ?_ (keeps_modCommit ..) ?_
    | exact rfl
    | with_reducible apply keeps_modNvt ?_ ?_ ?_ ?_ ?_
    | ((with_reducible apply Or.inl); exact rfl)
    | ((with_reducible apply Or.inr); simp only [Part.same, and_self, modNvt])
    | split

theorem keeps_commitRead : ∀ a0 a1 a2 s, Keeps 337641472 s (commitRead a0 a1 a2 s) := by
  intro a0 a1 a2 s
  have h := Keeps.refl 337641472 s
  delta commitRead
  repeat' first
    | with_reducible assumption
    | ((try lift_lets -underBinder); intro (x : State); refine have hx : Keeps 337641472 s x := ?_; ?_; rotate_left; clear_value x; rotate_right; dsimp -zeta only [x]; clear x)
    | ((try lift_lets -underBinder); intro (x : State × _); refine have hx : Keeps 337641472 s x.1 := ?_; ?_; rotate_left; clear_value x; rotate_right; dsimp -zeta only [x]; clear x)
    | ((try lift_lets -underBinder); intro x; clear_value x)
    | with_reducible apply Keeps.ite ?_ ?_
    | with_reducible apply Keeps.app ?_ (keeps_ftlRead ..) ?_
    | with_reducible apply Keeps.app ?_ (keeps_keepStored ..) ?_
    | exact rfl
    | with_reducible apply Keeps.foldl ?_ _ _ ?_
    | with_reducible apply Keeps.foldlFst ?_ _ _ ?_
    | (intro _ _ _)
    | split

theorem keeps_commitCopied : ∀ a0 s, Keeps 1886912512 s (commitCopied a0 s) := by
  intro a0 s
  have h := Keeps.refl 1886912512 s
  delta commitCopied
  repeat' first
    | with_reducible assumption
    | ((try lift_lets -underBinder); intro x; clear_value x)
    | with_reducible apply Keeps.app ?_ (keeps_pumpMailbox ..) ?_
    | with_reducible apply Keeps.app ?_ (keeps_journal ..) ?_
    | with_reducible apply Keeps.app ?_ (keeps_modCommit ..) ?_
    | exact rfl

theorem keeps_commitStep : ∀ a0 a1 s, Keeps 36310274008604722 s (commitStep a0 a1 s) := by
  intro a0 a1 s
  have h := Keeps.refl 36310274008604722 s
  delta commitStep
  repeat' first
    | with_reducible assumption
    | ((try lift_lets -underBinder); intro (x : State); refine have hx : Keeps 36310274008604722 s x := ?_; ?_; rotate_left; clear_value x; rotate_right; dsimp -zeta only [x]; clear x)
    | ((try lift_lets -underBinder); intro x; clear_value x)
    | with_reducible apply Keeps.ite ?_ ?_
    | with_reducible apply Keeps.app ?_ (keeps_commitCopied ..) ?_
    | with_reducible apply Keeps.app ?_ (keeps_commitRead ..) ?_
    | with_reducible apply Keeps.app ?_ (keeps_ftlPlace ..) ?_
    | with_reducible apply Keeps.app ?_ (keeps_modCommit ..) ?_
    | with_reducible apply Keeps.app ?_ (keeps_noteErrors ..) ?_
    | with_reducible apply Keeps.app ?_ (keeps_flashWork ..) ?_
    | exact rfl
    | split

theorem keeps_commitDurable : ∀ a0 s, Keeps 1879048192 s (commitDurable a0 s) := by
  intro a0 s
  have h := Keeps.refl 1879048192 s
  delta commitDurable
  repeat' first
    | with_reducible assumption
    | ((try lift_lets -underBinder); intro (x : State); refine have hx : Keeps 1879048192 s x := ?_; ?_; rotate_left; clear_value x; rotate_right; dsimp -zeta only [x]; clear x)
    | ((try lift_lets -underBinder); intro x; clear_value x)
    | with_reducible apply Keeps.ite ?_ ?_
    | with_reducible apply Keeps.app ?_ (keeps_freeImage ..) ?_
    | with_reducible apply Keeps.app ?_ (keeps_journal ..) ?_
    | with_reducible apply Keeps.app ?_ (keeps_modCommit ..) ?_
    | exact rfl
    | with_reducible apply keeps_modNvt ?_ ?_ ?_ ?_ ?_
    | ((with_reducible apply Or.inl); exact rfl)
    | ((with_reducible apply Or.inr); simp only [Part.same, and_self, modNvt])
    | split
    | (dsimp -zeta only)

theorem keeps_addCopy : ∀ a0 a1 a2 a3 s a5, Keeps 1343225856 s (addCopy a0 a1 a2 a3 s a5) := by
  intro a0 a1 a2 a3 s a5
  have h := Keeps.refl 1343225856 s
  delta addCopy
  repeat' first
    | with_reducible assumption
    | ((try lift_lets -underBinder); intro x; clear_value x)
    | with_reducible apply Keeps.ite ?_ ?_
    | with_reducible apply OptKeeps.app ?_ (keeps_allocate ..) ?_
    | with_reducible apply Keeps.app ?_ (keeps_setBolt ..) ?_
    | exact OptKeeps.none
    | with_reducible apply OptKeeps.some
    | with_reducible apply OptKeeps.map
    | with_reducible apply OptKeeps.ite
    | ((with_reducible apply OptKeeps.out); assumption)
    | (intro _)
    | exact rfl
    | split

theorem keeps_restoreBolt : ∀ a0 a1 a2 a3 s, Keeps 1412431872 s (restoreBolt a0 a1 a2 a3 s) := by
  intro a0 a1 a2 a3 s
  have h := Keeps.refl 1412431872 s
  delta restoreBolt
  repeat' first
    | with_reducible assumption
    | ((try lift_lets -underBinder); intro (x : State); refine have hx : Keeps 1412431872 s x := ?_; ?_; rotate_left; clear_value x; rotate_right; dsimp -zeta only [x]; clear x)
    | ((try lift_lets -underBinder); intro (x : State × _); refine have hx : Keeps 1412431872 s x.1 := ?_; ?_; rotate_left; clear_value x; rotate_right; dsimp -zeta only [x]; clear x)
    | ((try lift_lets -underBinder); intro x; clear_value x)
    | with_reducible apply Keeps.ite ?_ ?_
    | with_reducible apply Keeps.app ?_ (keeps_openPending ..) ?_
    | with_reducible apply Keeps.app ?_ (keeps_addCopy ..) ?_
    | with_reducible apply Keeps.app ?_ (keeps_setBolt ..) ?_
    | with_reducible apply Keeps.app ?_ (keeps_normTerms ..) ?_
    | exact rfl
    | with_reducible apply keeps_modMemBytes ?_ ?_ ?_ ?_ ?_ ?_ ?_ ?_ ?_
    | ((with_reducible apply Or.inl); exact rfl)
    | ((with_reducible apply Or.inr); simp only [Part.same, and_self, modMem])
    | (intro _; exact rfl)
    | (intro w; exact w)
    | exact fun h => memory_wf_put _ _ h
    | exact fun h => memory_wf_clear _ _ h
    | exact fun h => memory_wf_copy _ _ _ h
    | exact fun h => memory_wf_foldl (fun _ _ k => memory_wf_put _ _ k) _ _ (memory_wf_filter _ h)
    | exact fun h => memory_wf_foldl (fun _ _ k => memory_wf_put _ _ k) _ _ h
    | with_reducible apply Keeps.foldl ?_ _ _ ?_
    | with_reducible apply Keeps.foldlFst ?_ _ _ ?_
    | (intro _ _ _)
    | split
    | (dsimp -zeta only)

theorem keeps_beginRestore : ∀ a0 s, Keeps 1880621056 s (beginRestore a0 s) := by
  intro a0 s
  have h := Keeps.refl 1880621056 s
  delta beginRestore
  repeat' first
    | with_reducible assumption
    | ((try lift_lets -underBinder); intro (x : State); refine have hx : Keeps 1880621056 s x := ?_; ?_; rotate_left; clear_value x; rotate_right; dsimp -zeta only [x]; clear x)
    | ((try lift_lets -underBinder); intro (x : State × _); refine have hx : Keeps 1880621056 s x.1 := ?_; ?_; rotate_left; clear_value x; rotate_right; dsimp -zeta only [x]; clear x)
    | ((try lift_lets -underBinder); intro x; clear_value x)
    | with_reducible apply Keeps.ite ?_ ?_
    | with_reducible apply Keeps.app ?_ (keeps_addRegion ..) ?_
    | exact rfl
    | with_reducible apply keeps_modNvt ?_ ?_ ?_ ?_ ?_
    | ((with_reducible apply Or.inl); exact rfl)
    | ((with_reducible apply Or.inr); simp only [Part.same, and_self, modNvt])
    | with_reducible apply Keeps.foldl ?_ _ _ ?_
    | with_reducible apply Keeps.foldlFst ?_ _ _ ?_
    | (intro _ _ _)
    | split

theorem keeps_endRestore : ∀ a0 s, Keeps 536875008 s (endRestore a0 s) := by
  intro a0 s
  have h := Keeps.refl 536875008 s
  delta endRestore
  repeat' first
    | with_reducible assumption
    | ((try lift_lets -underBinder); intro x; clear_value x)
    | with_reducible apply Keeps.ite ?_ ?_
    | with_reducible apply Keeps.app ?_ (keeps_markDone ..) ?_
    | with_reducible apply Keeps.app ?_ (keeps_dropCommit ..) ?_
    | exact rfl
    | split

theorem keeps_restoreNext : ∀ a0 a1 a2 s, Keeps 36310274003890226 s (restoreNext a0 a1 a2 s) := by
  intro a0 a1 a2 s
  have h := Keeps.refl 36310274003890226 s
  delta restoreNext
  repeat' first
    | with_reducible assumption
    | ((try lift_lets -underBinder); intro (x : State); refine have hx : Keeps 36310274003890226 s x := ?_; ?_; rotate_left; clear_value x; rotate_right; dsimp -zeta only [x]; clear x)
    | ((try lift_lets -underBinder); intro x; clear_value x)
    | with_reducible apply Keeps.ite ?_ ?_
    | with_reducible apply keeps_whenFree
    | with_reducible apply Keeps.app ?_ (keeps_ftlReadPages ..) ?_
    | with_reducible apply Keeps.app ?_ (keeps_keepStored ..) ?_
    | with_reducible apply Keeps.app ?_ (keeps_restoreBolt ..) ?_
    | with_reducible apply Keeps.app ?_ (keeps_noteErrors ..) ?_
    | with_reducible apply Keeps.app ?_ (keeps_endRestore ..) ?_
    | with_reducible apply Keeps.app ?_ (keeps_modCommit ..) ?_
    | (intro _)
    | exact rfl
    | split
    | (dsimp -zeta only)

theorem keeps_restoreStart : ∀ a0 a1 s, Keeps 140739513790514 s (restoreStart a0 a1 s) := by
  intro a0 a1 s
  have h := Keeps.refl 140739513790514 s
  delta restoreStart
  repeat' first
    | with_reducible assumption
    | ((try lift_lets -underBinder); intro (x : State); refine have hx : Keeps 140739513790514 s x := ?_; ?_; rotate_left; clear_value x; rotate_right; dsimp -zeta only [x]; clear x)
    | ((try lift_lets -underBinder); intro x; clear_value x)
    | with_reducible apply Keeps.ite ?_ ?_
    | with_reducible apply keeps_runLong
    | with_reducible apply Keeps.app ?_ (keeps_markDone ..) ?_
    | with_reducible apply Keeps.app ?_ (keeps_txRefuse ..) ?_
    | with_reducible apply Keeps.app ?_ (keeps_endRestore ..) ?_
    | with_reducible apply Keeps.app ?_ (keeps_beginRestore ..) ?_
    | (intro _)
    | exact rfl
    | split

theorem keeps_endThrottle : ∀ s, Keeps 2147483648 s (endThrottle s) := by
  intro s
  have h := Keeps.refl 2147483648 s
  delta endThrottle
  repeat' first
    | with_reducible assumption
    | ((try lift_lets -underBinder); intro x; clear_value x)
    | exact rfl
    | with_reducible apply keeps_modNvt ?_ ?_ ?_ ?_ ?_
    | ((with_reducible apply Or.inl); exact rfl)
    | ((with_reducible apply Or.inr); simp only [Part.same, and_self, modNvt])

theorem keeps_eraseEmpty : ∀ a0 s, Keeps 2415919104 s (eraseEmpty a0 s) := by
  intro a0 s
  have h := Keeps.refl 2415919104 s
  delta eraseEmpty
  repeat' first
    | with_reducible assumption
    | ((try lift_lets -underBinder); intro (x : State); refine have hx : Keeps 2415919104 s x := ?_; ?_; rotate_left; clear_value x; rotate_right; dsimp -zeta only [x]; clear x)
    | ((try lift_lets -underBinder); intro x; clear_value x)
    | with_reducible apply Keeps.ite ?_ ?_
    | with_reducible apply Keeps.app ?_ (keeps_endThrottle ..) ?_
    | with_reducible apply Keeps.app ?_ (keeps_modBlock ..) ?_
    | exact rfl
    | split

theorem keeps_relocate : ∀ a0 s, Keeps 2952790016 s (relocate a0 s) := by
  intro a0 s
  have h := Keeps.refl 2952790016 s
  delta relocate
  repeat' first
    | with_reducible assumption
    | with_reducible apply Keeps.ite ?_ ?_
    | with_reducible apply Keeps.app ?_ (keeps_eraseEmpty ..) ?_
    | with_reducible apply Keeps.app ?_ (keeps_flashWork ..) ?_
    | exact rfl
    | with_reducible apply Keeps.foldl ?_ _ _ ?_
    | with_reducible apply Keeps.foldlFst ?_ _ _ ?_
    | (intro _ _ _)
    | split

theorem keeps_relocDurable : ∀ a0 a1 s, Keeps 2415919104 s (relocDurable a0 a1 s) := by
  intro a0 a1 s
  have h := Keeps.refl 2415919104 s
  delta relocDurable
  repeat' first
    | with_reducible assumption
    | ((try lift_lets -underBinder); intro (x : State); refine have hx : Keeps 2415919104 s x := ?_; ?_; rotate_left; clear_value x; rotate_right; dsimp -zeta only [x]; clear x)
    | ((try lift_lets -underBinder); intro x; clear_value x)
    | with_reducible apply Keeps.ite ?_ ?_
    | with_reducible apply Keeps.app ?_ (keeps_modBlock ..) ?_
    | with_reducible apply Keeps.app ?_ (keeps_eraseEmpty ..) ?_
    | exact rfl
    | split

theorem keeps_programDone : ∀ a0 a1 s, Keeps 36310276156088370 s (programDone a0 a1 s) := by
  intro a0 a1 s
  have h := Keeps.refl 36310276156088370 s
  delta programDone
  repeat' first
    | with_reducible assumption
    | ((try lift_lets -underBinder); intro x; clear_value x)
    | with_reducible apply Keeps.ite ?_ ?_
    | with_reducible apply Keeps.app ?_ (keeps_commitStep ..) ?_
    | with_reducible apply Keeps.app ?_ (keeps_journal ..) ?_
    | with_reducible apply Keeps.app ?_ (keeps_homeRecord ..) ?_
    | with_reducible apply keeps_meetErrors
    | with_reducible apply Keeps.app ?_ (keeps_programPage ..) ?_
    | with_reducible apply Keeps.app ?_ (keeps_ftlReadPages ..) ?_
    | with_reducible apply Keeps.app ?_ (keeps_eraseEmpty ..) ?_
    | (intro _)
    | exact rfl
    | split

theorem keeps_spareEvents : ∀ a0 s, Keeps 1890590770 s (spareEvents a0 s) := by
  intro a0 s
  have h := Keeps.refl 1890590770 s
  delta spareEvents
  repeat' first
    | with_reducible assumption
    | ((try lift_lets -underBinder); intro (x : State); refine have hx : Keeps 1890590770 s x := ?_; ?_; rotate_left; clear_value x; rotate_right; dsimp -zeta only [x]; clear x)
    | ((try lift_lets -underBinder); intro x; clear_value x)
    | with_reducible apply Keeps.ite ?_ ?_
    | with_reducible apply Keeps.app ?_ (keeps_eventD ..) ?_
    | exact rfl
    | with_reducible apply keeps_modNvt ?_ ?_ ?_ ?_ ?_
    | ((with_reducible apply Or.inl); exact rfl)
    | ((with_reducible apply Or.inr); simp only [Part.same, and_self, modNvt])
    | split

theorem keeps_eventDiscarded : ∀ a0 a1 s, Keeps 1353719858 s (eventDiscarded a0 a1 s) := by
  intro a0 a1 s
  have h := Keeps.refl 1353719858 s
  delta eventDiscarded
  repeat' first
    | with_reducible assumption
    | with_reducible apply Keeps.app ?_ (keeps_eventP ..) ?_
    | exact rfl

theorem keeps_discardCommit : ∀ a0 s, Keeps 1879048192 s (discardCommit a0 s) := by
  intro a0 s
  have h := Keeps.refl 1879048192 s
  delta discardCommit
  repeat' first
    | with_reducible assumption
    | ((try lift_lets -underBinder); intro (x : State); refine have hx : Keeps 1879048192 s x := ?_; ?_; rotate_left; clear_value x; rotate_right; dsimp -zeta only [x]; clear x)
    | ((try lift_lets -underBinder); intro x; clear_value x)
    | with_reducible apply Keeps.app ?_ (keeps_dropCommit ..) ?_
    | with_reducible apply Keeps.app ?_ (keeps_freeImage ..) ?_
    | exact rfl
    | with_reducible apply keeps_modNvt ?_ ?_ ?_ ?_ ?_
    | ((with_reducible apply Or.inl); exact rfl)
    | ((with_reducible apply Or.inr); simp only [Part.same, and_self, modNvt])

end Sys2Proof.Machine
end

