-- ==== Sys2Proof/Laws/KeepsArrays.lean ====
section
/-! SUPPORT. What the operations of Machine/Arrays.lean keep. -/

namespace Sys2Proof.Machine

set_option linter.unusedSimpArgs false
set_option linter.unusedVariables false

theorem keeps_setLevel : ∀ a0 a1 s, Keeps 4503599627436032 s (setLevel a0 a1 s) := by
  intro a0 a1 s
  have h := Keeps.refl 4503599627436032 s
  delta setLevel
  repeat' first
    | with_reducible assumption
    | ((try lift_lets -underBinder); intro (x : State); refine have hx : Keeps 4503599627436032 s x := ?_; ?_; rotate_left; clear_value x; rotate_right; dsimp -zeta only [x]; clear x)
    | ((try lift_lets -underBinder); intro x; clear_value x)
    | with_reducible apply Keeps.ite ?_ ?_
    | with_reducible apply Keeps.app ?_ (keeps_modArr ..) ?_
    | exact rfl
    | with_reducible apply keeps_modCnt ?_ ?_ ?_ ?_ ?_ ?_ ?_ ?_ ?_
    | ((with_reducible apply Or.inl); exact rfl)
    | ((with_reducible apply Or.inr); simp only [Part.same, and_self, modCnt])
    | split

theorem keeps_spareLeaves : ∀ a0 s, Keeps 36028797019095040 s (spareLeaves a0 s) := by
  intro a0 s
  have h := Keeps.refl 36028797019095040 s
  delta spareLeaves
  repeat' first
    | with_reducible assumption
    | ((try lift_lets -underBinder); intro x; clear_value x)
    | with_reducible apply Keeps.app ?_ (keeps_modHw ..) ?_
    | exact rfl

theorem keeps_retireDecide : ∀ a0 s, Keeps 36028797019095040 s (retireDecide a0 s) := by
  intro a0 s
  have h := Keeps.refl 36028797019095040 s
  delta retireDecide
  repeat' first
    | with_reducible assumption
    | ((try lift_lets -underBinder); intro x; clear_value x)
    | with_reducible apply Keeps.ite ?_ ?_
    | with_reducible apply Keeps.app ?_ (keeps_spareLeaves ..) ?_
    | exact rfl
    | with_reducible apply keeps_modMxa ?_ ?_ ?_ ?_
    | ((with_reducible apply Or.inl); exact rfl)
    | ((with_reducible apply Or.inr); simp only [Part.same, and_self, modMxa])
    | split

theorem keeps_columnDecide : ∀ a0 a1 s, Keeps 131072 s (columnDecide a0 a1 s) := by
  intro a0 a1 s
  have h := Keeps.refl 131072 s
  delta columnDecide
  repeat' first
    | with_reducible assumption
    | ((try lift_lets -underBinder); intro x; clear_value x)
    | with_reducible apply Keeps.ite ?_ ?_
    | exact rfl
    | with_reducible apply keeps_modMxa ?_ ?_ ?_ ?_
    | ((with_reducible apply Or.inl); exact rfl)
    | ((with_reducible apply Or.inr); simp only [Part.same, and_self, modMxa])
    | split

theorem keeps_copyToSpare : ∀ a0 s, Keeps 65537 s (copyToSpare a0 s) := by
  intro a0 s
  have h := Keeps.refl 65537 s
  delta copyToSpare
  repeat' first
    | with_reducible assumption
    | ((try lift_lets -underBinder); intro x; clear_value x)
    | with_reducible apply Keeps.app ?_ (keeps_bumpFree ..) ?_
    | with_reducible apply Keeps.app ?_ (keeps_modArr ..) ?_
    | exact rfl

theorem keeps_noteCopyErrors : ∀ a0 a1 a2 s, Keeps 1353719858 s (noteCopyErrors a0 a1 a2 s) := by
  intro a0 a1 a2 s
  have h := Keeps.refl 1353719858 s
  delta noteCopyErrors
  repeat' first
    | with_reducible assumption
    | ((try lift_lets -underBinder); intro x; clear_value x)
    | with_reducible apply Keeps.app ?_ (keeps_eventOn ..) ?_
    | exact rfl
    | with_reducible apply Keeps.foldl ?_ _ _ ?_
    | with_reducible apply Keeps.foldlFst ?_ _ _ ?_
    | (intro _ _ _)
    | split

theorem keeps_raiseSampling : ∀ a0 a1 a2 s, Keeps 65536 s (raiseSampling a0 a1 a2 s) := by
  intro a0 a1 a2 s
  have h := Keeps.refl 65536 s
  delta raiseSampling
  repeat' first
    | with_reducible assumption
    | ((try lift_lets -underBinder); intro x; clear_value x)
    | with_reducible apply Keeps.app ?_ (keeps_modArr ..) ?_
    | exact rfl
    | (dsimp -zeta only)

theorem keeps_eventShadow : ∀ a0 a1 a2 a3 a4 a5 s, Keeps 1353719858 s (eventShadow a0 a1 a2 a3 a4 a5 s) := by
  intro a0 a1 a2 a3 a4 a5 s
  have h := Keeps.refl 1353719858 s
  delta eventShadow
  repeat' first
    | with_reducible assumption
    | with_reducible apply Keeps.app ?_ (keeps_eventD ..) ?_
    | exact rfl

theorem keeps_katFail : ∀ a0 a1 a2 a3 a4 s, Keeps 551109533746 s (katFail a0 a1 a2 a3 a4 s) := by
  intro a0 a1 a2 a3 a4 s
  have h := Keeps.refl 551109533746 s
  delta katFail
  repeat' first
    | with_reducible assumption
    | ((try lift_lets -underBinder); intro x; clear_value x)
    | with_reducible apply Keeps.app ?_ (keeps_eventD ..) ?_
    | exact rfl
    | with_reducible apply keeps_modFap ?_ ?_ ?_
    | ((with_reducible apply Or.inl); exact rfl)
    | ((with_reducible apply Or.inr); simp only [Part.same, and_self, modFap])

theorem keeps_katLow : ∀ a0 a1 a2 a3 s, Keeps 551109599282 s (katLow a0 a1 a2 a3 s) := by
  intro a0 a1 a2 a3 s
  have h := Keeps.refl 551109599282 s
  delta katLow
  repeat' first
    | with_reducible assumption
    | ((try lift_lets -underBinder); intro (x : State); refine have hx : Keeps 551109599282 s x := ?_; ?_; rotate_left; clear_value x; rotate_right; dsimp -zeta only [x]; clear x)
    | ((try lift_lets -underBinder); intro x; clear_value x)
    | with_reducible apply Keeps.app ?_ (keeps_katFail ..) ?_
    | with_reducible apply Keeps.app ?_ (keeps_raiseSampling ..) ?_
    | exact rfl
    | split

end Sys2Proof.Machine
end

