-- ==== Sys2Proof/Laws/KeepsPorts.lean ====
section
/-! SUPPORT. What the operations of Machine/Ports.lean keep. -/

namespace Sys2Proof.Machine

set_option linter.unusedSimpArgs false
set_option linter.unusedVariables false

theorem keeps_modPort (e : Nat) (f : PortSt → PortSt) (s : State) : Keeps 4294967296 s (modPort e f s) := by
  refine ⟨rfl, Nat.le_refl _, id, fusesKept_refl _, fun p => ?_⟩
  cases p
  case ports => exact .inl rfl
  all_goals exact .inr (by simp [Part.same, modPort])

theorem keeps_sendFlit : ∀ a0 a1 s, Keeps 4294967296 s (sendFlit a0 a1 s) := by
  intro a0 a1 s
  have h := Keeps.refl 4294967296 s
  delta sendFlit
  repeat' first
    | with_reducible assumption
    | ((try lift_lets -underBinder); intro x; clear_value x)
    | with_reducible apply Keeps.app ?_ (keeps_modPort ..) ?_
    | exact rfl

theorem keeps_sendChunks : ∀ a0 a1 s, Keeps 4294967296 s (sendChunks a0 a1 s) := by
  intro a0 a1 s
  have h := Keeps.refl 4294967296 s
  delta sendChunks
  repeat' first
    | with_reducible assumption
    | ((try lift_lets -underBinder); intro x; clear_value x)
    | with_reducible apply Keeps.app ?_ (keeps_sendFlit ..) ?_
    | exact rfl
    | with_reducible apply Keeps.foldl ?_ _ _ ?_
    | with_reducible apply Keeps.foldlFst ?_ _ _ ?_
    | (intro _ _ _)
    | split

theorem keeps_openStream : ∀ a0 s, Keeps 73014444032 s (openStream a0 s) := by
  intro a0 s
  have h := Keeps.refl 73014444032 s
  delta openStream
  repeat' first
    | with_reducible assumption
    | ((try lift_lets -underBinder); intro (x : State); refine have hx : Keeps 73014444032 s x := ?_; ?_; rotate_left; clear_value x; rotate_right; dsimp -zeta only [x]; clear x)
    | ((try lift_lets -underBinder); intro (fn : State → State); refine have hfn : ∀ t, Keeps 73014444032 s t → Keeps 73014444032 s (fn t) := ?_; ?_; rotate_left; clear_value fn; rotate_right; dsimp -zeta only [fn]; clear fn)
    | ((try lift_lets -underBinder); intro (fn2 : _ → State → State); refine have hfn2 : ∀ a t, Keeps 73014444032 s t → Keeps 73014444032 s (fn2 a t) := ?_; ?_; rotate_left; clear_value fn2; rotate_right; dsimp -zeta only [fn2]; clear fn2)
    | with_reducible apply hfn
    | with_reducible apply hfn2
    | ((try lift_lets -underBinder); intro x; clear_value x)
    | with_reducible apply Keeps.ite ?_ ?_
    | with_reducible apply Keeps.app ?_ (keeps_sendChunks ..) ?_
    | with_reducible apply Keeps.app ?_ (keeps_sendFlit ..) ?_
    | exact rfl
    | with_reducible apply keeps_modCol ?_ ?_ ?_ ?_ ?_ ?_
    | ((with_reducible apply Or.inl); exact rfl)
    | ((with_reducible apply Or.inr); simp only [Part.same, and_self, modCol])
    | (intro _)
    | split

theorem keeps_answerStream : ∀ a0 a1 a2 s, Keeps 4294967296 s (answerStream a0 a1 a2 s) := by
  intro a0 a1 a2 s
  have h := Keeps.refl 4294967296 s
  delta answerStream
  repeat' first
    | with_reducible assumption
    | ((try lift_lets -underBinder); intro (x : State); refine have hx : Keeps 4294967296 s x := ?_; ?_; rotate_left; clear_value x; rotate_right; dsimp -zeta only [x]; clear x)
    | ((try lift_lets -underBinder); intro (fn : State → State); refine have hfn : ∀ t, Keeps 4294967296 s t → Keeps 4294967296 s (fn t) := ?_; ?_; rotate_left; clear_value fn; rotate_right; dsimp -zeta only [fn]; clear fn)
    | ((try lift_lets -underBinder); intro (fn2 : _ → State → State); refine have hfn2 : ∀ a t, Keeps 4294967296 s t → Keeps 4294967296 s (fn2 a t) := ?_; ?_; rotate_left; clear_value fn2; rotate_right; dsimp -zeta only [fn2]; clear fn2)
    | with_reducible apply hfn
    | with_reducible apply hfn2
    | ((try lift_lets -underBinder); intro x; clear_value x)
    | with_reducible apply Keeps.ite ?_ ?_
    | with_reducible apply Keeps.app ?_ (keeps_sendFlit ..) ?_
    | exact rfl
    | (intro _)
    | split

theorem keeps_reroute : ∀ a0 s, Keeps 4294967296 s (reroute a0 s) := by
  intro a0 s
  have h := Keeps.refl 4294967296 s
  delta reroute
  repeat' first
    | with_reducible assumption
    | ((try lift_lets -underBinder); intro (x : State); refine have hx : Keeps 4294967296 s x := ?_; ?_; rotate_left; clear_value x; rotate_right; dsimp -zeta only [x]; clear x)
    | ((try lift_lets -underBinder); intro x; clear_value x)
    | with_reducible apply Keeps.ite ?_ ?_
    | with_reducible apply Keeps.app ?_ (keeps_sendFlit ..) ?_
    | exact rfl
    | split

theorem keeps_eventUnreachable : ∀ a0 a1 a2 s, Keeps 1353719858 s (eventUnreachable a0 a1 a2 s) := by
  intro a0 a1 a2 s
  have h := Keeps.refl 1353719858 s
  delta eventUnreachable
  repeat' first
    | with_reducible assumption
    | with_reducible apply Keeps.app ?_ (keeps_eventP ..) ?_
    | exact rfl

end Sys2Proof.Machine
end

