-- ==== Sys2Proof/Laws/KeepsAgreement.lean ====
section
/-! SUPPORT. What the operations of Machine/Agreement.lean keep. -/

namespace Sys2Proof.Machine

set_option linter.unusedSimpArgs false
set_option linter.unusedVariables false

theorem keeps_modRound : ∀ a0 a1 s, Keeps 274877906944 s (modRound a0 a1 s) := by
  intro a0 a1 s
  have h := Keeps.refl 274877906944 s
  delta modRound
  repeat' first
    | with_reducible assumption
    | ((try lift_lets -underBinder); intro x; clear_value x)
    | with_reducible apply Keeps.ite ?_ ?_
    | exact rfl
    | with_reducible apply keeps_modFap ?_ ?_ ?_
    | ((with_reducible apply Or.inl); exact rfl)
    | ((with_reducible apply Or.inr); simp only [Part.same, and_self, modFap])
    | split

theorem keeps_setFrozen : ∀ a0 a1 s, Keeps 34359738368 s (setFrozen a0 a1 s) := by
  intro a0 a1 s
  have h := Keeps.refl 34359738368 s
  delta setFrozen
  repeat' first
    | with_reducible assumption
    | ((try lift_lets -underBinder); intro x; clear_value x)
    | with_reducible apply Keeps.ite ?_ ?_
    | exact rfl
    | with_reducible apply keeps_modCol ?_ ?_ ?_ ?_ ?_ ?_
    | ((with_reducible apply Or.inl); exact rfl)
    | ((with_reducible apply Or.inr); simp only [Part.same, and_self, modCol])
    | split

theorem keeps_msgFlits : ∀ a0 a1 a2 s, Keeps 4294967296 s (msgFlits a0 a1 a2 s) := by
  intro a0 a1 a2 s
  have h := Keeps.refl 4294967296 s
  delta msgFlits
  repeat' first
    | with_reducible assumption
    | ((try lift_lets -underBinder); intro (x : State); refine have hx : Keeps 4294967296 s x := ?_; ?_; rotate_left; clear_value x; rotate_right; dsimp -zeta only [x]; clear x)
    | ((try lift_lets -underBinder); intro (x : State × _); refine have hx : Keeps 4294967296 s x.1 := ?_; ?_; rotate_left; clear_value x; rotate_right; dsimp -zeta only [x]; clear x)
    | ((try lift_lets -underBinder); intro x; clear_value x)
    | with_reducible apply Keeps.app ?_ (keeps_sendFlit ..) ?_
    | exact rfl
    | with_reducible apply Keeps.foldl ?_ _ _ ?_
    | with_reducible apply Keeps.foldlFst ?_ _ _ ?_
    | (intro _ _ _)
    | split

theorem keeps_sendMsgs : ∀ a0 a1 a2 s, Keeps 279172874240 s (sendMsgs a0 a1 a2 s) := by
  intro a0 a1 a2 s
  have h := Keeps.refl 279172874240 s
  delta sendMsgs
  repeat' first
    | with_reducible assumption
    | ((try lift_lets -underBinder); intro x; clear_value x)
    | with_reducible apply Keeps.app ?_ (keeps_msgFlits ..) ?_
    | exact rfl
    | with_reducible apply keeps_modFap ?_ ?_ ?_
    | ((with_reducible apply Or.inl); exact rfl)
    | ((with_reducible apply Or.inr); simp only [Part.same, and_self, modFap])
    | with_reducible apply Keeps.foldl ?_ _ _ ?_
    | with_reducible apply Keeps.foldlFst ?_ _ _ ?_
    | (intro _ _ _)

theorem keeps_checkQuorum {m : Nat} {s0 : State} (a0 : Sys2Proof.CinchItem → Nat → Sys2Proof.CinchBody → Sys2Proof.Machine.State → Sys2Proof.Machine.State) (a1 : Sys2Proof.CinchItem) (s : Sys2Proof.Machine.State)
    (hm : (Nat.land 279172874240 m == 279172874240) = true)
    (hb0 : ∀ x0 x1 x2 t, Keeps m s0 t → Keeps m s0 (a0 x0 x1 x2 t)) (h : Keeps m s0 s) :
    Keeps m s0 (checkQuorum a0 a1 s) := by
  delta checkQuorum
  repeat' first
    | with_reducible assumption
    | ((try lift_lets -underBinder); intro (x : State); refine have hx : Keeps m s0 x := ?_; ?_; rotate_left; clear_value x; rotate_right; dsimp -zeta only [x]; clear x)
    | ((try lift_lets -underBinder); intro x; clear_value x)
    | with_reducible apply Keeps.ite ?_ ?_
    | with_reducible apply Keeps.app ?_ (keeps_sendMsgs ..) ?_
    | with_reducible apply hb0
    | exact sub_trans (g := 279172874240) rfl hm
    | exact .inl (bit_of_sub (g := 279172874240) rfl hm)
    | (intro _)
    | exact rfl
    | split

theorem keeps_propose {m : Nat} {s0 : State} (a0 : Sys2Proof.CinchItem → Nat → Sys2Proof.CinchBody → Sys2Proof.Machine.State → Sys2Proof.Machine.State) (a1 : Sys2Proof.CinchItem) (s : Sys2Proof.Machine.State)
    (hm : (Nat.land 279172874240 m == 279172874240) = true)
    (hb0 : ∀ x0 x1 x2 t, Keeps m s0 t → Keeps m s0 (a0 x0 x1 x2 t)) (h : Keeps m s0 s) :
    Keeps m s0 (propose a0 a1 s) := by
  delta propose
  repeat' first
    | with_reducible assumption
    | ((try lift_lets -underBinder); intro (x : State); refine have hx : Keeps m s0 x := ?_; ?_; rotate_left; clear_value x; rotate_right; dsimp -zeta only [x]; clear x)
    | ((try lift_lets -underBinder); intro x; clear_value x)
    | with_reducible apply Keeps.app ?_ (keeps_sendMsgs ..) ?_
    | with_reducible apply keeps_checkQuorum
    | with_reducible apply Keeps.app ?_ (keeps_modRound ..) ?_
    | with_reducible apply hb0
    | exact sub_trans (g := 279172874240) rfl hm
    | exact .inl (bit_of_sub (g := 279172874240) rfl hm)
    | (intro _)
    | exact rfl
    | split

theorem keeps_tryPropose {m : Nat} {s0 : State} (a0 : Sys2Proof.CinchItem → Nat → Sys2Proof.CinchBody → Sys2Proof.Machine.State → Sys2Proof.Machine.State) (a1 : Sys2Proof.CinchItem) (a2 : Option Nat) (s : Sys2Proof.Machine.State)
    (hm : (Nat.land 279172874240 m == 279172874240) = true)
    (hb0 : ∀ x0 x1 x2 t, Keeps m s0 t → Keeps m s0 (a0 x0 x1 x2 t)) (h : Keeps m s0 s) :
    Keeps m s0 (tryPropose a0 a1 a2 s) := by
  delta tryPropose
  repeat' first
    | with_reducible assumption
    | ((try lift_lets -underBinder); intro (x : State); refine have hx : Keeps m s0 x := ?_; ?_; rotate_left; clear_value x; rotate_right; dsimp -zeta only [x]; clear x)
    | ((try lift_lets -underBinder); intro x; clear_value x)
    | with_reducible apply Keeps.ite ?_ ?_
    | with_reducible apply keeps_propose
    | with_reducible apply hb0
    | exact sub_trans (g := 279172874240) rfl hm
    | exact .inl (bit_of_sub (g := 279172874240) rfl hm)
    | (intro _)
    | exact rfl
    | split

theorem keeps_startRound {m : Nat} {s0 : State} (a0 : Sys2Proof.CinchItem → Nat → Sys2Proof.CinchBody → Sys2Proof.Machine.State → Sys2Proof.Machine.State) (a1 : Sys2Proof.CinchItem) (a2 : Nat) (s : Sys2Proof.Machine.State)
    (hm : (Nat.land 279172874240 m == 279172874240) = true)
    (hb0 : ∀ x0 x1 x2 t, Keeps m s0 t → Keeps m s0 (a0 x0 x1 x2 t)) (h : Keeps m s0 s) :
    Keeps m s0 (startRound a0 a1 a2 s) := by
  delta startRound
  repeat' first
    | with_reducible assumption
    | ((try lift_lets -underBinder); intro (x : State); refine have hx : Keeps m s0 x := ?_; ?_; rotate_left; clear_value x; rotate_right; dsimp -zeta only [x]; clear x)
    | ((try lift_lets -underBinder); intro x; clear_value x)
    | with_reducible apply Keeps.ite ?_ ?_
    | with_reducible apply Keeps.app ?_ (keeps_modRound ..) ?_
    | with_reducible apply keeps_tryPropose
    | with_reducible apply Keeps.app ?_ (keeps_sendMsgs ..) ?_
    | with_reducible apply hb0
    | exact sub_trans (g := 279172874240) rfl hm
    | exact .inl (bit_of_sub (g := 279172874240) rfl hm)
    | (intro _)
    | exact rfl
    | split

theorem keeps_enterRounds {m : Nat} {s0 : State} (a0 : Sys2Proof.CinchItem → Nat → Sys2Proof.CinchBody → Sys2Proof.Machine.State → Sys2Proof.Machine.State) (a1 : Sys2Proof.CinchItem) (a2 : Sys2Proof.Byte) (s : Sys2Proof.Machine.State)
    (hm : (Nat.land 313532612608 m == 313532612608) = true)
    (hb0 : ∀ x0 x1 x2 t, Keeps m s0 t → Keeps m s0 (a0 x0 x1 x2 t)) (h : Keeps m s0 s) :
    Keeps m s0 (enterRounds a0 a1 a2 s) := by
  delta enterRounds
  repeat' first
    | with_reducible assumption
    | ((try lift_lets -underBinder); intro (x : State); refine have hx : Keeps m s0 x := ?_; ?_; rotate_left; clear_value x; rotate_right; dsimp -zeta only [x]; clear x)
    | ((try lift_lets -underBinder); intro x; clear_value x)
    | with_reducible apply Keeps.ite ?_ ?_
    | with_reducible apply keeps_startRound
    | with_reducible apply Keeps.app ?_ (keeps_setFrozen ..) ?_
    | with_reducible apply hb0
    | exact sub_trans (g := 313532612608) rfl hm
    | exact .inl (bit_of_sub (g := 313532612608) rfl hm)
    | (intro _)
    | exact rfl
    | with_reducible apply keeps_modFap ?_ ?_ ?_
    | ((with_reducible apply Or.inl); exact rfl)
    | ((with_reducible apply Or.inr); simp only [Part.same, and_self, modFap])
    | split

theorem keeps_dropEnded : ∀ a0 s, Keeps 274877906944 s (dropEnded a0 s) := by
  intro a0 s
  have h := Keeps.refl 274877906944 s
  delta dropEnded
  repeat' first
    | with_reducible assumption
    | ((try lift_lets -underBinder); intro x; clear_value x)
    | with_reducible apply Keeps.ite ?_ ?_
    | exact rfl
    | with_reducible apply keeps_modFap ?_ ?_ ?_
    | ((with_reducible apply Or.inl); exact rfl)
    | ((with_reducible apply Or.inr); simp only [Part.same, and_self, modFap])
    | split

theorem keeps_callRound {m : Nat} {s0 : State} (a0 : Sys2Proof.CinchItem → Nat → Sys2Proof.CinchBody → Sys2Proof.Machine.State → Sys2Proof.Machine.State) (a1 : Sys2Proof.CinchItem) (a2 : Sys2Proof.Byte) (a3 : Nat) (s : Sys2Proof.Machine.State)
    (hm : (Nat.land 863288426496 m == 863288426496) = true)
    (hb0 : ∀ x0 x1 x2 t, Keeps m s0 t → Keeps m s0 (a0 x0 x1 x2 t)) (h : Keeps m s0 s) :
    Keeps m s0 (callRound a0 a1 a2 a3 s) := by
  delta callRound
  repeat' first
    | with_reducible assumption
    | ((try lift_lets -underBinder); intro (x : State); refine have hx : Keeps m s0 x := ?_; ?_; rotate_left; clear_value x; rotate_right; dsimp -zeta only [x]; clear x)
    | ((try lift_lets -underBinder); intro x; clear_value x)
    | with_reducible apply Keeps.ite ?_ ?_
    | with_reducible apply Keeps.app ?_ (keeps_dropEnded ..) ?_
    | with_reducible apply Keeps.app ?_ (keeps_sendMsgs ..) ?_
    | with_reducible apply keeps_enterRounds
    | with_reducible apply hb0
    | exact sub_trans (g := 863288426496) rfl hm
    | exact .inl (bit_of_sub (g := 863288426496) rfl hm)
    | (intro _)
    | exact rfl
    | with_reducible apply keeps_modFap ?_ ?_ ?_
    | ((with_reducible apply Or.inl); exact rfl)
    | ((with_reducible apply Or.inr); simp only [Part.same, and_self, modFap])
    | split

theorem keeps_countDecided : ∀ a0 a1 s, Keeps 551109533746 s (countDecided a0 a1 s) := by
  intro a0 a1 s
  have h := Keeps.refl 551109533746 s
  delta countDecided
  repeat' first
    | with_reducible assumption
    | ((try lift_lets -underBinder); intro (x : State); refine have hx : Keeps 551109533746 s x := ?_; ?_; rotate_left; clear_value x; rotate_right; dsimp -zeta only [x]; clear x)
    | ((try lift_lets -underBinder); intro x; clear_value x)
    | with_reducible apply Keeps.ite ?_ ?_
    | with_reducible apply Keeps.app ?_ (keeps_eventD ..) ?_
    | exact rfl
    | with_reducible apply keeps_modFap ?_ ?_ ?_
    | ((with_reducible apply Or.inl); exact rfl)
    | ((with_reducible apply Or.inr); simp only [Part.same, and_self, modFap])
    | split

theorem keeps_noteDecided : ∀ a0 a1 a2 s, Keeps 860347179058 s (noteDecided a0 a1 a2 s) := by
  intro a0 a1 a2 s
  have h := Keeps.refl 860347179058 s
  delta noteDecided
  repeat' first
    | with_reducible assumption
    | ((try lift_lets -underBinder); intro (x : State); refine have hx : Keeps 860347179058 s x := ?_; ?_; rotate_left; clear_value x; rotate_right; dsimp -zeta only [x]; clear x)
    | ((try lift_lets -underBinder); intro x; clear_value x)
    | with_reducible apply Keeps.ite ?_ ?_
    | with_reducible apply Keeps.app ?_ (keeps_countDecided ..) ?_
    | with_reducible apply Keeps.app ?_ (keeps_setFrozen ..) ?_
    | with_reducible apply Keeps.app ?_ (keeps_modRound ..) ?_
    | exact rfl
    | with_reducible apply keeps_modFap ?_ ?_ ?_
    | ((with_reducible apply Or.inl); exact rfl)
    | ((with_reducible apply Or.inr); simp only [Part.same, and_self, modFap])
    | split

end Sys2Proof.Machine
end

