-- ==== Sys2Proof/Laws/KeepsCollective.lean ====
section
/-! SUPPORT. What the operations of Machine/Collective.lean keep. -/

namespace Sys2Proof.Machine

set_option linter.unusedSimpArgs false
set_option linter.unusedVariables false

theorem keeps_modGroup : ∀ a0 a1 a2 s, Keeps 17179869184 s (modGroup a0 a1 a2 s) := by
  intro a0 a1 a2 s
  have h := Keeps.refl 17179869184 s
  delta modGroup
  repeat' first
    | with_reducible assumption
    | ((try lift_lets -underBinder); intro x; clear_value x)
    | with_reducible apply Keeps.ite ?_ ?_
    | exact rfl
    | with_reducible apply keeps_modCol ?_ ?_ ?_ ?_ ?_ ?_
    | ((with_reducible apply Or.inl); exact rfl)
    | ((with_reducible apply Or.inr); simp only [Part.same, and_self, modCol])
    | split
    | (dsimp -zeta only)

theorem keeps_passSeq : ∀ a0 a1 a2 s, Keeps 17179869184 s (passSeq a0 a1 a2 s) := by
  intro a0 a1 a2 s
  have h := Keeps.refl 17179869184 s
  delta passSeq
  repeat' first
    | with_reducible assumption
    | ((try lift_lets -underBinder); intro x; clear_value x)
    | with_reducible apply Keeps.ite ?_ ?_
    | with_reducible apply Keeps.app ?_ (keeps_modGroup ..) ?_
    | exact rfl
    | split

theorem keeps_setColl : ∀ a0 s, Keeps 34359738368 s (setColl a0 s) := by
  intro a0 s
  have h := Keeps.refl 34359738368 s
  delta setColl
  repeat' first
    | with_reducible assumption
    | ((try lift_lets -underBinder); intro x; clear_value x)
    | with_reducible apply Keeps.ite ?_ ?_
    | exact rfl
    | with_reducible apply keeps_modCol ?_ ?_ ?_ ?_ ?_ ?_
    | ((with_reducible apply Or.inl); exact rfl)
    | ((with_reducible apply Or.inr); simp only [Part.same, and_self, modCol])
    | split

theorem keeps_dropColl : ∀ a0 a1 s, Keeps 34359738368 s (dropColl a0 a1 s) := by
  intro a0 a1 s
  have h := Keeps.refl 34359738368 s
  delta dropColl
  repeat' first
    | with_reducible assumption
    | ((try lift_lets -underBinder); intro x; clear_value x)
    | exact rfl
    | with_reducible apply keeps_modCol ?_ ?_ ?_ ?_ ?_ ?_
    | ((with_reducible apply Or.inl); exact rfl)
    | ((with_reducible apply Or.inr); simp only [Part.same, and_self, modCol])

theorem keeps_openAll : ∀ a0 a1 a2 a3 s, Keeps 74368163890 s ((openAll a0 a1 a2 a3 s).1) := by
  intro a0 a1 a2 a3 s
  have h := Keeps.refl 74368163890 s
  delta openAll
  repeat' first
    | with_reducible assumption
    | ((try lift_lets -underBinder); intro (x : State); refine have hx : Keeps 74368163890 s x := ?_; ?_; rotate_left; clear_value x; rotate_right; dsimp -zeta only [x]; clear x)
    | ((try lift_lets -underBinder); intro (x : State × _); refine have hx : Keeps 74368163890 s x.1 := ?_; ?_; rotate_left; clear_value x; rotate_right; dsimp -zeta only [x]; clear x)
    | ((try lift_lets -underBinder); intro x; clear_value x)
    | with_reducible apply Keeps.app ?_ (keeps_eventUnreachable ..) ?_
    | with_reducible apply Keeps.app ?_ (keeps_openStream ..) ?_
    | exact rfl
    | with_reducible apply Keeps.foldl ?_ _ _ ?_
    | with_reducible apply Keeps.foldlFst ?_ _ _ ?_
    | (intro _ _ _)
    | split
    | (dsimp -zeta only)

theorem keeps_closeStream : ∀ a0 s, Keeps 73014444032 s (closeStream a0 s) := by
  intro a0 s
  have h := Keeps.refl 73014444032 s
  delta closeStream
  repeat' first
    | with_reducible assumption
    | ((try lift_lets -underBinder); intro (x : State); refine have hx : Keeps 73014444032 s x := ?_; ?_; rotate_left; clear_value x; rotate_right; dsimp -zeta only [x]; clear x)
    | ((try lift_lets -underBinder); intro x; clear_value x)
    | with_reducible apply Keeps.ite ?_ ?_
    | with_reducible apply Keeps.app ?_ (keeps_sendFlit ..) ?_
    | exact rfl
    | with_reducible apply keeps_modCol ?_ ?_ ?_ ?_ ?_ ?_
    | ((with_reducible apply Or.inl); exact rfl)
    | ((with_reducible apply Or.inr); simp only [Part.same, and_self, modCol])
    | split

theorem keeps_closeStreams : ∀ a0 a1 a2 s, Keeps 73014444032 s (closeStreams a0 a1 a2 s) := by
  intro a0 a1 a2 s
  have h := Keeps.refl 73014444032 s
  delta closeStreams
  repeat' first
    | with_reducible assumption
    | with_reducible apply Keeps.app ?_ (keeps_closeStream ..) ?_
    | exact rfl
    | with_reducible apply Keeps.foldl ?_ _ _ ?_
    | with_reducible apply Keeps.foldlFst ?_ _ _ ?_
    | (intro _ _ _)

theorem keeps_pumpStream : ∀ a0 a1 a2 s, Keeps 73014444032 s (pumpStream a0 a1 a2 s) := by
  intro a0 a1 a2 s
  have h := Keeps.refl 73014444032 s
  delta pumpStream
  repeat' first
    | with_reducible assumption
    | ((try lift_lets -underBinder); intro (x : State); refine have hx : Keeps 73014444032 s x := ?_; ?_; rotate_left; clear_value x; rotate_right; dsimp -zeta only [x]; clear x)
    | ((try lift_lets -underBinder); intro x; clear_value x)
    | with_reducible apply Keeps.ite ?_ ?_
    | with_reducible apply Keeps.app ?_ (keeps_sendChunks ..) ?_
    | exact rfl
    | with_reducible apply keeps_modCol ?_ ?_ ?_ ?_ ?_ ?_
    | ((with_reducible apply Or.inl); exact rfl)
    | ((with_reducible apply Or.inr); simp only [Part.same, and_self, modCol])
    | split
    | (dsimp -zeta only)

theorem keeps_pumpStreams : ∀ a0 a1 a2 s, Keeps 73014444032 s (pumpStreams a0 a1 a2 s) := by
  intro a0 a1 a2 s
  have h := Keeps.refl 73014444032 s
  delta pumpStreams
  repeat' first
    | with_reducible assumption
    | ((try lift_lets -underBinder); intro (x : State); refine have hx : Keeps 73014444032 s x := ?_; ?_; rotate_left; clear_value x; rotate_right; dsimp -zeta only [x]; clear x)
    | ((try lift_lets -underBinder); intro (x : State × _); refine have hx : Keeps 73014444032 s x.1 := ?_; ?_; rotate_left; clear_value x; rotate_right; dsimp -zeta only [x]; clear x)
    | ((try lift_lets -underBinder); intro x; clear_value x)
    | with_reducible apply Keeps.app ?_ (keeps_pumpStream ..) ?_
    | exact rfl
    | with_reducible apply Keeps.foldl ?_ _ _ ?_
    | with_reducible apply Keeps.foldlFst ?_ _ _ ?_
    | (intro _ _ _)
    | split
    | (dsimp -zeta only)

theorem keeps_tellUnmapped : ∀ a0 a1 a2 a3 s, Keeps 35713458226 s (tellUnmapped a0 a1 a2 a3 s) := by
  intro a0 a1 a2 a3 s
  have h := Keeps.refl 35713458226 s
  delta tellUnmapped
  repeat' first
    | with_reducible assumption
    | ((try lift_lets -underBinder); intro x; clear_value x)
    | with_reducible apply Keeps.ite ?_ ?_
    | with_reducible apply Keeps.app ?_ (keeps_setColl ..) ?_
    | with_reducible apply Keeps.app ?_ (keeps_eventUnmapped ..) ?_
    | exact rfl
    | split

theorem keeps_coReject : ∀ a0 a1 a2 s, Keeps 52893331506 s (coReject a0 a1 a2 s) := by
  intro a0 a1 a2 s
  have h := Keeps.refl 52893331506 s
  delta coReject
  repeat' first
    | with_reducible assumption
    | ((try lift_lets -underBinder); intro (x : State); refine have hx : Keeps 52893331506 s x := ?_; ?_; rotate_left; clear_value x; rotate_right; dsimp -zeta only [x]; clear x)
    | ((try lift_lets -underBinder); intro x; clear_value x)
    | with_reducible apply Keeps.ite ?_ ?_
    | with_reducible apply Keeps.app ?_ (keeps_eventP ..) ?_
    | with_reducible apply Keeps.app ?_ (keeps_passSeq ..) ?_
    | with_reducible apply Keeps.app ?_ (keeps_markDone ..) ?_
    | with_reducible apply Keeps.app ?_ (keeps_dropColl ..) ?_
    | exact rfl
    | split

theorem keeps_sendAck : ∀ a0 a1 a2 a3 a4 s, Keeps 4294967296 s (sendAck a0 a1 a2 a3 a4 s) := by
  intro a0 a1 a2 a3 a4 s
  have h := Keeps.refl 4294967296 s
  delta sendAck
  repeat' first
    | with_reducible assumption
    | ((try lift_lets -underBinder); intro x; clear_value x)
    | with_reducible apply Keeps.app ?_ (keeps_answerStream ..) ?_
    | exact rfl
    | split

theorem keeps_applyChunk : ∀ a0 s, Keeps 38654705664 s (applyChunk a0 s) := by
  intro a0 s
  have h := Keeps.refl 38654705664 s
  delta applyChunk
  repeat' first
    | with_reducible assumption
    | ((try lift_lets -underBinder); intro (x : State); refine have hx : Keeps 38654705664 s x := ?_; ?_; rotate_left; clear_value x; rotate_right; dsimp -zeta only [x]; clear x)
    | ((try lift_lets -underBinder); intro x; clear_value x)
    | with_reducible apply Keeps.ite ?_ ?_
    | with_reducible apply Keeps.app ?_ (keeps_setColl ..) ?_
    | with_reducible apply Keeps.app ?_ (keeps_sendAck ..) ?_
    | exact rfl
    | split
    | (dsimp -zeta only)

theorem keeps_laneMismatch : ∀ a0 a1 s, Keeps 36028806962749490 s (laneMismatch a0 a1 s) := by
  intro a0 a1 s
  have h := Keeps.refl 36028806962749490 s
  delta laneMismatch
  repeat' first
    | with_reducible assumption
    | ((try lift_lets -underBinder); intro (x : State); refine have hx : Keeps 36028806962749490 s x := ?_; ?_; rotate_left; clear_value x; rotate_right; dsimp -zeta only [x]; clear x)
    | ((try lift_lets -underBinder); intro x; clear_value x)
    | with_reducible apply Keeps.ite ?_ ?_
    | with_reducible apply Keeps.app ?_ (keeps_eventD ..) ?_
    | with_reducible apply Keeps.app ?_ (keeps_modHw ..) ?_
    | exact rfl
    | with_reducible apply keeps_modCol ?_ ?_ ?_ ?_ ?_ ?_
    | ((with_reducible apply Or.inl); exact rfl)
    | ((with_reducible apply Or.inr); simp only [Part.same, and_self, modCol])
    | split
    | (dsimp -zeta only)

theorem keeps_reopenColl : ∀ a0 a1 a2 s, Keeps 74368163890 s (reopenColl a0 a1 a2 s) := by
  intro a0 a1 a2 s
  have h := Keeps.refl 74368163890 s
  delta reopenColl
  repeat' first
    | with_reducible assumption
    | ((try lift_lets -underBinder); intro x; clear_value x)
    | with_reducible apply Keeps.app ?_ (keeps_pumpStreams ..) ?_
    | with_reducible apply Keeps.app ?_ (keeps_openAll ..) ?_
    | with_reducible apply Keeps.app ?_ (keeps_closeStreams ..) ?_
    | ((with_reducible apply Keeps.outPair); assumption)
    | exact rfl
    | split
    | (dsimp -zeta only)

theorem keeps_askFeed : ∀ a0 s, Keeps 34359738368 s (askFeed a0 s) := by
  intro a0 s
  have h := Keeps.refl 34359738368 s
  delta askFeed
  repeat' first
    | with_reducible assumption
    | ((try lift_lets -underBinder); intro x; clear_value x)
    | with_reducible apply Keeps.ite ?_ ?_
    | exact rfl
    | with_reducible apply keeps_modCol ?_ ?_ ?_ ?_ ?_ ?_
    | ((with_reducible apply Or.inl); exact rfl)
    | ((with_reducible apply Or.inr); simp only [Part.same, and_self, modCol])
    | split

theorem keeps_removeRanks : ∀ a0 a1 a2 a3 s, Keeps 18533589042 s (removeRanks a0 a1 a2 a3 s) := by
  intro a0 a1 a2 a3 s
  have h := Keeps.refl 18533589042 s
  delta removeRanks
  repeat' first
    | with_reducible assumption
    | ((try lift_lets -underBinder); intro (x : State); refine have hx : Keeps 18533589042 s x := ?_; ?_; rotate_left; clear_value x; rotate_right; dsimp -zeta only [x]; clear x)
    | ((try lift_lets -underBinder); intro x; clear_value x)
    | with_reducible apply Keeps.ite ?_ ?_
    | with_reducible apply Keeps.app ?_ (keeps_modGroup ..) ?_
    | with_reducible apply Keeps.app ?_ (keeps_eventP ..) ?_
    | exact rfl
    | split

theorem keeps_rejectWaiting : ∀ a0 a1 s, Keeps 52893331506 s (rejectWaiting a0 a1 s) := by
  intro a0 a1 s
  have h := Keeps.refl 52893331506 s
  delta rejectWaiting
  repeat' first
    | with_reducible assumption
    | ((try lift_lets -underBinder); intro x; clear_value x)
    | with_reducible apply Keeps.ite ?_ ?_
    | with_reducible apply Keeps.app ?_ (keeps_coReject ..) ?_
    | exact rfl
    | with_reducible apply Keeps.foldl ?_ _ _ ?_
    | with_reducible apply Keeps.foldlFst ?_ _ _ ?_
    | (intro _ _ _)
    | split

theorem keeps_applyGroup : ∀ a0 a1 a2 s, Keeps 950541496370 s (applyGroup a0 a1 a2 s) := by
  intro a0 a1 a2 s
  have h := Keeps.refl 950541496370 s
  delta applyGroup
  repeat' first
    | with_reducible assumption
    | ((try lift_lets -underBinder); intro (x : State); refine have hx : Keeps 950541496370 s x := ?_; ?_; rotate_left; clear_value x; rotate_right; dsimp -zeta only [x]; clear x)
    | ((try lift_lets -underBinder); intro (x : State × _); refine have hx : Keeps 950541496370 s x.1 := ?_; ?_; rotate_left; clear_value x; rotate_right; dsimp -zeta only [x]; clear x)
    | ((try lift_lets -underBinder); intro x; clear_value x)
    | with_reducible apply Keeps.ite ?_ ?_
    | with_reducible apply Keeps.app ?_ (keeps_noteDecided ..) ?_
    | with_reducible apply Keeps.app ?_ (keeps_askFeed ..) ?_
    | with_reducible apply Keeps.app ?_ (keeps_setColl ..) ?_
    | with_reducible apply Keeps.app ?_ (keeps_closeStreams ..) ?_
    | with_reducible apply Keeps.app ?_ (keeps_reopenColl ..) ?_
    | with_reducible apply Keeps.app ?_ (keeps_pumpStreams ..) ?_
    | with_reducible apply Keeps.app ?_ (keeps_applyChunk ..) ?_
    | with_reducible apply Keeps.app ?_ (keeps_rejectWaiting ..) ?_
    | with_reducible apply Keeps.app ?_ (keeps_removeRanks ..) ?_
    | exact rfl
    | with_reducible apply keeps_modCol ?_ ?_ ?_ ?_ ?_ ?_
    | ((with_reducible apply Or.inl); exact rfl)
    | ((with_reducible apply Or.inr); simp only [Part.same, and_self, modCol])
    | with_reducible apply Keeps.foldl ?_ _ _ ?_
    | with_reducible apply Keeps.foldlFst ?_ _ _ ?_
    | (intro _ _ _)
    | split
    | (dsimp -zeta only)

theorem keeps_callGroup : ∀ a0 a1 a2 a3 a4 s, Keeps 950541496370 s (callGroup a0 a1 a2 a3 a4 s) := by
  intro a0 a1 a2 a3 a4 s
  have h := Keeps.refl 950541496370 s
  delta callGroup
  repeat' first
    | with_reducible assumption
    | with_reducible apply keeps_callRound
    | with_reducible apply Keeps.app ?_ (keeps_applyGroup ..) ?_
    | (intro _)
    | exact rfl

theorem keeps_startColl : ∀ a0 s, Keeps 950541496370 s (startColl a0 s) := by
  intro a0 s
  have h := Keeps.refl 950541496370 s
  delta startColl
  repeat' first
    | with_reducible assumption
    | ((try lift_lets -underBinder); intro (x : State); refine have hx : Keeps 950541496370 s x := ?_; ?_; rotate_left; clear_value x; rotate_right; dsimp -zeta only [x]; clear x)
    | ((try lift_lets -underBinder); intro (x : State × _); refine have hx : Keeps 950541496370 s x.1 := ?_; ?_; rotate_left; clear_value x; rotate_right; dsimp -zeta only [x]; clear x)
    | ((try lift_lets -underBinder); intro x; clear_value x)
    | with_reducible apply Keeps.ite ?_ ?_
    | with_reducible apply Keeps.app ?_ (keeps_touchRead ..) ?_
    | with_reducible apply Keeps.app ?_ (keeps_tellUnmapped ..) ?_
    | with_reducible apply Keeps.app ?_ (keeps_setColl ..) ?_
    | with_reducible apply Keeps.app ?_ (keeps_applyChunk ..) ?_
    | with_reducible apply Keeps.app ?_ (keeps_askFeed ..) ?_
    | with_reducible apply Keeps.app ?_ (keeps_openAll ..) ?_
    | with_reducible apply Keeps.app ?_ (keeps_pumpStreams ..) ?_
    | with_reducible apply Keeps.app ?_ (keeps_callGroup ..) ?_
    | ((with_reducible apply Keeps.outPair); assumption)
    | exact rfl
    | with_reducible apply keeps_modCol ?_ ?_ ?_ ?_ ?_ ?_
    | ((with_reducible apply Or.inl); exact rfl)
    | ((with_reducible apply Or.inr); simp only [Part.same, and_self, modCol])
    | with_reducible apply Keeps.foldl ?_ _ _ ?_
    | with_reducible apply Keeps.foldlFst ?_ _ _ ?_
    | (intro _ _ _)
    | split
    | (dsimp -zeta only)

theorem keeps_coBegin : ∀ a0 s, Keeps 36134913585202 s (coBegin a0 s) := by
  intro a0 s
  have h := Keeps.refl 36134913585202 s
  delta coBegin
  repeat' first
    | with_reducible assumption
    | ((try lift_lets -underBinder); intro (x : State); refine have hx : Keeps 36134913585202 s x := ?_; ?_; rotate_left; clear_value x; rotate_right; dsimp -zeta only [x]; clear x)
    | ((try lift_lets -underBinder); intro (x : State × _); refine have hx : Keeps 36134913585202 s x.1 := ?_; ?_; rotate_left; clear_value x; rotate_right; dsimp -zeta only [x]; clear x)
    | ((try lift_lets -underBinder); intro x; clear_value x)
    | with_reducible apply Keeps.ite ?_ ?_
    | with_reducible apply Keeps.app ?_ (keeps_clampPart ..) ?_
    | with_reducible apply Keeps.app ?_ (keeps_eventUnmapped ..) ?_
    | with_reducible apply Keeps.app ?_ (keeps_touchRead ..) ?_
    | with_reducible apply Keeps.app ?_ (keeps_coReject ..) ?_
    | with_reducible apply Keeps.app ?_ (keeps_startColl ..) ?_
    | exact rfl
    | with_reducible apply keeps_modCol ?_ ?_ ?_ ?_ ?_ ?_
    | ((with_reducible apply Or.inl); exact rfl)
    | ((with_reducible apply Or.inr); simp only [Part.same, and_self, modCol])
    | with_reducible apply Keeps.foldl ?_ _ _ ?_
    | with_reducible apply Keeps.foldlFst ?_ _ _ ?_
    | (intro _ _ _)
    | split
    | (dsimp -zeta only)

theorem keeps_coDiscard : ∀ a0 s, Keeps 140790515937330 s (coDiscard a0 s) := by
  intro a0 s
  have h := Keeps.refl 140790515937330 s
  delta coDiscard
  repeat' first
    | with_reducible assumption
    | ((try lift_lets -underBinder); intro (x : State); refine have hx : Keeps 140790515937330 s x := ?_; ?_; rotate_left; clear_value x; rotate_right; dsimp -zeta only [x]; clear x)
    | ((try lift_lets -underBinder); intro x; clear_value x)
    | with_reducible apply Keeps.app ?_ (keeps_discardCmd ..) ?_
    | with_reducible apply Keeps.app ?_ (keeps_passSeq ..) ?_
    | with_reducible apply Keeps.app ?_ (keeps_dropColl ..) ?_
    | exact rfl

theorem keeps_coRow : ∀ a0 a1 a2 a3 s, Keeps 36487145186390066 s (coRow a0 a1 a2 a3 s) := by
  intro a0 a1 a2 a3 s
  have h := Keeps.refl 36487145186390066 s
  delta coRow
  repeat' first
    | with_reducible assumption
    | ((try lift_lets -underBinder); intro x; clear_value x)
    | with_reducible apply Keeps.ite ?_ ?_
    | with_reducible apply Keeps.app ?_ (keeps_coDiscard ..) ?_
    | with_reducible apply keeps_whenReached
    | with_reducible apply keeps_meetErrors
    | with_reducible apply Keeps.app ?_ (keeps_coBegin ..) ?_
    | with_reducible apply Keeps.app ?_ (keeps_startCmd ..) ?_
    | (intro _)
    | exact rfl
    | split

theorem keeps_doGbind : ∀ a0 s, Keeps 465210187826 s (doGbind a0 s) := by
  intro a0 s
  have h := Keeps.refl 465210187826 s
  delta doGbind
  repeat' first
    | with_reducible assumption
    | ((try lift_lets -underBinder); intro (x : State); refine have hx : Keeps 465210187826 s x := ?_; ?_; rotate_left; clear_value x; rotate_right; dsimp -zeta only [x]; clear x)
    | ((try lift_lets -underBinder); intro (x : State × _); refine have hx : Keeps 465210187826 s x.1 := ?_; ?_; rotate_left; clear_value x; rotate_right; dsimp -zeta only [x]; clear x)
    | ((try lift_lets -underBinder); intro x; clear_value x)
    | with_reducible apply Keeps.app ?_ (keeps_touchRead ..) ?_
    | with_reducible apply Keeps.app ?_ (keeps_eventBatch ..) ?_
    | exact rfl
    | with_reducible apply keeps_modCol ?_ ?_ ?_ ?_ ?_ ?_
    | with_reducible apply keeps_modFap ?_ ?_ ?_
    | ((with_reducible apply Or.inl); exact rfl)
    | ((with_reducible apply Or.inr); simp only [Part.same, and_self, modCol, modFap])
    | with_reducible apply Keeps.foldl ?_ _ _ ?_
    | with_reducible apply Keeps.foldlFst ?_ _ _ ?_
    | (intro _ _ _)
    | split
    | (dsimp -zeta only)

theorem keeps_lengthEvents : ∀ a0 a1 a2 a3 s, Keeps 1353719858 s (lengthEvents a0 a1 a2 a3 s) := by
  intro a0 a1 a2 a3 s
  have h := Keeps.refl 1353719858 s
  delta lengthEvents
  repeat' first
    | with_reducible assumption
    | ((try lift_lets -underBinder); intro (x : State); refine have hx : Keeps 1353719858 s x := ?_; ?_; rotate_left; clear_value x; rotate_right; dsimp -zeta only [x]; clear x)
    | ((try lift_lets -underBinder); intro (x : State × _); refine have hx : Keeps 1353719858 s x.1 := ?_; ?_; rotate_left; clear_value x; rotate_right; dsimp -zeta only [x]; clear x)
    | ((try lift_lets -underBinder); intro x; clear_value x)
    | with_reducible apply Keeps.ite ?_ ?_
    | with_reducible apply Keeps.app ?_ (keeps_eventP ..) ?_
    | exact rfl
    | with_reducible apply Keeps.foldl ?_ _ _ ?_
    | with_reducible apply Keeps.foldlFst ?_ _ _ ?_
    | (intro _ _ _)
    | split
    | (dsimp -zeta only)

theorem keeps_modColCnt : ∀ a0 a1 s, Keeps 137438953472 s (modColCnt a0 a1 s) := by
  intro a0 a1 s
  have h := Keeps.refl 137438953472 s
  delta modColCnt
  repeat' first
    | with_reducible assumption
    | ((try lift_lets -underBinder); intro x; clear_value x)
    | exact rfl
    | with_reducible apply keeps_modCol ?_ ?_ ?_ ?_ ?_ ?_
    | ((with_reducible apply Or.inl); exact rfl)
    | ((with_reducible apply Or.inr); simp only [Part.same, and_self, modCol])

theorem keeps_emptyCarry : ∀ a0 a1 s, Keeps 17179869184 s (emptyCarry a0 a1 s) := by
  intro a0 a1 s
  have h := Keeps.refl 17179869184 s
  delta emptyCarry
  repeat' first
    | with_reducible assumption
    | ((try lift_lets -underBinder); intro x; clear_value x)
    | with_reducible apply Keeps.app ?_ (keeps_modGroup ..) ?_
    | exact rfl

theorem keeps_spendCarry : ∀ a0 a1 a2 s, Keeps 154618822656 s (spendCarry a0 a1 a2 s) := by
  intro a0 a1 a2 s
  have h := Keeps.refl 154618822656 s
  delta spendCarry
  repeat' first
    | with_reducible assumption
    | ((try lift_lets -underBinder); intro (x : State); refine have hx : Keeps 154618822656 s x := ?_; ?_; rotate_left; clear_value x; rotate_right; dsimp -zeta only [x]; clear x)
    | ((try lift_lets -underBinder); intro x; clear_value x)
    | with_reducible apply Keeps.ite ?_ ?_
    | with_reducible apply Keeps.app ?_ (keeps_emptyCarry ..) ?_
    | with_reducible apply Keeps.app ?_ (keeps_modColCnt ..) ?_
    | exact rfl
    | split
    | (dsimp -zeta only)

theorem keeps_carryOrDrop : ∀ a0 a1 a2 a3 s, Keeps 190332280883 s (carryOrDrop a0 a1 a2 a3 s) := by
  intro a0 a1 a2 a3 s
  have h := Keeps.refl 190332280883 s
  delta carryOrDrop
  repeat' first
    | with_reducible assumption
    | ((try lift_lets -underBinder); intro (x : State); refine have hx : Keeps 190332280883 s x := ?_; ?_; rotate_left; clear_value x; rotate_right; dsimp -zeta only [x]; clear x)
    | ((try lift_lets -underBinder); intro x; clear_value x)
    | with_reducible apply Keeps.ite ?_ ?_
    | with_reducible apply Keeps.app ?_ (keeps_modColCnt ..) ?_
    | with_reducible apply Keeps.app ?_ (keeps_modGroup ..) ?_
    | with_reducible apply Keeps.app ?_ (keeps_bumpFree ..) ?_
    | with_reducible apply Keeps.app ?_ (keeps_tellUnmapped ..) ?_
    | with_reducible apply Keeps.app ?_ (keeps_memWrite ..) ?_
    | with_reducible apply Keeps.app ?_ (keeps_spendCarry ..) ?_
    | exact rfl
    | split
    | (dsimp -zeta only)

theorem keeps_setRecord : ∀ a0 a1 a2 a3 a4 s, Keeps 35780567090 s (setRecord a0 a1 a2 a3 a4 s) := by
  intro a0 a1 a2 a3 a4 s
  have h := Keeps.refl 35780567090 s
  delta setRecord
  repeat' first
    | with_reducible assumption
    | ((try lift_lets -underBinder); intro (x : State); refine have hx : Keeps 35780567090 s x := ?_; ?_; rotate_left; clear_value x; rotate_right; dsimp -zeta only [x]; clear x)
    | ((try lift_lets -underBinder); intro (x : State × _); refine have hx : Keeps 35780567090 s x.1 := ?_; ?_; rotate_left; clear_value x; rotate_right; dsimp -zeta only [x]; clear x)
    | ((try lift_lets -underBinder); intro x; clear_value x)
    | with_reducible apply Keeps.ite ?_ ?_
    | with_reducible apply Keeps.app ?_ (keeps_tellUnmapped ..) ?_
    | with_reducible apply Keeps.app ?_ (keeps_cmdWrite ..) ?_
    | exact rfl
    | with_reducible apply Keeps.foldl ?_ _ _ ?_
    | with_reducible apply Keeps.foldlFst ?_ _ _ ?_
    | (intro _ _ _)
    | split
    | (dsimp -zeta only)

theorem keeps_endColl : ∀ a0 a1 a2 s, Keeps 124554055680 s (endColl a0 a1 a2 s) := by
  intro a0 a1 a2 s
  have h := Keeps.refl 124554055680 s
  delta endColl
  repeat' first
    | with_reducible assumption
    | ((try lift_lets -underBinder); intro (x : State); refine have hx : Keeps 124554055680 s x := ?_; ?_; rotate_left; clear_value x; rotate_right; dsimp -zeta only [x]; clear x)
    | ((try lift_lets -underBinder); intro x; clear_value x)
    | with_reducible apply Keeps.app ?_ (keeps_closeStreams ..) ?_
    | with_reducible apply Keeps.app ?_ (keeps_passSeq ..) ?_
    | with_reducible apply Keeps.app ?_ (keeps_modGroup ..) ?_
    | with_reducible apply Keeps.app ?_ (keeps_markDone ..) ?_
    | with_reducible apply Keeps.app ?_ (keeps_dropColl ..) ?_
    | exact rfl

theorem keeps_noteBarrier : ∀ a0 a1 a2 s, Keeps 276231626802 s (noteBarrier a0 a1 a2 s) := by
  intro a0 a1 a2 s
  have h := Keeps.refl 276231626802 s
  delta noteBarrier
  repeat' first
    | with_reducible assumption
    | ((try lift_lets -underBinder); intro (x : State); refine have hx : Keeps 276231626802 s x := ?_; ?_; rotate_left; clear_value x; rotate_right; dsimp -zeta only [x]; clear x)
    | ((try lift_lets -underBinder); intro (x : State × _); refine have hx : Keeps 276231626802 s x.1 := ?_; ?_; rotate_left; clear_value x; rotate_right; dsimp -zeta only [x]; clear x)
    | ((try lift_lets -underBinder); intro x; clear_value x)
    | with_reducible apply Keeps.ite ?_ ?_
    | with_reducible apply Keeps.app ?_ (keeps_eventD ..) ?_
    | exact rfl
    | with_reducible apply keeps_modFap ?_ ?_ ?_
    | ((with_reducible apply Or.inl); exact rfl)
    | ((with_reducible apply Or.inr); simp only [Part.same, and_self, modFap])
    | with_reducible apply Keeps.foldl ?_ _ _ ?_
    | with_reducible apply Keeps.foldlFst ?_ _ _ ?_
    | (intro _ _ _)
    | split
    | (dsimp -zeta only)

theorem keeps_finishColl : ∀ a0 a1 a2 s, Keeps 538291744819 s (finishColl a0 a1 a2 s) := by
  intro a0 a1 a2 s
  have h := Keeps.refl 538291744819 s
  delta finishColl
  repeat' first
    | with_reducible assumption
    | ((try lift_lets -underBinder); intro (x : State); refine have hx : Keeps 538291744819 s x := ?_; ?_; rotate_left; clear_value x; rotate_right; dsimp -zeta only [x]; clear x)
    | ((try lift_lets -underBinder); intro x; clear_value x)
    | with_reducible apply Keeps.ite ?_ ?_
    | with_reducible apply Keeps.app ?_ (keeps_tellUnmapped ..) ?_
    | with_reducible apply Keeps.app ?_ (keeps_lengthEvents ..) ?_
    | with_reducible apply Keeps.app ?_ (keeps_cmdWrites ..) ?_
    | with_reducible apply Keeps.app ?_ (keeps_noteBarrier ..) ?_
    | with_reducible apply Keeps.app ?_ (keeps_carryOrDrop ..) ?_
    | with_reducible apply Keeps.app ?_ (keeps_modColCnt ..) ?_
    | with_reducible apply Keeps.app ?_ (keeps_spendCarry ..) ?_
    | with_reducible apply Keeps.app ?_ (keeps_setRecord ..) ?_
    | with_reducible apply Keeps.app ?_ (keeps_eventP ..) ?_
    | with_reducible apply Keeps.app ?_ (keeps_endColl ..) ?_
    | exact rfl
    | with_reducible apply keeps_modCol ?_ ?_ ?_ ?_ ?_ ?_
    | ((with_reducible apply Or.inl); exact rfl)
    | ((with_reducible apply Or.inr); simp only [Part.same, and_self, modCol])
    | split
    | (dsimp -zeta only)

theorem keeps_failGroup : ∀ a0 a1 a2 a3 s, Keeps 125974884402 s (failGroup a0 a1 a2 a3 s) := by
  intro a0 a1 a2 a3 s
  have h := Keeps.refl 125974884402 s
  delta failGroup
  repeat' first
    | with_reducible assumption
    | ((try lift_lets -underBinder); intro (x : State); refine have hx : Keeps 125974884402 s x := ?_; ?_; rotate_left; clear_value x; rotate_right; dsimp -zeta only [x]; clear x)
    | ((try lift_lets -underBinder); intro x; clear_value x)
    | with_reducible apply Keeps.app ?_ (keeps_eventP ..) ?_
    | with_reducible apply Keeps.app ?_ (keeps_endColl ..) ?_
    | with_reducible apply Keeps.app ?_ (keeps_setRecord ..) ?_
    | with_reducible apply Keeps.app ?_ (keeps_rejectWaiting ..) ?_
    | with_reducible apply Keeps.app ?_ (keeps_modGroup ..) ?_
    | exact rfl
    | split

theorem keeps_takeFeed : ∀ a0 a1 a2 a3 s, Keeps 173219520562 s (takeFeed a0 a1 a2 a3 s) := by
  intro a0 a1 a2 a3 s
  have h := Keeps.refl 173219520562 s
  delta takeFeed
  repeat' first
    | with_reducible assumption
    | ((try lift_lets -underBinder); intro (x : State); refine have hx : Keeps 173219520562 s x := ?_; ?_; rotate_left; clear_value x; rotate_right; dsimp -zeta only [x]; clear x)
    | ((try lift_lets -underBinder); intro x; clear_value x)
    | with_reducible apply Keeps.app ?_ (keeps_setColl ..) ?_
    | with_reducible apply Keeps.app ?_ (keeps_modColCnt ..) ?_
    | with_reducible apply Keeps.app ?_ (keeps_eventP ..) ?_
    | with_reducible apply Keeps.app ?_ (keeps_tellUnmapped ..) ?_
    | with_reducible apply Keeps.app ?_ (keeps_cmdWrites ..) ?_
    | exact rfl
    | split
    | (dsimp -zeta only)

theorem keeps_sendFeed : ∀ a0 a1 a2 a3 a4 s, Keeps 74368163890 s (sendFeed a0 a1 a2 a3 a4 s) := by
  intro a0 a1 a2 a3 a4 s
  have h := Keeps.refl 74368163890 s
  delta sendFeed
  repeat' first
    | with_reducible assumption
    | ((try lift_lets -underBinder); intro (x : State); refine have hx : Keeps 74368163890 s x := ?_; ?_; rotate_left; clear_value x; rotate_right; dsimp -zeta only [x]; clear x)
    | ((try lift_lets -underBinder); intro x; clear_value x)
    | with_reducible apply Keeps.app ?_ (keeps_eventUnreachable ..) ?_
    | with_reducible apply Keeps.app ?_ (keeps_pumpStreams ..) ?_
    | with_reducible apply Keeps.app ?_ (keeps_openStream ..) ?_
    | exact rfl
    | split

theorem keeps_forwardCtl : ∀ a0 a1 a2 a3 s, Keeps 4294967296 s (forwardCtl a0 a1 a2 a3 s) := by
  intro a0 a1 a2 a3 s
  have h := Keeps.refl 4294967296 s
  delta forwardCtl
  repeat' first
    | with_reducible assumption
    | ((try lift_lets -underBinder); intro x; clear_value x)
    | with_reducible apply Keeps.app ?_ (keeps_sendFlit ..) ?_
    | exact rfl

theorem keeps_refuseStream : ∀ a0 a1 a2 s, Keeps 5648687154 s (refuseStream a0 a1 a2 s) := by
  intro a0 a1 a2 s
  have h := Keeps.refl 5648687154 s
  delta refuseStream
  repeat' first
    | with_reducible assumption
    | ((try lift_lets -underBinder); intro (x : State); refine have hx : Keeps 5648687154 s x := ?_; ?_; rotate_left; clear_value x; rotate_right; dsimp -zeta only [x]; clear x)
    | ((try lift_lets -underBinder); intro x; clear_value x)
    | with_reducible apply Keeps.app ?_ (keeps_answerStream ..) ?_
    | with_reducible apply Keeps.app ?_ (keeps_eventP ..) ?_
    | exact rfl

theorem keeps_passBack (kind : Nat) (via : Option Port) (c : StreamCtl) (s : State) :
    OptKeeps 4294967296 s (passBack kind via c s) := by
  unfold passBack
  split
  · exact OptKeeps.map fun e => Keeps.app rfl (keeps_sendFlit ..) (Keeps.refl _ s)
  · exact OptKeeps.map fun o => Keeps.ite (Keeps.refl _ s) (Keeps.app rfl (keeps_forwardCtl ..) (Keeps.refl _ s))

end Sys2Proof.Machine
end

