-- ==== Sys2Proof/Laws/KeepsCinch.lean ====
section
/-! SUPPORT. What the operations of Machine/Cinch.lean keep. -/

namespace Sys2Proof.Machine

set_option linter.unusedSimpArgs false
set_option linter.unusedVariables false

theorem keeps_reopenStream : ∀ s a1, Keeps 950541496370 s (reopenStream s a1) := by
  intro s a1
  have h := Keeps.refl 950541496370 s
  delta reopenStream
  repeat' first
    | with_reducible assumption
    | ((try lift_lets -underBinder); intro (x : State); refine have hx : Keeps 950541496370 s x := ?_; ?_; rotate_left; clear_value x; rotate_right; dsimp -zeta only [x]; clear x)
    | ((try lift_lets -underBinder); intro x; clear_value x)
    | with_reducible apply Keeps.ite ?_ ?_
    | with_reducible apply Keeps.app ?_ (keeps_openStream ..) ?_
    | with_reducible apply Keeps.app ?_ (keeps_answerStream ..) ?_
    | with_reducible apply Keeps.app ?_ (keeps_eventUnreachable ..) ?_
    | with_reducible apply Keeps.app ?_ (keeps_callGroup ..) ?_
    | exact rfl
    | with_reducible apply keeps_modCol ?_ ?_ ?_ ?_ ?_ ?_
    | ((with_reducible apply Or.inl); exact rfl)
    | ((with_reducible apply Or.inr); simp only [Part.same, and_self, modCol])
    | split

theorem keeps_reopenStreams : ∀ a0 s, Keeps 950541496370 s (reopenStreams a0 s) := by
  intro a0 s
  have h := Keeps.refl 950541496370 s
  delta reopenStreams
  repeat' first
    | with_reducible assumption
    | with_reducible apply Keeps.app ?_ (keeps_reopenStream ..) ?_
    | exact rfl
    | with_reducible apply Keeps.foldl ?_ _ _ ?_
    | with_reducible apply Keeps.foldlFst ?_ _ _ ?_
    | (intro _ _ _)

theorem keeps_withdrawSelf : ∀ a0 s, Keeps 9943654450 s (withdrawSelf a0 s) := by
  intro a0 s
  have h := Keeps.refl 9943654450 s
  delta withdrawSelf
  repeat' first
    | with_reducible assumption
    | ((try lift_lets -underBinder); intro (x : State); refine have hx : Keeps 9943654450 s x := ?_; ?_; rotate_left; clear_value x; rotate_right; dsimp -zeta only [x]; clear x)
    | ((try lift_lets -underBinder); intro x; clear_value x)
    | with_reducible apply Keeps.app ?_ (keeps_eventD ..) ?_
    | exact rfl
    | with_reducible apply keeps_modCol ?_ ?_ ?_ ?_ ?_ ?_
    | ((with_reducible apply Or.inl); exact rfl)
    | ((with_reducible apply Or.inr); simp only [Part.same, and_self, modCol])

theorem keeps_noSpare : ∀ a0 s, Keeps 1353719858 s (noSpare a0 s) := by
  intro a0 s
  have h := Keeps.refl 1353719858 s
  delta noSpare
  repeat' first
    | with_reducible assumption
    | ((try lift_lets -underBinder); intro (x : State); refine have hx : Keeps 1353719858 s x := ?_; ?_; rotate_left; clear_value x; rotate_right; dsimp -zeta only [x]; clear x)
    | ((try lift_lets -underBinder); intro x; clear_value x)
    | with_reducible apply Keeps.ite ?_ ?_
    | with_reducible apply Keeps.app ?_ (keeps_eventPs ..) ?_
    | exact rfl
    | split

theorem keeps_eventSwitchIn : ∀ a0 s, Keeps 1353719858 s (eventSwitchIn a0 s) := by
  intro a0 s
  have h := Keeps.refl 1353719858 s
  delta eventSwitchIn
  repeat' first
    | with_reducible assumption
    | ((try lift_lets -underBinder); intro (x : State); refine have hx : Keeps 1353719858 s x := ?_; ?_; rotate_left; clear_value x; rotate_right; dsimp -zeta only [x]; clear x)
    | ((try lift_lets -underBinder); intro (x : State × _); refine have hx : Keeps 1353719858 s x.1 := ?_; ?_; rotate_left; clear_value x; rotate_right; dsimp -zeta only [x]; clear x)
    | ((try lift_lets -underBinder); intro x; clear_value x)
    | with_reducible apply Keeps.app ?_ (keeps_eventD ..) ?_
    | exact rfl
    | with_reducible apply Keeps.foldl ?_ _ _ ?_
    | with_reducible apply Keeps.foldlFst ?_ _ _ ?_
    | (intro _ _ _)
    | (dsimp -zeta only)

theorem keeps_callForFailed : ∀ a0 s, Keeps 950541496370 s (callForFailed a0 s) := by
  intro a0 s
  have h := Keeps.refl 950541496370 s
  delta callForFailed
  repeat' first
    | with_reducible assumption
    | ((try lift_lets -underBinder); intro (x : State); refine have hx : Keeps 950541496370 s x := ?_; ?_; rotate_left; clear_value x; rotate_right; dsimp -zeta only [x]; clear x)
    | ((try lift_lets -underBinder); intro (x : State × _); refine have hx : Keeps 950541496370 s x.1 := ?_; ?_; rotate_left; clear_value x; rotate_right; dsimp -zeta only [x]; clear x)
    | ((try lift_lets -underBinder); intro x; clear_value x)
    | with_reducible apply Keeps.app ?_ (keeps_callGroup ..) ?_
    | exact rfl
    | with_reducible apply Keeps.foldl ?_ _ _ ?_
    | with_reducible apply Keeps.foldlFst ?_ _ _ ?_
    | (intro _ _ _)
    | split
    | (dsimp -zeta only)

theorem keeps_applyRack : ∀ a0 a1 a2 s, Keeps 959131430962 s (applyRack a0 a1 a2 s) := by
  intro a0 a1 a2 s
  have h := Keeps.refl 959131430962 s
  delta applyRack
  repeat' first
    | with_reducible assumption
    | ((try lift_lets -underBinder); intro (x : State); refine have hx : Keeps 959131430962 s x := ?_; ?_; rotate_left; clear_value x; rotate_right; dsimp -zeta only [x]; clear x)
    | ((try lift_lets -underBinder); intro (x : State × _); refine have hx : Keeps 959131430962 s x.1 := ?_; ?_; rotate_left; clear_value x; rotate_right; dsimp -zeta only [x]; clear x)
    | ((try lift_lets -underBinder); intro x; clear_value x)
    | with_reducible apply Keeps.ite ?_ ?_
    | with_reducible apply Keeps.app ?_ (keeps_noteDecided ..) ?_
    | with_reducible apply Keeps.app ?_ (keeps_eventSwitchIn ..) ?_
    | with_reducible apply Keeps.app ?_ (keeps_noSpare ..) ?_
    | with_reducible apply Keeps.app ?_ (keeps_withdrawSelf ..) ?_
    | with_reducible apply Keeps.app ?_ (keeps_reopenStreams ..) ?_
    | with_reducible apply Keeps.app ?_ (keeps_callForFailed ..) ?_
    | exact rfl
    | with_reducible apply keeps_modCol ?_ ?_ ?_ ?_ ?_ ?_
    | with_reducible apply keeps_modFap ?_ ?_ ?_
    | ((with_reducible apply Or.inl); exact rfl)
    | ((with_reducible apply Or.inr); simp only [Part.same, and_self, modCol, modFap])
    | with_reducible apply Keeps.foldl ?_ _ _ ?_
    | with_reducible apply Keeps.foldlFst ?_ _ _ ?_
    | (intro _ _ _)
    | split
    | (dsimp -zeta only)

theorem keeps_applyItem : ∀ a0 a1 a2 s, Keeps 959131430962 s (applyItem a0 a1 a2 s) := by
  intro a0 a1 a2 s
  have h := Keeps.refl 959131430962 s
  delta applyItem
  repeat' first
    | with_reducible assumption
    | ((try lift_lets -underBinder); intro x; clear_value x)
    | with_reducible apply Keeps.app ?_ (keeps_applyGroup ..) ?_
    | with_reducible apply Keeps.app ?_ (keeps_applyRack ..) ?_
    | exact rfl
    | split

theorem keeps_callRack : ∀ a0 a1 s, Keeps 959131430962 s (callRack a0 a1 s) := by
  intro a0 a1 s
  have h := Keeps.refl 959131430962 s
  delta callRack
  repeat' first
    | with_reducible assumption
    | with_reducible apply keeps_callRound
    | with_reducible apply Keeps.app ?_ (keeps_applyItem ..) ?_
    | (intro _)
    | exact rfl

theorem keeps_cinchRow {m : Nat} {s0 : State} (a0 : Sys2Proof.CinchMsg) (a1 : Sys2Proof.Machine.State → Sys2Proof.Machine.State) (s : Sys2Proof.Machine.State)
    (hm : (Nat.land 1353719858 m == 1353719858) = true)
    (hb1 : ∀  t, Keeps m s0 t → Keeps m s0 (a1  t)) (h : Keeps m s0 s) :
    Keeps m s0 (cinchRow a0 a1 s) := by
  delta cinchRow
  repeat' first
    | with_reducible assumption
    | ((try lift_lets -underBinder); intro x; clear_value x)
    | with_reducible apply Keeps.ite ?_ ?_
    | with_reducible apply Keeps.app ?_ (keeps_eventP ..) ?_
    | with_reducible apply hb1
    | exact sub_trans (g := 1353719858) rfl hm
    | exact .inl (bit_of_sub (g := 1353719858) rfl hm)
    | (intro _)
    | exact rfl
    | split

theorem keeps_eventDrain : ∀ a0 a1 s, Keeps 1353719858 s (eventDrain a0 a1 s) := by
  intro a0 a1 s
  have h := Keeps.refl 1353719858 s
  delta eventDrain
  repeat' first
    | with_reducible assumption
    | with_reducible apply Keeps.app ?_ (keeps_eventD ..) ?_
    | exact rfl

end Sys2Proof.Machine
end

