-- ==== Sys2Proof/Laws/KeepsOptics.lean ====
section
/-! SUPPORT. What the operations of Machine/Optics.lean keep. -/

namespace Sys2Proof.Machine

set_option linter.unusedSimpArgs false
set_option linter.unusedVariables false

theorem keeps_modWave : ∀ a0 a1 a2 s, Keeps 4294967296 s (modWave a0 a1 a2 s) := by
  intro a0 a1 a2 s
  have h := Keeps.refl 4294967296 s
  delta modWave
  repeat' first
    | with_reducible assumption
    | ((try lift_lets -underBinder); intro x; clear_value x)
    | with_reducible apply Keeps.app ?_ (keeps_modPort ..) ?_
    | exact rfl

theorem keeps_checkCapacity : ∀ a0 s, Keeps 281476347256882 s (checkCapacity a0 s) := by
  intro a0 s
  have h := Keeps.refl 281476347256882 s
  delta checkCapacity
  repeat' first
    | with_reducible assumption
    | ((try lift_lets -underBinder); intro (x : State); refine have hx : Keeps 281476347256882 s x := ?_; ?_; rotate_left; clear_value x; rotate_right; dsimp -zeta only [x]; clear x)
    | ((try lift_lets -underBinder); intro x; clear_value x)
    | with_reducible apply Keeps.ite ?_ ?_
    | with_reducible apply Keeps.app ?_ (keeps_capacityLoss ..) ?_
    | exact rfl
    | split

theorem keeps_emptyCheck : ∀ a0 s, Keeps 281480642224178 s (emptyCheck a0 s) := by
  intro a0 s
  have h := Keeps.refl 281480642224178 s
  delta emptyCheck
  repeat' first
    | with_reducible assumption
    | ((try lift_lets -underBinder); intro (x : State); refine have hx : Keeps 281480642224178 s x := ?_; ?_; rotate_left; clear_value x; rotate_right; dsimp -zeta only [x]; clear x)
    | ((try lift_lets -underBinder); intro x; clear_value x)
    | with_reducible apply Keeps.ite ?_ ?_
    | with_reducible apply Keeps.app ?_ (keeps_checkCapacity ..) ?_
    | with_reducible apply Keeps.app ?_ (keeps_modPort ..) ?_
    | exact rfl
    | split
    | (dsimp -zeta only)

theorem keeps_afterLanes : ∀ a0 s, Keeps 4294967296 s (afterLanes a0 s) := by
  intro a0 s
  have h := Keeps.refl 4294967296 s
  delta afterLanes
  repeat' first
    | with_reducible assumption
    | ((try lift_lets -underBinder); intro x; clear_value x)
    | with_reducible apply Keeps.ite ?_ ?_
    | with_reducible apply Keeps.app ?_ (keeps_modPort ..) ?_
    | exact rfl
    | split

theorem keeps_recordRetired : ∀ a0 a1 s, Keeps 36028797019095040 s (recordRetired a0 a1 s) := by
  intro a0 a1 s
  have h := Keeps.refl 36028797019095040 s
  delta recordRetired
  repeat' first
    | with_reducible assumption
    | ((try lift_lets -underBinder); intro x; clear_value x)
    | with_reducible apply Keeps.ite ?_ ?_
    | with_reducible apply Keeps.app ?_ (keeps_modHw ..) ?_
    | exact rfl
    | split

theorem keeps_retireWave : ∀ a0 a1 a2 s, Keeps 36028801314062336 s (retireWave a0 a1 a2 s) := by
  intro a0 a1 a2 s
  have h := Keeps.refl 36028801314062336 s
  delta retireWave
  repeat' first
    | with_reducible assumption
    | ((try lift_lets -underBinder); intro x; clear_value x)
    | with_reducible apply Keeps.ite ?_ ?_
    | with_reducible apply Keeps.app ?_ (keeps_recordRetired ..) ?_
    | with_reducible apply Keeps.app ?_ (keeps_modWave ..) ?_
    | exact rfl
    | split

theorem keeps_eventLaneRemoved : ∀ a0 a1 a2 s, Keeps 1353719858 s (eventLaneRemoved a0 a1 a2 s) := by
  intro a0 a1 a2 s
  have h := Keeps.refl 1353719858 s
  delta eventLaneRemoved
  repeat' first
    | with_reducible assumption
    | with_reducible apply Keeps.app ?_ (keeps_eventD ..) ?_
    | exact rfl

theorem keeps_eventMode : ∀ a0 a1 a2 a3 a4 s, Keeps 1353719858 s (eventMode a0 a1 a2 a3 a4 s) := by
  intro a0 a1 a2 a3 a4 s
  have h := Keeps.refl 1353719858 s
  delta eventMode
  repeat' first
    | with_reducible assumption
    | with_reducible apply Keeps.app ?_ (keeps_eventD ..) ?_
    | exact rfl

theorem keeps_freeThrough : ∀ a0 s, Keeps 4294967296 s (freeThrough a0 s) := by
  intro a0 s
  have h := Keeps.refl 4294967296 s
  delta freeThrough
  repeat' first
    | with_reducible assumption
    | ((try lift_lets -underBinder); intro x; clear_value x)
    | with_reducible apply Keeps.app ?_ (keeps_modPort ..) ?_
    | exact rfl
    | with_reducible apply Keeps.foldl ?_ _ _ ?_
    | with_reducible apply Keeps.foldlFst ?_ _ _ ?_
    | (intro _ _ _)
    | split

theorem keeps_portDown : ∀ a0 a1 s, Keeps 282434124967986 s (portDown a0 a1 s) := by
  intro a0 a1 s
  have h := Keeps.refl 282434124967986 s
  delta portDown
  repeat' first
    | with_reducible assumption
    | ((try lift_lets -underBinder); intro (x : State); refine have hx : Keeps 282434124967986 s x := ?_; ?_; rotate_left; clear_value x; rotate_right; dsimp -zeta only [x]; clear x)
    | ((try lift_lets -underBinder); intro (x : State × _); refine have hx : Keeps 282434124967986 s x.1 := ?_; ?_; rotate_left; clear_value x; rotate_right; dsimp -zeta only [x]; clear x)
    | ((try lift_lets -underBinder); intro x; clear_value x)
    | with_reducible apply Keeps.ite ?_ ?_
    | with_reducible apply Keeps.app ?_ (keeps_freeThrough ..) ?_
    | with_reducible apply Keeps.app ?_ (keeps_modPort ..) ?_
    | with_reducible apply Keeps.app ?_ (keeps_eventD ..) ?_
    | with_reducible apply Keeps.app ?_ (keeps_eventPs ..) ?_
    | with_reducible apply Keeps.app ?_ (keeps_checkCapacity ..) ?_
    | with_reducible apply Keeps.app ?_ (keeps_reopenStreams ..) ?_
    | with_reducible apply Keeps.app ?_ (keeps_reroute ..) ?_
    | with_reducible apply Keeps.app ?_ (keeps_callRack ..) ?_
    | exact rfl
    | with_reducible apply Keeps.foldl ?_ _ _ ?_
    | with_reducible apply Keeps.foldlFst ?_ _ _ ?_
    | (intro _ _ _)
    | split

theorem keeps_proposeChange : ∀ a0 a1 a2 a3 a4 s, Keeps 4294967296 s (proposeChange a0 a1 a2 a3 a4 s) := by
  intro a0 a1 a2 a3 a4 s
  have h := Keeps.refl 4294967296 s
  delta proposeChange
  repeat' first
    | with_reducible assumption
    | ((try lift_lets -underBinder); intro (x : State); refine have hx : Keeps 4294967296 s x := ?_; ?_; rotate_left; clear_value x; rotate_right; dsimp -zeta only [x]; clear x)
    | ((try lift_lets -underBinder); intro (x : State × _); refine have hx : Keeps 4294967296 s x.1 := ?_; ?_; rotate_left; clear_value x; rotate_right; dsimp -zeta only [x]; clear x)
    | ((try lift_lets -underBinder); intro x; clear_value x)
    | with_reducible apply Keeps.app ?_ (keeps_modPort ..) ?_
    | exact rfl
    | with_reducible apply Keeps.foldl ?_ _ _ ?_
    | with_reducible apply Keeps.foldlFst ?_ _ _ ?_
    | (intro _ _ _)

theorem keeps_laneSetChanged : ∀ a0 s, Keeps 282434124967986 s (laneSetChanged a0 s) := by
  intro a0 s
  have h := Keeps.refl 282434124967986 s
  delta laneSetChanged
  repeat' first
    | with_reducible assumption
    | ((try lift_lets -underBinder); intro (x : State); refine have hx : Keeps 282434124967986 s x := ?_; ?_; rotate_left; clear_value x; rotate_right; dsimp -zeta only [x]; clear x)
    | ((try lift_lets -underBinder); intro x; clear_value x)
    | with_reducible apply Keeps.ite ?_ ?_
    | with_reducible apply Keeps.app ?_ (keeps_checkCapacity ..) ?_
    | with_reducible apply Keeps.app ?_ (keeps_afterLanes ..) ?_
    | with_reducible apply Keeps.app ?_ (keeps_portDown ..) ?_
    | exact rfl
    | split

theorem keeps_applyChange : ∀ a0 a1 s, Keeps 36311231144063026 s (applyChange a0 a1 s) := by
  intro a0 a1 s
  have h := Keeps.refl 36311231144063026 s
  delta applyChange
  repeat' first
    | with_reducible assumption
    | ((try lift_lets -underBinder); intro (x : State); refine have hx : Keeps 36311231144063026 s x := ?_; ?_; rotate_left; clear_value x; rotate_right; dsimp -zeta only [x]; clear x)
    | ((try lift_lets -underBinder); intro x; clear_value x)
    | with_reducible apply Keeps.ite ?_ ?_
    | with_reducible apply Keeps.app ?_ (keeps_modWave ..) ?_
    | with_reducible apply Keeps.app ?_ (keeps_eventD ..) ?_
    | with_reducible apply Keeps.app ?_ (keeps_laneSetChanged ..) ?_
    | with_reducible apply Keeps.app ?_ (keeps_retireWave ..) ?_
    | with_reducible apply Keeps.app ?_ (keeps_eventMode ..) ?_
    | with_reducible apply Keeps.app ?_ (keeps_eventLaneRemoved ..) ?_
    | exact rfl
    | split

theorem keeps_rxAdvance : ∀ a0 s, Keeps 4294967296 s (rxAdvance a0 s) := by
  intro a0 s
  have h := Keeps.refl 4294967296 s
  delta rxAdvance
  repeat' first
    | with_reducible assumption
    | ((try lift_lets -underBinder); intro (x : State); refine have hx : Keeps 4294967296 s x := ?_; ?_; rotate_left; clear_value x; rotate_right; dsimp -zeta only [x]; clear x)
    | ((try lift_lets -underBinder); intro (x : State × _); refine have hx : Keeps 4294967296 s x.1 := ?_; ?_; rotate_left; clear_value x; rotate_right; dsimp -zeta only [x]; clear x)
    | ((try lift_lets -underBinder); intro x; clear_value x)
    | with_reducible apply Keeps.app ?_ (keeps_modPort ..) ?_
    | exact rfl
    | with_reducible apply Keeps.foldl ?_ _ _ ?_
    | with_reducible apply Keeps.foldlFst ?_ _ _ ?_
    | (intro _ _ _)

theorem keeps_locateLoss : ∀ a0 a1 s, Keeps 5648687154 s (locateLoss a0 a1 s) := by
  intro a0 a1 s
  have h := Keeps.refl 5648687154 s
  delta locateLoss
  repeat' first
    | with_reducible assumption
    | ((try lift_lets -underBinder); intro (x : State); refine have hx : Keeps 5648687154 s x := ?_; ?_; rotate_left; clear_value x; rotate_right; dsimp -zeta only [x]; clear x)
    | ((try lift_lets -underBinder); intro x; clear_value x)
    | with_reducible apply Keeps.ite ?_ ?_
    | with_reducible apply Keeps.app ?_ (keeps_eventD ..) ?_
    | with_reducible apply Keeps.app ?_ (keeps_modWave ..) ?_
    | exact rfl
    | split

theorem keeps_startSpare : ∀ a0 a1 a2 s, Keeps 4294967296 s (startSpare a0 a1 a2 s) := by
  intro a0 a1 a2 s
  have h := Keeps.refl 4294967296 s
  delta startSpare
  repeat' first
    | with_reducible assumption
    | ((try lift_lets -underBinder); intro x; clear_value x)
    | with_reducible apply Keeps.ite ?_ ?_
    | with_reducible apply Keeps.app ?_ (keeps_modWave ..) ?_
    | exact rfl
    | split

theorem keeps_retrySpares : ∀ a0 s, Keeps 4294967296 s (retrySpares a0 s) := by
  intro a0 s
  have h := Keeps.refl 4294967296 s
  delta retrySpares
  repeat' first
    | with_reducible assumption
    | with_reducible apply Keeps.ite ?_ ?_
    | with_reducible apply Keeps.app ?_ (keeps_startSpare ..) ?_
    | exact rfl
    | with_reducible apply Keeps.foldl ?_ _ _ ?_
    | with_reducible apply Keeps.foldlFst ?_ _ _ ?_
    | (intro _ _ _)
    | split
    | (dsimp -zeta only)

theorem keeps_takeMeasure : ∀ a0 a1 s, Keeps 5648687154 s (takeMeasure a0 a1 s) := by
  intro a0 a1 s
  have h := Keeps.refl 5648687154 s
  delta takeMeasure
  repeat' first
    | with_reducible assumption
    | ((try lift_lets -underBinder); intro (x : State); refine have hx : Keeps 5648687154 s x := ?_; ?_; rotate_left; clear_value x; rotate_right; dsimp -zeta only [x]; clear x)
    | ((try lift_lets -underBinder); intro (x : State × _); refine have hx : Keeps 5648687154 s x.1 := ?_; ?_; rotate_left; clear_value x; rotate_right; dsimp -zeta only [x]; clear x)
    | ((try lift_lets -underBinder); intro x; clear_value x)
    | with_reducible apply Keeps.ite ?_ ?_
    | with_reducible apply Keeps.app ?_ (keeps_modWave ..) ?_
    | with_reducible apply Keeps.app ?_ (keeps_locateLoss ..) ?_
    | exact rfl
    | with_reducible apply Keeps.foldl ?_ _ _ ?_
    | with_reducible apply Keeps.foldlFst ?_ _ _ ?_
    | (intro _ _ _)
    | split

theorem keeps_eventHold : ∀ a0 a1 a2 a3 s, Keeps 5648687154 s (eventHold a0 a1 a2 a3 s) := by
  intro a0 a1 a2 a3 s
  have h := Keeps.refl 5648687154 s
  delta eventHold
  repeat' first
    | with_reducible assumption
    | ((try lift_lets -underBinder); intro x; clear_value x)
    | with_reducible apply Keeps.app ?_ (keeps_eventD ..) ?_
    | with_reducible apply Keeps.app ?_ (keeps_modPort ..) ?_
    | exact rfl

theorem keeps_enterHold : ∀ a0 a1 a2 a3 s, Keeps 5648687154 s (enterHold a0 a1 a2 a3 s) := by
  intro a0 a1 a2 a3 s
  have h := Keeps.refl 5648687154 s
  delta enterHold
  repeat' first
    | with_reducible assumption
    | ((try lift_lets -underBinder); intro (x : State); refine have hx : Keeps 5648687154 s x := ?_; ?_; rotate_left; clear_value x; rotate_right; dsimp -zeta only [x]; clear x)
    | ((try lift_lets -underBinder); intro x; clear_value x)
    | with_reducible apply Keeps.ite ?_ ?_
    | with_reducible apply Keeps.app ?_ (keeps_eventHold ..) ?_
    | with_reducible apply Keeps.app ?_ (keeps_proposeChange ..) ?_
    | with_reducible apply Keeps.app ?_ (keeps_modWave ..) ?_
    | exact rfl
    | split

theorem keeps_leaveHold : ∀ a0 a1 a2 s, Keeps 4294967296 s (leaveHold a0 a1 a2 s) := by
  intro a0 a1 a2 s
  have h := Keeps.refl 4294967296 s
  delta leaveHold
  repeat' first
    | with_reducible assumption
    | ((try lift_lets -underBinder); intro (x : State); refine have hx : Keeps 4294967296 s x := ?_; ?_; rotate_left; clear_value x; rotate_right; dsimp -zeta only [x]; clear x)
    | ((try lift_lets -underBinder); intro x; clear_value x)
    | with_reducible apply Keeps.ite ?_ ?_
    | with_reducible apply Keeps.app ?_ (keeps_modWave ..) ?_
    | with_reducible apply Keeps.app ?_ (keeps_proposeChange ..) ?_
    | exact rfl
    | split

theorem keeps_retrainAlone : ∀ a0 a1 a2 a3 a4 s, Keeps 4294967296 s (retrainAlone a0 a1 a2 a3 a4 s) := by
  intro a0 a1 a2 a3 a4 s
  have h := Keeps.refl 4294967296 s
  delta retrainAlone
  repeat' first
    | with_reducible assumption
    | ((try lift_lets -underBinder); intro (x : State); refine have hx : Keeps 4294967296 s x := ?_; ?_; rotate_left; clear_value x; rotate_right; dsimp -zeta only [x]; clear x)
    | ((try lift_lets -underBinder); intro x; clear_value x)
    | with_reducible apply Keeps.ite ?_ ?_
    | with_reducible apply Keeps.app ?_ (keeps_modWave ..) ?_
    | with_reducible apply Keeps.app ?_ (keeps_proposeChange ..) ?_
    | exact rfl
    | split

theorem keeps_coldTrained : ∀ a0 a1 s, Keeps 36311231144063026 s (coldTrained a0 a1 s) := by
  intro a0 a1 s
  have h := Keeps.refl 36311231144063026 s
  delta coldTrained
  repeat' first
    | with_reducible assumption
    | ((try lift_lets -underBinder); intro (x : State); refine have hx : Keeps 36311231144063026 s x := ?_; ?_; rotate_left; clear_value x; rotate_right; dsimp -zeta only [x]; clear x)
    | ((try lift_lets -underBinder); intro (x : State × _); refine have hx : Keeps 36311231144063026 s x.1 := ?_; ?_; rotate_left; clear_value x; rotate_right; dsimp -zeta only [x]; clear x)
    | ((try lift_lets -underBinder); intro x; clear_value x)
    | with_reducible apply Keeps.ite ?_ ?_
    | with_reducible apply Keeps.app ?_ (keeps_modPort ..) ?_
    | with_reducible apply Keeps.app ?_ (keeps_afterLanes ..) ?_
    | with_reducible apply Keeps.app ?_ (keeps_eventLaneRemoved ..) ?_
    | with_reducible apply Keeps.app ?_ (keeps_recordRetired ..) ?_
    | with_reducible apply Keeps.app ?_ (keeps_laneSetChanged ..) ?_
    | with_reducible apply Keeps.app ?_ (keeps_eventD ..) ?_
    | exact rfl
    | with_reducible apply Keeps.foldl ?_ _ _ ?_
    | with_reducible apply Keeps.foldlFst ?_ _ _ ?_
    | (intro _ _ _)
    | split
    | (dsimp -zeta only)

theorem keeps_coldFailed : ∀ a0 a1 s, Keeps 5648687154 s (coldFailed a0 a1 s) := by
  intro a0 a1 s
  have h := Keeps.refl 5648687154 s
  delta coldFailed
  repeat' first
    | with_reducible assumption
    | ((try lift_lets -underBinder); intro x; clear_value x)
    | with_reducible apply Keeps.app ?_ (keeps_eventD ..) ?_
    | with_reducible apply Keeps.app ?_ (keeps_modPort ..) ?_
    | exact rfl

theorem keeps_fastRetrain : ∀ a0 a1 s, Keeps 5648687154 s (fastRetrain a0 a1 s) := by
  intro a0 a1 s
  have h := Keeps.refl 5648687154 s
  delta fastRetrain
  repeat' first
    | with_reducible assumption
    | ((try lift_lets -underBinder); intro (x : State); refine have hx : Keeps 5648687154 s x := ?_; ?_; rotate_left; clear_value x; rotate_right; dsimp -zeta only [x]; clear x)
    | ((try lift_lets -underBinder); intro (x : State × _); refine have hx : Keeps 5648687154 s x.1 := ?_; ?_; rotate_left; clear_value x; rotate_right; dsimp -zeta only [x]; clear x)
    | ((try lift_lets -underBinder); intro x; clear_value x)
    | with_reducible apply Keeps.ite ?_ ?_
    | with_reducible apply Keeps.app ?_ (keeps_eventD ..) ?_
    | with_reducible apply Keeps.app ?_ (keeps_modPort ..) ?_
    | exact rfl
    | with_reducible apply Keeps.foldl ?_ _ _ ?_
    | with_reducible apply Keeps.foldlFst ?_ _ _ ?_
    | (intro _ _ _)
    | split
    | (dsimp -zeta only)

theorem keeps_retrainLane : ∀ a0 a1 s a3, Keeps 36028802667782194 s (retrainLane a0 a1 s a3) := by
  intro a0 a1 s a3
  have h := Keeps.refl 36028802667782194 s
  delta retrainLane
  repeat' first
    | with_reducible assumption
    | ((try lift_lets -underBinder); intro (x : State); refine have hx : Keeps 36028802667782194 s x := ?_; ?_; rotate_left; clear_value x; rotate_right; dsimp -zeta only [x]; clear x)
    | ((try lift_lets -underBinder); intro x; clear_value x)
    | with_reducible apply Keeps.ite ?_ ?_
    | with_reducible apply Keeps.app ?_ (keeps_eventLaneRemoved ..) ?_
    | with_reducible apply Keeps.app ?_ (keeps_afterLanes ..) ?_
    | with_reducible apply Keeps.app ?_ (keeps_retireWave ..) ?_
    | with_reducible apply Keeps.app ?_ (keeps_eventMode ..) ?_
    | with_reducible apply Keeps.app ?_ (keeps_modWave ..) ?_
    | exact rfl
    | split
    | (dsimp -zeta only)

theorem keeps_fastRetrained : ∀ a0 a1 a2 s, Keeps 36311231144063026 s (fastRetrained a0 a1 a2 s) := by
  intro a0 a1 a2 s
  have h := Keeps.refl 36311231144063026 s
  delta fastRetrained
  repeat' first
    | with_reducible assumption
    | ((try lift_lets -underBinder); intro (x : State); refine have hx : Keeps 36311231144063026 s x := ?_; ?_; rotate_left; clear_value x; rotate_right; dsimp -zeta only [x]; clear x)
    | ((try lift_lets -underBinder); intro (x : State × _); refine have hx : Keeps 36311231144063026 s x.1 := ?_; ?_; rotate_left; clear_value x; rotate_right; dsimp -zeta only [x]; clear x)
    | ((try lift_lets -underBinder); intro x; clear_value x)
    | with_reducible apply Keeps.ite ?_ ?_
    | with_reducible apply Keeps.app ?_ (keeps_fastRetrain ..) ?_
    | with_reducible apply Keeps.app ?_ (keeps_portDown ..) ?_
    | with_reducible apply Keeps.app ?_ (keeps_laneSetChanged ..) ?_
    | with_reducible apply Keeps.app ?_ (keeps_retrainLane ..) ?_
    | with_reducible apply Keeps.app ?_ (keeps_modPort ..) ?_
    | exact rfl
    | with_reducible apply Keeps.foldl ?_ _ _ ?_
    | with_reducible apply Keeps.foldlFst ?_ _ _ ?_
    | (intro _ _ _)
    | split

end Sys2Proof.Machine
end

