-- ==== Sys2Proof/Laws/KeepsLink.lean ====
section
/-! SUPPORT. What the operations of Machine/Link.lean keep. -/

namespace Sys2Proof.Machine

set_option linter.unusedSimpArgs false
set_option linter.unusedVariables false

theorem keeps_deliverFlit : ∀ a0 a1 s, Keeps 4294967296 s (deliverFlit a0 a1 s) := by
  intro a0 a1 s
  have h := Keeps.refl 4294967296 s
  delta deliverFlit
  repeat' first
    | with_reducible assumption
    | ((try lift_lets -underBinder); intro (x : State); refine have hx : Keeps 4294967296 s x := ?_; ?_; rotate_left; clear_value x; rotate_right; dsimp -zeta only [x]; clear x)
    | ((try lift_lets -underBinder); intro x; clear_value x)
    | with_reducible apply Keeps.ite ?_ ?_
    | with_reducible apply Keeps.app ?_ (keeps_sendFlit ..) ?_
    | with_reducible apply Keeps.app ?_ (keeps_modPort ..) ?_
    | exact rfl
    | split

theorem keeps_nackReplay : ∀ a0 a1 a2 s, Keeps 36311231144063026 s (nackReplay a0 a1 a2 s) := by
  intro a0 a1 a2 s
  have h := Keeps.refl 36311231144063026 s
  delta nackReplay
  repeat' first
    | with_reducible assumption
    | ((try lift_lets -underBinder); intro (x : State); refine have hx : Keeps 36311231144063026 s x := ?_; ?_; rotate_left; clear_value x; rotate_right; dsimp -zeta only [x]; clear x)
    | ((try lift_lets -underBinder); intro x; clear_value x)
    | with_reducible apply Keeps.ite ?_ ?_
    | with_reducible apply Keeps.app ?_ (keeps_modPort ..) ?_
    | with_reducible apply Keeps.app ?_ (keeps_fastRetrained ..) ?_
    | exact rfl
    | split
    | (dsimp -zeta only)

theorem keeps_noteFar : ∀ a0 a1 s a3, Keeps 5648687154 s (noteFar a0 a1 s a3) := by
  intro a0 a1 s a3
  have h := Keeps.refl 5648687154 s
  delta noteFar
  repeat' first
    | with_reducible assumption
    | ((try lift_lets -underBinder); intro (x : State); refine have hx : Keeps 5648687154 s x := ?_; ?_; rotate_left; clear_value x; rotate_right; dsimp -zeta only [x]; clear x)
    | ((try lift_lets -underBinder); intro x; clear_value x)
    | with_reducible apply Keeps.ite ?_ ?_
    | with_reducible apply Keeps.app ?_ (keeps_modWave ..) ?_
    | with_reducible apply Keeps.app ?_ (keeps_enterHold ..) ?_
    | with_reducible apply Keeps.app ?_ (keeps_leaveHold ..) ?_
    | with_reducible apply Keeps.app ?_ (keeps_locateLoss ..) ?_
    | with_reducible apply Keeps.app ?_ (keeps_startSpare ..) ?_
    | exact rfl
    | split

theorem keeps_noteLaneMap : ∀ a0 a1 s, Keeps 4294967296 s (noteLaneMap a0 a1 s) := by
  intro a0 a1 s
  have h := Keeps.refl 4294967296 s
  delta noteLaneMap
  repeat' first
    | with_reducible assumption
    | ((try lift_lets -underBinder); intro (x : State); refine have hx : Keeps 4294967296 s x := ?_; ?_; rotate_left; clear_value x; rotate_right; dsimp -zeta only [x]; clear x)
    | ((try lift_lets -underBinder); intro (x : State × _); refine have hx : Keeps 4294967296 s x.1 := ?_; ?_; rotate_left; clear_value x; rotate_right; dsimp -zeta only [x]; clear x)
    | ((try lift_lets -underBinder); intro x; clear_value x)
    | with_reducible apply Keeps.app ?_ (keeps_modWave ..) ?_
    | exact rfl
    | with_reducible apply Keeps.foldl ?_ _ _ ?_
    | with_reducible apply Keeps.foldlFst ?_ _ _ ?_
    | (intro _ _ _)
    | (dsimp -zeta only)

theorem keeps_takeLcf : ∀ a0 a1 a2 s, Keeps 36311231144063026 s (takeLcf a0 a1 a2 s) := by
  intro a0 a1 a2 s
  have h := Keeps.refl 36311231144063026 s
  delta takeLcf
  repeat' first
    | with_reducible assumption
    | ((try lift_lets -underBinder); intro (x : State); refine have hx : Keeps 36311231144063026 s x := ?_; ?_; rotate_left; clear_value x; rotate_right; dsimp -zeta only [x]; clear x)
    | ((try lift_lets -underBinder); intro (x : State × _); refine have hx : Keeps 36311231144063026 s x.1 := ?_; ?_; rotate_left; clear_value x; rotate_right; dsimp -zeta only [x]; clear x)
    | ((try lift_lets -underBinder); intro x; clear_value x)
    | with_reducible apply Keeps.ite ?_ ?_
    | with_reducible apply Keeps.app ?_ (keeps_modPort ..) ?_
    | with_reducible apply Keeps.app ?_ (keeps_nackReplay ..) ?_
    | with_reducible apply Keeps.app ?_ (keeps_emptyCheck ..) ?_
    | with_reducible apply Keeps.app ?_ (keeps_retrySpares ..) ?_
    | with_reducible apply Keeps.app ?_ (keeps_noteFar ..) ?_
    | with_reducible apply Keeps.app ?_ (keeps_noteLaneMap ..) ?_
    | exact rfl
    | with_reducible apply Keeps.foldl ?_ _ _ ?_
    | with_reducible apply Keeps.foldlFst ?_ _ _ ?_
    | (intro _ _ _)
    | split
    | (dsimp -zeta only)

end Sys2Proof.Machine
end

