-- ==== Sys2Proof/Laws/KeepsHost.lean ====
section
/-! SUPPORT. What the operations of Machine/Host.lean keep. -/

namespace Sys2Proof.Machine

set_option linter.unusedSimpArgs false
set_option linter.unusedVariables false

theorem keeps_noRegister : ∀ a0 a1 s, Keeps 1353719858 s (noRegister a0 a1 s) := by
  intro a0 a1 s
  have h := Keeps.refl 1353719858 s
  delta noRegister
  repeat' first
    | with_reducible assumption
    | with_reducible apply Keeps.app ?_ (keeps_eventD ..) ?_
    | exact rfl

theorem keeps_misaligned : ∀ a0 a1 s, Keeps 1353719858 s (misaligned a0 a1 s) := by
  intro a0 a1 s
  have h := Keeps.refl 1353719858 s
  delta misaligned
  repeat' first
    | with_reducible assumption
    | with_reducible apply Keeps.app ?_ (keeps_eventD ..) ?_
    | exact rfl

theorem keeps_revector : ∀ a0 a1 s, Keeps 32 s (revector a0 a1 s) := by
  intro a0 a1 s
  have h := Keeps.refl 32 s
  delta revector
  repeat' first
    | with_reducible assumption
    | ((try lift_lets -underBinder); intro x; clear_value x)
    | with_reducible apply Keeps.ite ?_ ?_
    | exact rfl
    | with_reducible apply keeps_modPci ?_ ?_ ?_ ?_ ?_ ?_
    | ((with_reducible apply Or.inl); exact rfl)
    | ((with_reducible apply Or.inr); simp only [Part.same, and_self, modPci])
    | split

theorem keeps_writeQueueReg : ∀ a0 a1 a2 a3 s, Keeps 1056 s (writeQueueReg a0 a1 a2 a3 s) := by
  intro a0 a1 a2 a3 s
  have h := Keeps.refl 1056 s
  delta writeQueueReg
  repeat' first
    | with_reducible assumption
    | ((try lift_lets -underBinder); intro (x : State); refine have hx : Keeps 1056 s x := ?_; ?_; rotate_left; clear_value x; rotate_right; dsimp -zeta only [x]; clear x)
    | ((try lift_lets -underBinder); intro x; clear_value x)
    | with_reducible apply Keeps.ite ?_ ?_
    | with_reducible apply Keeps.app ?_ (keeps_setQueue ..) ?_
    | with_reducible apply Keeps.app ?_ (keeps_revector ..) ?_
    | exact rfl
    | split

theorem keeps_writeRespReg : ∀ a0 a1 a2 s, Keeps 8192 s (writeRespReg a0 a1 a2 s) := by
  intro a0 a1 a2 s
  have h := Keeps.refl 8192 s
  delta writeRespReg
  repeat' first
    | with_reducible assumption
    | ((try lift_lets -underBinder); intro (x : State); refine have hx : Keeps 8192 s x := ?_; ?_; rotate_left; clear_value x; rotate_right; dsimp -zeta only [x]; clear x)
    | ((try lift_lets -underBinder); intro x; clear_value x)
    | with_reducible apply Keeps.app ?_ (keeps_setResp ..) ?_
    | exact rfl

theorem keeps_writeMailReg : ∀ a0 a1 a2 a3 s, Keeps 4194304 s (writeMailReg a0 a1 a2 a3 s) := by
  intro a0 a1 a2 a3 s
  have h := Keeps.refl 4194304 s
  delta writeMailReg
  repeat' first
    | with_reducible assumption
    | ((try lift_lets -underBinder); intro x; clear_value x)
    | exact rfl
    | with_reducible apply keeps_modMem ?_ ?_ ?_ ?_ ?_ ?_ ?_ ?_ ?_
    | ((with_reducible apply Or.inl); exact rfl)
    | ((with_reducible apply Or.inr); simp only [Part.same, and_self, modMem])
    | (intro _; exact rfl)
    | (intro w; exact w)
    | exact fun h => memory_wf_put _ _ h
    | exact fun h => memory_wf_clear _ _ h
    | exact fun h => memory_wf_copy _ _ _ h
    | exact fun h => memory_wf_foldl (fun _ _ k => memory_wf_put _ _ k) _ _ (memory_wf_filter _ h)
    | exact fun h => memory_wf_foldl (fun _ _ k => memory_wf_put _ _ k) _ _ h

theorem keeps_writeWinReg : ∀ a0 a1 a2 s, Keeps 128 s (writeWinReg a0 a1 a2 s) := by
  intro a0 a1 a2 s
  have h := Keeps.refl 128 s
  delta writeWinReg
  repeat' first
    | with_reducible assumption
    | ((try lift_lets -underBinder); intro (x : State); refine have hx : Keeps 128 s x := ?_; ?_; rotate_left; clear_value x; rotate_right; dsimp -zeta only [x]; clear x)
    | ((try lift_lets -underBinder); intro x; clear_value x)
    | with_reducible apply Keeps.ite ?_ ?_
    | exact rfl
    | with_reducible apply keeps_modPci ?_ ?_ ?_ ?_ ?_ ?_
    | ((with_reducible apply Or.inl); exact rfl)
    | ((with_reducible apply Or.inr); simp only [Part.same, and_self, modPci])
    | split
    | (dsimp -zeta only)

theorem keeps_setDma : ∀ a0 a1 s, Keeps 256 s (setDma a0 a1 s) := by
  intro a0 a1 s
  have h := Keeps.refl 256 s
  delta setDma
  repeat' first
    | with_reducible assumption
    | ((try lift_lets -underBinder); intro x; clear_value x)
    | exact rfl
    | with_reducible apply keeps_modPci ?_ ?_ ?_ ?_ ?_ ?_
    | ((with_reducible apply Or.inl); exact rfl)
    | ((with_reducible apply Or.inr); simp only [Part.same, and_self, modPci])

theorem keeps_writeDmaReg : ∀ a0 a1 a2 a3 s, Keeps 288 s (writeDmaReg a0 a1 a2 a3 s) := by
  intro a0 a1 a2 a3 s
  have h := Keeps.refl 288 s
  delta writeDmaReg
  repeat' first
    | with_reducible assumption
    | ((try lift_lets -underBinder); intro (x : State); refine have hx : Keeps 288 s x := ?_; ?_; rotate_left; clear_value x; rotate_right; dsimp -zeta only [x]; clear x)
    | ((try lift_lets -underBinder); intro x; clear_value x)
    | with_reducible apply Keeps.ite ?_ ?_
    | with_reducible apply Keeps.app ?_ (keeps_setDma ..) ?_
    | with_reducible apply Keeps.app ?_ (keeps_revector ..) ?_
    | exact rfl
    | split

theorem keeps_unmaskVector : ∀ a0 a1 s, Keeps 32 s (unmaskVector a0 a1 s) := by
  intro a0 a1 s
  have h := Keeps.refl 32 s
  delta unmaskVector
  repeat' first
    | with_reducible assumption
    | ((try lift_lets -underBinder); intro (x : State); refine have hx : Keeps 32 s x := ?_; ?_; rotate_left; clear_value x; rotate_right; dsimp -zeta only [x]; clear x)
    | ((try lift_lets -underBinder); intro x; clear_value x)
    | with_reducible apply Keeps.ite ?_ ?_
    | with_reducible apply Keeps.app ?_ (keeps_setMsix ..) ?_
    | with_reducible apply Keeps.app ?_ (keeps_requestMsix ..) ?_
    | exact rfl
    | split

theorem keeps_writeMsixReg : ∀ a0 a1 a2 a3 a4 s, Keeps 32 s (writeMsixReg a0 a1 a2 a3 a4 s) := by
  intro a0 a1 a2 a3 a4 s
  have h := Keeps.refl 32 s
  delta writeMsixReg
  repeat' first
    | with_reducible assumption
    | ((try lift_lets -underBinder); intro (x : State); refine have hx : Keeps 32 s x := ?_; ?_; rotate_left; clear_value x; rotate_right; dsimp -zeta only [x]; clear x)
    | ((try lift_lets -underBinder); intro x; clear_value x)
    | with_reducible apply Keeps.ite ?_ ?_
    | with_reducible apply Keeps.app ?_ (keeps_setMsix ..) ?_
    | with_reducible apply Keeps.app ?_ (keeps_unmaskVector ..) ?_
    | exact rfl
    | split

theorem keeps_writeEvtReg : ∀ a0 a1 a2 s, Keeps 35184372088836 s (writeEvtReg a0 a1 a2 s) := by
  intro a0 a1 a2 s
  have h := Keeps.refl 35184372088836 s
  delta writeEvtReg
  repeat' first
    | with_reducible assumption
    | ((try lift_lets -underBinder); intro (x : State); refine have hx : Keeps 35184372088836 s x := ?_; ?_; rotate_left; clear_value x; rotate_right; dsimp -zeta only [x]; clear x)
    | ((try lift_lets -underBinder); intro x; clear_value x)
    | with_reducible apply Keeps.ite ?_ ?_
    | with_reducible apply Keeps.app ?_ (keeps_clampDevice ..) ?_
    | exact rfl
    | with_reducible apply keeps_modEvt ?_ ?_ ?_ ?_
    | ((with_reducible apply Or.inl); exact rfl)
    | ((with_reducible apply Or.inr); simp only [Part.same, and_self, modEvt])
    | split

theorem keeps_writePf : ∀ a0 a1 a2 s, Keeps 288265560528004516 s (writePf a0 a1 a2 s) := by
  intro a0 a1 a2 s
  have h := Keeps.refl 288265560528004516 s
  delta writePf
  repeat' first
    | with_reducible assumption
    | ((try lift_lets -underBinder); intro (x : State); refine have hx : Keeps 288265560528004516 s x := ?_; ?_; rotate_left; clear_value x; rotate_right; dsimp -zeta only [x]; clear x)
    | ((try lift_lets -underBinder); intro x; clear_value x)
    | with_reducible apply Keeps.ite ?_ ?_
    | with_reducible apply Keeps.app ?_ (keeps_writeQueueReg ..) ?_
    | with_reducible apply Keeps.app ?_ (keeps_writeRespReg ..) ?_
    | with_reducible apply Keeps.app ?_ (keeps_writeMailReg ..) ?_
    | with_reducible apply Keeps.app ?_ (keeps_writeWinReg ..) ?_
    | with_reducible apply Keeps.app ?_ (keeps_writeEvtReg ..) ?_
    | with_reducible apply Keeps.app ?_ (keeps_writeDmaReg ..) ?_
    | with_reducible apply Keeps.app ?_ (keeps_writeMsixReg ..) ?_
    | exact rfl
    | with_reducible apply keeps_modWmc ?_ ?_ ?_ ?_ ?_ ?_ ?_ ?_ ?_
    | ((with_reducible apply Or.inl); exact rfl)
    | ((with_reducible apply Or.inr); simp only [Part.same, and_self, modWmc])
    | split

theorem keeps_eventDma : ∀ a0 a1 a2 a3 s, Keeps 1353719858 s (eventDma a0 a1 a2 a3 s) := by
  intro a0 a1 a2 a3 s
  have h := Keeps.refl 1353719858 s
  delta eventDma
  repeat' first
    | with_reducible assumption
    | with_reducible apply Keeps.app ?_ (keeps_eventOn ..) ?_
    | exact rfl

theorem keeps_dmaMove : ∀ a0 a1 a2 a3 s, Keeps 1353719858 s ((dmaMove a0 a1 a2 a3 s).1) := by
  intro a0 a1 a2 a3 s
  have h := Keeps.refl 1353719858 s
  delta dmaMove
  repeat' first
    | with_reducible assumption
    | ((try lift_lets -underBinder); intro (x : State); refine have hx : Keeps 1353719858 s x := ?_; ?_; rotate_left; clear_value x; rotate_right; dsimp -zeta only [x]; clear x)
    | ((try lift_lets -underBinder); intro (x : State × _); refine have hx : Keeps 1353719858 s x.1 := ?_; ?_; rotate_left; clear_value x; rotate_right; dsimp -zeta only [x]; clear x)
    | ((try lift_lets -underBinder); intro x; clear_value x)
    | with_reducible apply Keeps.ite ?_ ?_
    | with_reducible apply Keeps.app ?_ (keeps_memWrite ..) ?_
    | with_reducible apply Keeps.app ?_ (keeps_touchRead ..) ?_
    | with_reducible apply Keeps.app ?_ (keeps_hostWriteRo ..) ?_
    | with_reducible apply Keeps.app ?_ (keeps_eventUnmapped ..) ?_
    | exact rfl
    | split
    | (dsimp -zeta only)

theorem keeps_dmaComplete : ∀ a0 a1 a2 s, Keeps 1353722162 s (dmaComplete a0 a1 a2 s) := by
  intro a0 a1 a2 s
  have h := Keeps.refl 1353722162 s
  delta dmaComplete
  repeat' first
    | with_reducible assumption
    | ((try lift_lets -underBinder); intro (x : State); refine have hx : Keeps 1353722162 s x := ?_; ?_; rotate_left; clear_value x; rotate_right; dsimp -zeta only [x]; clear x)
    | ((try lift_lets -underBinder); intro x; clear_value x)
    | with_reducible apply Keeps.ite ?_ ?_
    | with_reducible apply Keeps.app ?_ (keeps_hostWrite ..) ?_
    | with_reducible apply Keeps.app ?_ (keeps_setDma ..) ?_
    | with_reducible apply Keeps.app ?_ (keeps_setKeeper ..) ?_
    | with_reducible apply Keeps.app ?_ (keeps_eventKeeper ..) ?_
    | with_reducible apply Keeps.app ?_ (keeps_raiseVector ..) ?_
    | exact rfl
    | split

theorem keeps_abortDma : ∀ a0 s, Keeps 1353720114 s (abortDma a0 s) := by
  intro a0 s
  have h := Keeps.refl 1353720114 s
  delta abortDma
  repeat' first
    | with_reducible assumption
    | ((try lift_lets -underBinder); intro (x : State); refine have hx : Keeps 1353720114 s x := ?_; ?_; rotate_left; clear_value x; rotate_right; dsimp -zeta only [x]; clear x)
    | ((try lift_lets -underBinder); intro (x : State × _); refine have hx : Keeps 1353720114 s x.1 := ?_; ?_; rotate_left; clear_value x; rotate_right; dsimp -zeta only [x]; clear x)
    | ((try lift_lets -underBinder); intro x; clear_value x)
    | with_reducible apply Keeps.app ?_ (keeps_dmaMove ..) ?_
    | with_reducible apply Keeps.app ?_ (keeps_setDma ..) ?_
    | ((with_reducible apply Keeps.outPair); assumption)
    | exact rfl
    | split
    | (dsimp -zeta only)

end Sys2Proof.Machine
end

