-- ==== Sys2Proof/Laws/KeepsPartition.lean ====
section
/-! SUPPORT. What the operations of Machine/Partition.lean keep. -/

namespace Sys2Proof.Machine

set_option linter.unusedSimpArgs false
set_option linter.unusedVariables false

theorem keeps_grantQuotas : ∀ s, Keeps 1420828722 s (grantQuotas s) := by
  intro s
  have h := Keeps.refl 1420828722 s
  delta grantQuotas
  repeat' first
    | with_reducible assumption
    | ((try lift_lets -underBinder); intro (x : State); refine have hx : Keeps 1420828722 s x := ?_; ?_; rotate_left; clear_value x; rotate_right; dsimp -zeta only [x]; clear x)
    | ((try lift_lets -underBinder); intro (x : State × _); refine have hx : Keeps 1420828722 s x.1 := ?_; ?_; rotate_left; clear_value x; rotate_right; dsimp -zeta only [x]; clear x)
    | ((try lift_lets -underBinder); intro x; clear_value x)
    | with_reducible apply Keeps.app ?_ (keeps_eventBatch ..) ?_
    | exact rfl
    | with_reducible apply keeps_modGab ?_ ?_ ?_
    | ((with_reducible apply Or.inl); exact rfl)
    | ((with_reducible apply Or.inr); simp only [Part.same, and_self, modGab])
    | with_reducible apply Keeps.foldl ?_ _ _ ?_
    | with_reducible apply Keeps.foldlFst ?_ _ _ ?_
    | (intro _ _ _)
    | (dsimp -zeta only)

theorem keeps_unbindGab : ∀ a0 s, Keeps 201326592 s (unbindGab a0 s) := by
  intro a0 s
  have h := Keeps.refl 201326592 s
  delta unbindGab
  repeat' first
    | with_reducible assumption
    | ((try lift_lets -underBinder); intro x; clear_value x)
    | exact rfl
    | with_reducible apply keeps_modGab ?_ ?_ ?_
    | ((with_reducible apply Or.inl); exact rfl)
    | ((with_reducible apply Or.inr); simp only [Part.same, and_self, modGab])

theorem keeps_haltPartition : ∀ a0 s, Keeps 144115189429613882 s (haltPartition a0 s) := by
  intro a0 s
  have h := Keeps.refl 144115189429613882 s
  delta haltPartition
  repeat' first
    | with_reducible assumption
    | ((try lift_lets -underBinder); intro (x : State); refine have hx : Keeps 144115189429613882 s x := ?_; ?_; rotate_left; clear_value x; rotate_right; dsimp -zeta only [x]; clear x)
    | ((try lift_lets -underBinder); intro (x : State × _); refine have hx : Keeps 144115189429613882 s x.1 := ?_; ?_; rotate_left; clear_value x; rotate_right; dsimp -zeta only [x]; clear x)
    | ((try lift_lets -underBinder); intro x; clear_value x)
    | with_reducible apply Keeps.app ?_ (keeps_abortQueue ..) ?_
    | with_reducible apply Keeps.app ?_ (keeps_abortDma ..) ?_
    | with_reducible apply Keeps.app ?_ (keeps_eventHalted ..) ?_
    | exact rfl
    | with_reducible apply keeps_modEvt ?_ ?_ ?_ ?_
    | ((with_reducible apply Or.inl); exact rfl)
    | ((with_reducible apply Or.inr); simp only [Part.same, and_self, modEvt])
    | with_reducible apply Keeps.foldl ?_ _ _ ?_
    | with_reducible apply Keeps.foldlFst ?_ _ _ ?_
    | (intro _ _ _)

theorem keeps_endHalt : ∀ a0 s, Keeps 10 s (endHalt a0 s) := by
  intro a0 s
  have h := Keeps.refl 10 s
  delta endHalt
  repeat' first
    | with_reducible assumption
    | ((try lift_lets -underBinder); intro x; clear_value x)
    | exact rfl
    | with_reducible apply keeps_modEvt ?_ ?_ ?_ ?_
    | ((with_reducible apply Or.inl); exact rfl)
    | ((with_reducible apply Or.inr); simp only [Part.same, and_self, modEvt])

theorem keeps_stampStop : ∀ a0 s, Keeps 2 s (stampStop a0 s) := by
  intro a0 s
  have h := Keeps.refl 2 s
  delta stampStop
  repeat' first
    | with_reducible assumption
    | ((try lift_lets -underBinder); intro x; clear_value x)
    | with_reducible apply Keeps.ite ?_ ?_
    | exact rfl
    | with_reducible apply keeps_modEvt ?_ ?_ ?_ ?_
    | ((with_reducible apply Or.inl); exact rfl)
    | ((with_reducible apply Or.inr); simp only [Part.same, and_self, modEvt])
    | split

theorem keeps_stopAll : ∀ s, Keeps 144115189429613882 s (stopAll s) := by
  intro s
  have h := Keeps.refl 144115189429613882 s
  delta stopAll
  repeat' first
    | with_reducible assumption
    | ((try lift_lets -underBinder); intro x; clear_value x)
    | with_reducible apply Keeps.ite ?_ ?_
    | with_reducible apply Keeps.app ?_ (keeps_haltPartition ..) ?_
    | with_reducible apply Keeps.app ?_ (keeps_stampStop ..) ?_
    | exact rfl
    | with_reducible apply keeps_modEvt ?_ ?_ ?_ ?_
    | ((with_reducible apply Or.inl); exact rfl)
    | ((with_reducible apply Or.inr); simp only [Part.same, and_self, modEvt])
    | with_reducible apply Keeps.foldl ?_ _ _ ?_
    | with_reducible apply Keeps.foldlFst ?_ _ _ ?_
    | (intro _ _ _)
    | split

theorem keeps_dropCommands : ∀ a0 s, Keeps 46080 s (dropCommands a0 s) := by
  intro a0 s
  have h := Keeps.refl 46080 s
  delta dropCommands
  repeat' first
    | with_reducible assumption
    | ((try lift_lets -underBinder); intro (x : State); refine have hx : Keeps 46080 s x := ?_; ?_; rotate_left; clear_value x; rotate_right; dsimp -zeta only [x]; clear x)
    | ((try lift_lets -underBinder); intro (x : State × _); refine have hx : Keeps 46080 s x.1 := ?_; ?_; rotate_left; clear_value x; rotate_right; dsimp -zeta only [x]; clear x)
    | ((try lift_lets -underBinder); intro x; clear_value x)
    | with_reducible apply Keeps.app ?_ (keeps_setQueue ..) ?_
    | exact rfl
    | with_reducible apply keeps_modTcs ?_ ?_ ?_ ?_ ?_ ?_ ?_
    | ((with_reducible apply Or.inl); exact rfl)
    | ((with_reducible apply Or.inr); simp only [Part.same, and_self, modTcs])
    | with_reducible apply Keeps.foldl ?_ _ _ ?_
    | with_reducible apply Keeps.foldlFst ?_ _ _ ?_
    | (intro _ _ _)

theorem keeps_dropFlash : ∀ a0 a1 s, Keeps 1894785074 s (dropFlash a0 a1 s) := by
  intro a0 a1 s
  have h := Keeps.refl 1894785074 s
  delta dropFlash
  repeat' first
    | with_reducible assumption
    | ((try lift_lets -underBinder); intro (x : State); refine have hx : Keeps 1894785074 s x := ?_; ?_; rotate_left; clear_value x; rotate_right; dsimp -zeta only [x]; clear x)
    | ((try lift_lets -underBinder); intro (x : State × _); refine have hx : Keeps 1894785074 s x.1 := ?_; ?_; rotate_left; clear_value x; rotate_right; dsimp -zeta only [x]; clear x)
    | ((try lift_lets -underBinder); intro x; clear_value x)
    | with_reducible apply Keeps.app ?_ (keeps_discardCommit ..) ?_
    | with_reducible apply Keeps.app ?_ (keeps_eventDiscarded ..) ?_
    | exact rfl
    | with_reducible apply keeps_modMem ?_ ?_ ?_ ?_ ?_ ?_ ?_ ?_ ?_
    | with_reducible apply keeps_modNvt ?_ ?_ ?_ ?_ ?_
    | ((with_reducible apply Or.inl); exact rfl)
    | ((with_reducible apply Or.inr); simp only [Part.same, and_self, modMem, modNvt])
    | (intro _; exact rfl)
    | (intro w; exact w)
    | exact fun h => memory_wf_put _ _ h
    | exact fun h => memory_wf_clear _ _ h
    | exact fun h => memory_wf_copy _ _ _ h
    | exact fun h => memory_wf_foldl (fun _ _ k => memory_wf_put _ _ k) _ _ (memory_wf_filter _ h)
    | exact fun h => memory_wf_foldl (fun _ _ k => memory_wf_put _ _ k) _ _ h
    | with_reducible apply Keeps.foldl ?_ _ _ ?_
    | with_reducible apply Keeps.foldlFst ?_ _ _ ?_
    | (intro _ _ _)
    | split

theorem keeps_dropCollectives : ∀ a0 s, Keeps 395136991232 s (dropCollectives a0 s) := by
  intro a0 s
  have h := Keeps.refl 395136991232 s
  delta dropCollectives
  repeat' first
    | with_reducible assumption
    | ((try lift_lets -underBinder); intro (x : State); refine have hx : Keeps 395136991232 s x := ?_; ?_; rotate_left; clear_value x; rotate_right; dsimp -zeta only [x]; clear x)
    | ((try lift_lets -underBinder); intro x; clear_value x)
    | exact rfl
    | with_reducible apply keeps_modCol ?_ ?_ ?_ ?_ ?_ ?_
    | with_reducible apply keeps_modFap ?_ ?_ ?_
    | ((with_reducible apply Or.inl); exact rfl)
    | ((with_reducible apply Or.inr); simp only [Part.same, and_self, modCol, modFap])
    | split
    | (dsimp -zeta only)

theorem keeps_clearArray : ∀ a0 s, Keeps 65536 s (clearArray a0 s) := by
  intro a0 s
  have h := Keeps.refl 65536 s
  delta clearArray
  repeat' first
    | with_reducible assumption
    | ((try lift_lets -underBinder); intro x; clear_value x)
    | with_reducible apply Keeps.app ?_ (keeps_modArr ..) ?_
    | exact rfl

theorem keeps_clearPartition : ∀ a0 s, Keeps 473499648 s (clearPartition a0 s) := by
  intro a0 s
  have h := Keeps.refl 473499648 s
  delta clearPartition
  repeat' first
    | with_reducible assumption
    | ((try lift_lets -underBinder); intro (x : State); refine have hx : Keeps 473499648 s x := ?_; ?_; rotate_left; clear_value x; rotate_right; dsimp -zeta only [x]; clear x)
    | ((try lift_lets -underBinder); intro (x : State × _); refine have hx : Keeps 473499648 s x.1 := ?_; ?_; rotate_left; clear_value x; rotate_right; dsimp -zeta only [x]; clear x)
    | ((try lift_lets -underBinder); intro x; clear_value x)
    | with_reducible apply Keeps.app ?_ (keeps_doUnmap ..) ?_
    | with_reducible apply Keeps.app ?_ (keeps_unbindGab ..) ?_
    | with_reducible apply Keeps.app ?_ (keeps_clearArray ..) ?_
    | exact rfl
    | with_reducible apply keeps_modTcs ?_ ?_ ?_ ?_ ?_ ?_ ?_
    | ((with_reducible apply Or.inl); exact rfl)
    | ((with_reducible apply Or.inr); simp only [Part.same, and_self, modTcs])
    | with_reducible apply Keeps.foldl ?_ _ _ ?_
    | with_reducible apply Keeps.foldlFst ?_ _ _ ?_
    | (intro _ _ _)

theorem keeps_clearCounters : ∀ a0 s, Keeps 4468415255281664 s (clearCounters a0 s) := by
  intro a0 s
  have h := Keeps.refl 4468415255281664 s
  delta clearCounters
  repeat' first
    | with_reducible assumption
    | ((try lift_lets -underBinder); intro (x : State); refine have hx : Keeps 4468415255281664 s x := ?_; ?_; rotate_left; clear_value x; rotate_right; dsimp -zeta only [x]; clear x)
    | ((try lift_lets -underBinder); intro (x : State × _); refine have hx : Keeps 4468415255281664 s x.1 := ?_; ?_; rotate_left; clear_value x; rotate_right; dsimp -zeta only [x]; clear x)
    | ((try lift_lets -underBinder); intro x; clear_value x)
    | exact rfl
    | with_reducible apply keeps_modCnt ?_ ?_ ?_ ?_ ?_ ?_ ?_ ?_ ?_
    | ((with_reducible apply Or.inl); exact rfl)
    | ((with_reducible apply Or.inr); simp only [Part.same, and_self, modCnt])
    | with_reducible apply Keeps.foldl ?_ _ _ ?_
    | with_reducible apply Keeps.foldlFst ?_ _ _ ?_
    | (intro _ _ _)

theorem keeps_clearFunction : ∀ a0 s, Keeps 160 s (clearFunction a0 s) := by
  intro a0 s
  have h := Keeps.refl 160 s
  delta clearFunction
  repeat' first
    | with_reducible assumption
    | ((try lift_lets -underBinder); intro x; clear_value x)
    | exact rfl
    | with_reducible apply keeps_modPci ?_ ?_ ?_ ?_ ?_ ?_
    | ((with_reducible apply Or.inl); exact rfl)
    | ((with_reducible apply Or.inr); simp only [Part.same, and_self, modPci])

theorem keeps_clearDmas : ∀ a0 s, Keeps 1353720114 s (clearDmas a0 s) := by
  intro a0 s
  have h := Keeps.refl 1353720114 s
  delta clearDmas
  repeat' first
    | with_reducible assumption
    | ((try lift_lets -underBinder); intro x; clear_value x)
    | with_reducible apply Keeps.app ?_ (keeps_abortDma ..) ?_
    | exact rfl
    | with_reducible apply keeps_modPci ?_ ?_ ?_ ?_ ?_ ?_
    | ((with_reducible apply Or.inl); exact rfl)
    | ((with_reducible apply Or.inr); simp only [Part.same, and_self, modPci])
    | with_reducible apply Keeps.foldl ?_ _ _ ?_
    | with_reducible apply Keeps.foldlFst ?_ _ _ ?_
    | (intro _ _ _)

theorem keeps_resetPartition : ∀ a0 a1 s, Keeps 148584000564870458 s (resetPartition a0 a1 s) := by
  intro a0 a1 s
  have h := Keeps.refl 148584000564870458 s
  delta resetPartition
  repeat' first
    | with_reducible assumption
    | ((try lift_lets -underBinder); intro (x : State); refine have hx : Keeps 148584000564870458 s x := ?_; ?_; rotate_left; clear_value x; rotate_right; dsimp -zeta only [x]; clear x)
    | ((try lift_lets -underBinder); intro x; clear_value x)
    | with_reducible apply Keeps.app ?_ (keeps_clearDmas ..) ?_
    | with_reducible apply Keeps.app ?_ (keeps_dropCommands ..) ?_
    | with_reducible apply Keeps.app ?_ (keeps_dropCollectives ..) ?_
    | with_reducible apply Keeps.app ?_ (keeps_dropFlash ..) ?_
    | with_reducible apply Keeps.app ?_ (keeps_clearCounters ..) ?_
    | with_reducible apply Keeps.app ?_ (keeps_clearPartition ..) ?_
    | with_reducible apply Keeps.app ?_ (keeps_endHalt ..) ?_
    | exact rfl
    | with_reducible apply keeps_modWmc ?_ ?_ ?_ ?_ ?_ ?_ ?_ ?_ ?_
    | with_reducible apply keeps_modEvt ?_ ?_ ?_ ?_
    | with_reducible apply keeps_modPci ?_ ?_ ?_ ?_ ?_ ?_
    | ((with_reducible apply Or.inl); exact rfl)
    | ((with_reducible apply Or.inr); simp only [Part.same, and_self, modEvt, modPci, modWmc])

theorem keeps_flrPartition : ∀ a0 a1 s, Keeps 148584000564870587 s (flrPartition a0 a1 s) := by
  intro a0 a1 s
  have h := Keeps.refl 148584000564870587 s
  delta flrPartition
  repeat' first
    | with_reducible assumption
    | ((try lift_lets -underBinder); intro (x : State); refine have hx : Keeps 148584000564870587 s x := ?_; ?_; rotate_left; clear_value x; rotate_right; dsimp -zeta only [x]; clear x)
    | ((try lift_lets -underBinder); intro x; clear_value x)
    | with_reducible apply Keeps.app ?_ (keeps_clearFunction ..) ?_
    | with_reducible apply Keeps.app ?_ (keeps_resetPartition ..) ?_
    | with_reducible apply Keeps.app ?_ (keeps_eventP ..) ?_
    | with_reducible apply Keeps.app ?_ (keeps_bumpFree ..) ?_
    | exact rfl

theorem keeps_clearPf : ∀ s, Keeps 998 s (clearPf s) := by
  intro s
  have h := Keeps.refl 998 s
  delta clearPf
  repeat' first
    | with_reducible assumption
    | ((try lift_lets -underBinder); intro (x : State); refine have hx : Keeps 998 s x := ?_; ?_; rotate_left; clear_value x; rotate_right; dsimp -zeta only [x]; clear x)
    | ((try lift_lets -underBinder); intro x; clear_value x)
    | exact rfl
    | with_reducible apply keeps_modEvt ?_ ?_ ?_ ?_
    | with_reducible apply keeps_modPci ?_ ?_ ?_ ?_ ?_ ?_
    | ((with_reducible apply Or.inl); exact rfl)
    | ((with_reducible apply Or.inr); simp only [Part.same, and_self, modEvt, modPci])

theorem keeps_endStaging : ∀ s, Keeps 144115188075855872 s (endStaging s) := by
  intro s
  have h := Keeps.refl 144115188075855872 s
  delta endStaging
  repeat' first
    | with_reducible assumption
    | ((try lift_lets -underBinder); intro x; clear_value x)
    | exact rfl
    | with_reducible apply keeps_modWmc ?_ ?_ ?_ ?_ ?_ ?_ ?_ ?_ ?_
    | ((with_reducible apply Or.inl); exact rfl)
    | ((with_reducible apply Or.inr); simp only [Part.same, and_self, modWmc])

end Sys2Proof.Machine
end

