-- ==== Sys2Proof/Laws/KeepsConfigSet.lean ====
section
/-! SUPPORT. What the operations of Machine/ConfigSet.lean keep. -/

namespace Sys2Proof.Machine

set_option linter.unusedSimpArgs false
set_option linter.unusedVariables false

theorem keeps_countClamps : ∀ a0 s, Keeps 35184372088832 s (countClamps a0 s) := by
  intro a0 s
  have h := Keeps.refl 35184372088832 s
  delta countClamps
  repeat' first
    | with_reducible assumption
    | ((try lift_lets -underBinder); intro (x : State); refine have hx : Keeps 35184372088832 s x := ?_; ?_; rotate_left; clear_value x; rotate_right; dsimp -zeta only [x]; clear x)
    | ((try lift_lets -underBinder); intro (x : State × _); refine have hx : Keeps 35184372088832 s x.1 := ?_; ?_; rotate_left; clear_value x; rotate_right; dsimp -zeta only [x]; clear x)
    | ((try lift_lets -underBinder); intro x; clear_value x)
    | with_reducible apply Keeps.ite ?_ ?_
    | with_reducible apply Keeps.app ?_ (keeps_clampPart ..) ?_
    | with_reducible apply Keeps.app ?_ (keeps_clampDevice ..) ?_
    | exact rfl
    | with_reducible apply Keeps.foldl ?_ _ _ ?_
    | with_reducible apply Keeps.foldlFst ?_ _ _ ?_
    | (intro _ _ _)
    | split
    | (dsimp -zeta only)

theorem keeps_activateSet : ∀ a0 s, Keeps 72059793061183488 s (activateSet a0 s) := by
  intro a0 s
  have h := Keeps.refl 72059793061183488 s
  delta activateSet
  repeat' first
    | with_reducible assumption
    | ((try lift_lets -underBinder); intro x; clear_value x)
    | exact rfl
    | with_reducible apply keeps_modWmc ?_ ?_ ?_ ?_ ?_ ?_ ?_ ?_ ?_
    | with_reducible apply keeps_modSec ?_ ?_ ?_ ?_
    | ((with_reducible apply Or.inl); exact rfl)
    | ((with_reducible apply Or.inr); simp only [Part.same, and_self, modSec, modWmc])
    | exact ⟨BitVec.and_self, fun k => k⟩
    | exact ⟨BitVec.and_self, fun _ => rfl⟩
    | exact ⟨and_or_absorb _ _, fun k => k⟩

theorem keeps_makeActive : ∀ a0 s, Keeps 72094977433272320 s (makeActive a0 s) := by
  intro a0 s
  have h := Keeps.refl 72094977433272320 s
  delta makeActive
  repeat' first
    | with_reducible assumption
    | with_reducible apply Keeps.app ?_ (keeps_countClamps ..) ?_
    | with_reducible apply Keeps.app ?_ (keeps_activateSet ..) ?_
    | exact rfl

theorem keeps_capLane : ∀ a0 a1 s a3, Keeps 5648687155 s (capLane a0 a1 s a3) := by
  intro a0 a1 s a3
  have h := Keeps.refl 5648687155 s
  delta capLane
  repeat' first
    | with_reducible assumption
    | ((try lift_lets -underBinder); intro (x : State); refine have hx : Keeps 5648687155 s x := ?_; ?_; rotate_left; clear_value x; rotate_right; dsimp -zeta only [x]; clear x)
    | ((try lift_lets -underBinder); intro x; clear_value x)
    | with_reducible apply Keeps.ite ?_ ?_
    | with_reducible apply Keeps.app ?_ (keeps_eventMode ..) ?_
    | with_reducible apply Keeps.app ?_ (keeps_modWave ..) ?_
    | with_reducible apply Keeps.app ?_ (keeps_bumpFree ..) ?_
    | exact rfl
    | split
    | (dsimp -zeta only)

theorem keeps_retrainForSet : ∀ a0 s a2, Keeps 282434124967987 s (retrainForSet a0 s a2) := by
  intro a0 s a2
  have h := Keeps.refl 282434124967987 s
  delta retrainForSet
  repeat' first
    | with_reducible assumption
    | ((try lift_lets -underBinder); intro (x : State); refine have hx : Keeps 282434124967987 s x := ?_; ?_; rotate_left; clear_value x; rotate_right; dsimp -zeta only [x]; clear x)
    | ((try lift_lets -underBinder); intro (x : State × _); refine have hx : Keeps 282434124967987 s x.1 := ?_; ?_; rotate_left; clear_value x; rotate_right; dsimp -zeta only [x]; clear x)
    | ((try lift_lets -underBinder); intro x; clear_value x)
    | with_reducible apply Keeps.ite ?_ ?_
    | with_reducible apply Keeps.app ?_ (keeps_laneSetChanged ..) ?_
    | with_reducible apply Keeps.app ?_ (keeps_capLane ..) ?_
    | with_reducible apply Keeps.app ?_ (keeps_fastRetrain ..) ?_
    | exact rfl
    | with_reducible apply Keeps.foldl ?_ _ _ ?_
    | with_reducible apply Keeps.foldlFst ?_ _ _ ?_
    | (intro _ _ _)
    | split

theorem keeps_moveArray : ∀ s a1, Keeps 2251799813750784 s (moveArray s a1) := by
  intro s a1
  have h := Keeps.refl 2251799813750784 s
  delta moveArray
  repeat' first
    | with_reducible assumption
    | ((try lift_lets -underBinder); intro x; clear_value x)
    | with_reducible apply Keeps.app ?_ (keeps_clearArray ..) ?_
    | exact rfl
    | with_reducible apply keeps_modCnt ?_ ?_ ?_ ?_ ?_ ?_ ?_ ?_ ?_
    | ((with_reducible apply Or.inl); exact rfl)
    | ((with_reducible apply Or.inr); simp only [Part.same, and_self, modCnt])
    | with_reducible apply Keeps.foldl ?_ _ _ ?_
    | with_reducible apply Keeps.foldlFst ?_ _ _ ?_
    | (intro _ _ _)

theorem keeps_applySet : ∀ a0 s, Keeps 220644356283563451 s (applySet a0 s) := by
  intro a0 s
  have h := Keeps.refl 220644356283563451 s
  delta applySet
  repeat' first
    | with_reducible assumption
    | ((try lift_lets -underBinder); intro (x : State); refine have hx : Keeps 220644356283563451 s x := ?_; ?_; rotate_left; clear_value x; rotate_right; dsimp -zeta only [x]; clear x)
    | ((try lift_lets -underBinder); intro (x : State × _); refine have hx : Keeps 220644356283563451 s x.1 := ?_; ?_; rotate_left; clear_value x; rotate_right; dsimp -zeta only [x]; clear x)
    | ((try lift_lets -underBinder); intro x; clear_value x)
    | with_reducible apply Keeps.app ?_ (keeps_flrPartition ..) ?_
    | with_reducible apply Keeps.app ?_ (keeps_activateSet ..) ?_
    | with_reducible apply Keeps.app ?_ (keeps_moveArray ..) ?_
    | with_reducible apply Keeps.app ?_ (keeps_unbindGab ..) ?_
    | with_reducible apply Keeps.app ?_ (keeps_resetPartition ..) ?_
    | with_reducible apply Keeps.app ?_ (keeps_retrainForSet ..) ?_
    | with_reducible apply Keeps.app ?_ (keeps_grantQuotas ..) ?_
    | with_reducible apply Keeps.app ?_ (keeps_countClamps ..) ?_
    | exact rfl
    | with_reducible apply keeps_modTcs ?_ ?_ ?_ ?_ ?_ ?_ ?_
    | with_reducible apply keeps_modMem ?_ ?_ ?_ ?_ ?_ ?_ ?_ ?_ ?_
    | ((with_reducible apply Or.inl); exact rfl)
    | ((with_reducible apply Or.inr); simp only [Part.same, and_self, modMem, modTcs])
    | (intro _; exact rfl)
    | (intro w; exact w)
    | exact fun h => memory_wf_put _ _ h
    | exact fun h => memory_wf_clear _ _ h
    | exact fun h => memory_wf_copy _ _ _ h
    | exact fun h => memory_wf_foldl (fun _ _ k => memory_wf_put _ _ k) _ _ (memory_wf_filter _ h)
    | exact fun h => memory_wf_foldl (fun _ _ k => memory_wf_put _ _ k) _ _ h
    | with_reducible apply Keeps.foldl ?_ _ _ ?_
    | with_reducible apply Keeps.foldlFst ?_ _ _ ?_
    | (intro _ _ _)
    | (dsimp -zeta only)

end Sys2Proof.Machine
end

