-- ==== Sys2Proof/Laws/KeepsManagement.lean ====
section
/-! SUPPORT. What the operations of Machine/Management.lean keep. -/

namespace Sys2Proof.Machine

set_option linter.unusedSimpArgs false
set_option linter.unusedVariables false

theorem keeps_reply : ∀ a0 a1 a2 s, Keeps 576460752303423488 s (reply a0 a1 a2 s) := by
  intro a0 a1 a2 s
  have h := Keeps.refl 576460752303423488 s
  delta reply
  repeat' first
    | with_reducible assumption
    | ((try lift_lets -underBinder); intro x; clear_value x)
    | exact rfl
    | with_reducible apply keeps_modWmc ?_ ?_ ?_ ?_ ?_ ?_ ?_ ?_ ?_
    | ((with_reducible apply Or.inl); exact rfl)
    | ((with_reducible apply Or.inr); simp only [Part.same, and_self, modWmc])

theorem keeps_served {m : Nat} {s0 : State} (path : MgmtPath) (s body : State) (hb : Keeps m s0 body) (h : Keeps m s0 s) :
    Keeps m s0 (served path s body) := Keeps.ite hb h

theorem keeps_writeCfgSlot (c : ConfigSet) (s : State) : Keeps 36028797018963968 s (writeCfgSlot c s) := by
  unfold writeCfgSlot
  extract_lets rank v
  refine keeps_modWmc (Keeps.refl _ s) (.inr ?_) (.inr ?_) (.inr ?_) (.inl rfl) (.inr ?_) (.inr ?_) (.inr ?_) (.inr ?_)
  all_goals simp only [Part.same, modWmc, and_self]
  all_goals split <;> simp

theorem keeps_abandonSwap : ∀ a0 s, Keeps 144115189429575730 s (abandonSwap a0 s) := by
  intro a0 s
  have h := Keeps.refl 144115189429575730 s
  delta abandonSwap
  repeat' first
    | with_reducible assumption
    | ((try lift_lets -underBinder); intro (x : State); refine have hx : Keeps 144115189429575730 s x := ?_; ?_; rotate_left; clear_value x; rotate_right; dsimp -zeta only [x]; clear x)
    | ((try lift_lets -underBinder); intro x; clear_value x)
    | with_reducible apply Keeps.app ?_ (keeps_eventD ..) ?_
    | exact rfl
    | with_reducible apply keeps_modWmc ?_ ?_ ?_ ?_ ?_ ?_ ?_ ?_ ?_
    | ((with_reducible apply Or.inl); exact rfl)
    | ((with_reducible apply Or.inr); simp only [Part.same, and_self, modWmc])
    | split

theorem keeps_swapIn : ∀ a0 a1 a2 s, Keeps 229651555538304443 s (swapIn a0 a1 a2 s) := by
  intro a0 a1 a2 s
  have h := Keeps.refl 229651555538304443 s
  delta swapIn
  repeat' first
    | with_reducible assumption
    | ((try lift_lets -underBinder); intro (x : State); refine have hx : Keeps 229651555538304443 s x := ?_; ?_; rotate_left; clear_value x; rotate_right; dsimp -zeta only [x]; clear x)
    | ((try lift_lets -underBinder); intro x; clear_value x)
    | with_reducible apply Keeps.app ?_ (keeps_applySet ..) ?_
    | with_reducible apply Keeps.app ?_ (keeps_eventD ..) ?_
    | exact rfl
    | with_reducible apply keeps_modWmc ?_ ?_ ?_ ?_ ?_ ?_ ?_ ?_ ?_
    | ((with_reducible apply Or.inl); exact rfl)
    | ((with_reducible apply Or.inr); simp only [Part.same, and_self, modWmc])

theorem keeps_servedFw {m : Nat} {s0 : State} (path : MgmtPath) (s body : State) (hb : Keeps m s0 body) (h : Keeps m s0 s) :
    Keeps m s0 (servedFw path s body) := Keeps.ite hb h

theorem keeps_setSlot (k : Nat) (v : ImageSlot) (s : State) : Keeps 18014398509481984 s (setSlot k v s) := by
  unfold setSlot
  refine keeps_modWmc (Keeps.refl _ s) (.inr ?_) (.inr ?_) (.inl rfl) (.inr ?_) (.inr ?_) (.inr ?_) (.inr ?_) (.inr ?_)
  all_goals simp only [Part.same, modWmc, and_self]
  all_goals split <;> simp

theorem keeps_eventUpdate : ∀ a0 a1 a2 a3 s, Keeps 1353719858 s (eventUpdate a0 a1 a2 a3 s) := by
  intro a0 a1 a2 a3 s
  have h := Keeps.refl 1353719858 s
  delta eventUpdate
  repeat' first
    | with_reducible assumption
    | with_reducible apply Keeps.app ?_ (keeps_eventD ..) ?_
    | exact rfl

theorem keeps_eventVerify : ∀ a0 a1 a2 s, Keeps 1353719858 s (eventVerify a0 a1 a2 s) := by
  intro a0 a1 a2 s
  have h := Keeps.refl 1353719858 s
  delta eventVerify
  repeat' first
    | with_reducible assumption
    | with_reducible apply Keeps.app ?_ (keeps_eventD ..) ?_
    | exact rfl

end Sys2Proof.Machine
end

