-- ==== Sys2Proof/Laws/KeepsSecurity.lean ====
section
/-! SUPPORT. What the operations of Machine/Security.lean keep. -/

namespace Sys2Proof.Machine

set_option linter.unusedSimpArgs false
set_option linter.unusedVariables false

theorem keeps_spdm {m : Nat} {s0 : State} (s : Sys2Proof.Machine.State) (a1 : Sys2Proof.Machine.State → Sys2Proof.Machine.State)
    (hm : (Nat.land 0 m == 0) = true)
    (hb1 : ∀  t, Keeps m s0 t → Keeps m s0 (a1  t)) (h : Keeps m s0 s) :
    Keeps m s0 (spdm s a1) := by
  delta spdm
  repeat' first
    | with_reducible assumption
    | with_reducible apply Keeps.ite ?_ ?_
    | with_reducible apply hb1
    | exact sub_trans (g := 0) rfl hm
    | exact .inl (bit_of_sub (g := 0) rfl hm)
    | (intro _)
    | exact rfl
    | split

theorem keeps_objectReply : ∀ a0 a1 a2 a3 s, Keeps 576460752303423488 s (objectReply a0 a1 a2 a3 s) := by
  intro a0 a1 a2 a3 s
  have h := Keeps.refl 576460752303423488 s
  delta objectReply
  repeat' first
    | with_reducible assumption
    | with_reducible apply Keeps.ite ?_ ?_
    | with_reducible apply Keeps.app ?_ (keeps_reply ..) ?_
    | exact rfl
    | split

theorem keeps_buildReport : ∀ a0 s, Keeps 2199023255552 s (buildReport a0 s) := by
  intro a0 s
  have h := Keeps.refl 2199023255552 s
  delta buildReport
  repeat' first
    | with_reducible assumption
    | ((try lift_lets -underBinder); intro (x : State); refine have hx : Keeps 2199023255552 s x := ?_; ?_; rotate_left; clear_value x; rotate_right; dsimp -zeta only [x]; clear x)
    | ((try lift_lets -underBinder); intro x; clear_value x)
    | exact rfl
    | with_reducible apply keeps_modSec ?_ ?_ ?_ ?_
    | ((with_reducible apply Or.inl); exact rfl)
    | ((with_reducible apply Or.inr); simp only [Part.same, and_self, modSec])
    | exact ⟨BitVec.and_self, fun k => k⟩
    | exact ⟨BitVec.and_self, fun _ => rfl⟩
    | exact ⟨and_or_absorb _ _, fun k => k⟩

theorem keeps_eraseKey : ∀ a0 a1 s, Keeps 2200913846322 s (eraseKey a0 a1 s) := by
  intro a0 a1 s
  have h := Keeps.refl 2200913846322 s
  delta eraseKey
  repeat' first
    | with_reducible assumption
    | ((try lift_lets -underBinder); intro (x : State); refine have hx : Keeps 2200913846322 s x := ?_; ?_; rotate_left; clear_value x; rotate_right; dsimp -zeta only [x]; clear x)
    | ((try lift_lets -underBinder); intro (x : State × _); refine have hx : Keeps 2200913846322 s x.1 := ?_; ?_; rotate_left; clear_value x; rotate_right; dsimp -zeta only [x]; clear x)
    | ((try lift_lets -underBinder); intro x; clear_value x)
    | with_reducible apply Keeps.app ?_ (keeps_freeImage ..) ?_
    | with_reducible apply Keeps.app ?_ (keeps_eventP ..) ?_
    | exact rfl
    | with_reducible apply keeps_modNvt ?_ ?_ ?_ ?_ ?_
    | with_reducible apply keeps_modSec ?_ ?_ ?_ ?_
    | ((with_reducible apply Or.inl); exact rfl)
    | ((with_reducible apply Or.inr); simp only [Part.same, and_self, modNvt, modSec])
    | exact ⟨BitVec.and_self, fun k => k⟩
    | exact ⟨BitVec.and_self, fun _ => rfl⟩
    | exact ⟨and_or_absorb _ _, fun k => k⟩
    | with_reducible apply Keeps.foldl ?_ _ _ ?_
    | with_reducible apply Keeps.foldlFst ?_ _ _ ?_
    | (intro _ _ _)

end Sys2Proof.Machine
end

