-- ==== Sys2Proof/Laws/KeepsPower.lean ====
section
/-! SUPPORT. What the operations of Machine/Power.lean keep. -/

namespace Sys2Proof.Machine

set_option linter.unusedSimpArgs false
set_option linter.unusedVariables false

theorem keeps_modRow : ∀ a0 a1 s, Keeps 4398046511104 s (modRow a0 a1 s) := by
  intro a0 a1 s
  have h := Keeps.refl 4398046511104 s
  delta modRow
  repeat' first
    | with_reducible assumption
    | ((try lift_lets -underBinder); intro x; clear_value x)
    | exact rfl
    | with_reducible apply keeps_modPwr ?_ ?_
    | ((with_reducible apply Or.inl); exact rfl)
    | ((with_reducible apply Or.inr); simp only [Part.same, and_self, modPwr])

theorem keeps_startRamp : ∀ s a1, Keeps 4398046511104 s (startRamp s a1) := by
  intro s a1
  have h := Keeps.refl 4398046511104 s
  delta startRamp
  repeat' first
    | with_reducible assumption
    | ((try lift_lets -underBinder); intro x; clear_value x)
    | with_reducible apply Keeps.ite ?_ ?_
    | with_reducible apply Keeps.app ?_ (keeps_modRow ..) ?_
    | exact rfl
    | split

theorem keeps_startRamps : ∀ s, Keeps 4398046511104 s (startRamps s) := by
  intro s
  have h := Keeps.refl 4398046511104 s
  delta startRamps
  repeat' first
    | with_reducible assumption
    | with_reducible apply Keeps.app ?_ (keeps_startRamp ..) ?_
    | exact rfl
    | with_reducible apply Keeps.foldl ?_ _ _ ?_
    | with_reducible apply Keeps.foldlFst ?_ _ _ ?_
    | (intro _ _ _)

theorem keeps_thermalRow : ∀ a0 s a2, Keeps 4398046511104 s (thermalRow a0 s a2) := by
  intro a0 s a2
  have h := Keeps.refl 4398046511104 s
  delta thermalRow
  repeat' first
    | with_reducible assumption
    | ((try lift_lets -underBinder); intro (x : State); refine have hx : Keeps 4398046511104 s x := ?_; ?_; rotate_left; clear_value x; rotate_right; dsimp -zeta only [x]; clear x)
    | ((try lift_lets -underBinder); intro x; clear_value x)
    | with_reducible apply Keeps.ite ?_ ?_
    | with_reducible apply Keeps.app ?_ (keeps_modRow ..) ?_
    | exact rfl
    | split

theorem keeps_noteThrottle : ∀ a0 s, Keeps 4399400230963 s (noteThrottle a0 s) := by
  intro a0 s
  have h := Keeps.refl 4399400230963 s
  delta noteThrottle
  repeat' first
    | with_reducible assumption
    | ((try lift_lets -underBinder); intro (x : State); refine have hx : Keeps 4399400230963 s x := ?_; ?_; rotate_left; clear_value x; rotate_right; dsimp -zeta only [x]; clear x)
    | ((try lift_lets -underBinder); intro x; clear_value x)
    | with_reducible apply Keeps.ite ?_ ?_
    | with_reducible apply Keeps.app ?_ (keeps_bumpFree ..) ?_
    | with_reducible apply Keeps.app ?_ (keeps_eventD ..) ?_
    | exact rfl
    | with_reducible apply keeps_modPwr ?_ ?_
    | ((with_reducible apply Or.inl); exact rfl)
    | ((with_reducible apply Or.inr); simp only [Part.same, and_self, modPwr])
    | split

theorem keeps_setPower : ∀ a0 s, Keeps 4398046511104 s (setPower a0 s) := by
  intro a0 s
  have h := Keeps.refl 4398046511104 s
  delta setPower
  repeat' first
    | with_reducible assumption
    | ((try lift_lets -underBinder); intro (x : State); refine have hx : Keeps 4398046511104 s x := ?_; ?_; rotate_left; clear_value x; rotate_right; dsimp -zeta only [x]; clear x)
    | ((try lift_lets -underBinder); intro x; clear_value x)
    | with_reducible apply Keeps.ite ?_ ?_
    | with_reducible apply Keeps.app ?_ (keeps_startRamps ..) ?_
    | exact rfl
    | with_reducible apply keeps_modPwr ?_ ?_
    | ((with_reducible apply Or.inl); exact rfl)
    | ((with_reducible apply Or.inr); simp only [Part.same, and_self, modPwr])
    | split

theorem keeps_raisePower : ∀ a0 a1 a2 a3 s, Keeps 4399400230962 s (raisePower a0 a1 a2 a3 s) := by
  intro a0 a1 a2 a3 s
  have h := Keeps.refl 4399400230962 s
  delta raisePower
  repeat' first
    | with_reducible assumption
    | ((try lift_lets -underBinder); intro (x : State); refine have hx : Keeps 4399400230962 s x := ?_; ?_; rotate_left; clear_value x; rotate_right; dsimp -zeta only [x]; clear x)
    | ((try lift_lets -underBinder); intro x; clear_value x)
    | with_reducible apply Keeps.ite ?_ ?_
    | with_reducible apply Keeps.app ?_ (keeps_eventD ..) ?_
    | with_reducible apply Keeps.app ?_ (keeps_setPower ..) ?_
    | exact rfl
    | with_reducible apply keeps_modPwr ?_ ?_
    | ((with_reducible apply Or.inl); exact rfl)
    | ((with_reducible apply Or.inr); simp only [Part.same, and_self, modPwr])
    | split

theorem keeps_railsOff : ∀ s, Keeps 9007199254740992 s (railsOff s) := by
  intro s
  have h := Keeps.refl 9007199254740992 s
  delta railsOff
  repeat' first
    | with_reducible assumption
    | ((try lift_lets -underBinder); intro x; clear_value x)
    | exact rfl
    | with_reducible apply keeps_modWmc ?_ ?_ ?_ ?_ ?_ ?_ ?_ ?_ ?_
    | ((with_reducible apply Or.inl); exact rfl)
    | ((with_reducible apply Or.inr); simp only [Part.same, and_self, modWmc])

theorem keeps_dieLimits : ∀ a0 a1 a2 s, Keeps 9011598654971954 s (dieLimits a0 a1 a2 s) := by
  intro a0 a1 a2 s
  have h := Keeps.refl 9011598654971954 s
  delta dieLimits
  repeat' first
    | with_reducible assumption
    | ((try lift_lets -underBinder); intro (x : State); refine have hx : Keeps 9011598654971954 s x := ?_; ?_; rotate_left; clear_value x; rotate_right; dsimp -zeta only [x]; clear x)
    | ((try lift_lets -underBinder); intro x; clear_value x)
    | with_reducible apply Keeps.ite ?_ ?_
    | with_reducible apply Keeps.app ?_ (keeps_railsOff ..) ?_
    | with_reducible apply Keeps.app ?_ (keeps_eventD ..) ?_
    | exact rfl
    | with_reducible apply keeps_modPwr ?_ ?_
    | ((with_reducible apply Or.inl); exact rfl)
    | ((with_reducible apply Or.inr); simp only [Part.same, and_self, modPwr])
    | split
    | (dsimp -zeta only)

theorem keeps_eventPll : ∀ a0 s, Keeps 1353719859 s (eventPll a0 s) := by
  intro a0 s
  have h := Keeps.refl 1353719859 s
  delta eventPll
  repeat' first
    | with_reducible assumption
    | with_reducible apply Keeps.app ?_ (keeps_bumpFree ..) ?_
    | with_reducible apply Keeps.app ?_ (keeps_eventD ..) ?_
    | exact rfl

end Sys2Proof.Machine
end

