-- ==== Sys2Proof/Laws/KeepsBoot.lean ====
section
/-! SUPPORT. What the operations of Machine/Boot.lean keep. -/

namespace Sys2Proof.Machine

set_option linter.unusedSimpArgs false
set_option linter.unusedVariables false

theorem keeps_coldState (resetType trigger : Nat) (s : State) : Keeps 1152920405095218687 s (coldState resetType trigger s) := by
  refine ⟨rfl, Nat.le_refl _, fun _ => rfl, ⟨BitVec.and_self, id⟩, fun p => ?_⟩
  cases p
  case bar2 => exact .inr rfl
  case fuses => exact .inr ⟨rfl, rfl⟩
  all_goals exact .inl rfl

theorem keeps_settleHeld : ∀ s, Keeps 2097153 s (settleHeld s) := by
  intro s
  have h := Keeps.refl 2097153 s
  delta settleHeld
  repeat' first
    | with_reducible assumption
    | ((try lift_lets -underBinder); intro (x : State); refine have hx : Keeps 2097153 s x := ?_; ?_; rotate_left; clear_value x; rotate_right; dsimp -zeta only [x]; clear x)
    | ((try lift_lets -underBinder); intro (x : State × _); refine have hx : Keeps 2097153 s x.1 := ?_; ?_; rotate_left; clear_value x; rotate_right; dsimp -zeta only [x]; clear x)
    | ((try lift_lets -underBinder); intro x; clear_value x)
    | with_reducible apply Keeps.app ?_ (keeps_bumpFree ..) ?_
    | exact rfl
    | with_reducible apply keeps_modMemBytes ?_ ?_ ?_ ?_ ?_ ?_ ?_ ?_ ?_
    | ((with_reducible apply Or.inl); exact rfl)
    | ((with_reducible apply Or.inr); simp only [Part.same, and_self, modMem])
    | (intro _; exact rfl)
    | (intro w; exact w)
    | exact fun h => memory_wf_put _ _ h
    | exact fun h => memory_wf_clear _ _ h
    | exact fun h => memory_wf_copy _ _ _ h
    | exact fun h => memory_wf_foldl (fun _ _ k => memory_wf_put _ _ k) _ _ (memory_wf_filter _ h)
    | exact fun h => memory_wf_foldl (fun _ _ k => memory_wf_put _ _ k) _ _ h
    | with_reducible apply Keeps.foldl ?_ _ _ ?_
    | with_reducible apply Keeps.foldlFst ?_ _ _ ?_
    | (intro _ _ _)
    | (dsimp -zeta only)

theorem keeps_warmState (trigger : Nat) (s : State) : Keeps 1044816421801426431 s (warmState trigger s) := by
  have h : Keeps 1044816421801426431 s (settleHeld s) := Keeps.app rfl (keeps_settleHeld s) (Keeps.refl _ s)
  refine ⟨h.pending, h.free, h.memory, h.fuses, fun p => ?_⟩
  have hp := h.frame p
  cases p
  case bar2 => exact hp
  case fuses => exact hp
  case regions => exact hp
  case reservations => exact hp
  case t1Faults => exact hp
  case time => exact hp
  case config => exact hp
  case records => exact hp
  all_goals exact .inl rfl

theorem keeps_coldReset : ∀ a0 s, Keeps 1152920405095218687 s (coldReset a0 s) := by
  intro a0 s
  have h := Keeps.refl 1152920405095218687 s
  delta coldReset
  repeat' first
    | with_reducible assumption
    | ((try lift_lets -underBinder); intro (x : State); refine have hx : Keeps 1152920405095218687 s x := ?_; ?_; rotate_left; clear_value x; rotate_right; dsimp -zeta only [x]; clear x)
    | ((try lift_lets -underBinder); intro x; clear_value x)
    | with_reducible apply Keeps.ite ?_ ?_
    | with_reducible apply Keeps.app ?_ (keeps_coldState ..) ?_
    | exact rfl
    | with_reducible apply keeps_modWmc ?_ ?_ ?_ ?_ ?_ ?_ ?_ ?_ ?_
    | ((with_reducible apply Or.inl); exact rfl)
    | ((with_reducible apply Or.inr); simp only [Part.same, and_self, modWmc])
    | split

theorem keeps_warmReset : ∀ a0 s, Keeps 1152920405095218687 s (warmReset a0 s) := by
  intro a0 s
  have h := Keeps.refl 1152920405095218687 s
  delta warmReset
  repeat' first
    | with_reducible assumption
    | with_reducible apply Keeps.ite ?_ ?_
    | with_reducible apply Keeps.app ?_ (keeps_coldState ..) ?_
    | with_reducible apply Keeps.app ?_ (keeps_warmState ..) ?_
    | exact rfl
    | split

theorem keeps_eventVin : ∀ a0 a1 s, Keeps 1353719858 s (eventVin a0 a1 s) := by
  intro a0 a1 s
  have h := Keeps.refl 1353719858 s
  delta eventVin
  repeat' first
    | with_reducible assumption
    | with_reducible apply Keeps.app ?_ (keeps_eventD ..) ?_
    | exact rfl

theorem keeps_startImage : ∀ a0 s, Keeps 9007199254740992 s (startImage a0 s) := by
  intro a0 s
  have h := Keeps.refl 9007199254740992 s
  delta startImage
  repeat' first
    | with_reducible assumption
    | ((try lift_lets -underBinder); intro x; clear_value x)
    | exact rfl
    | with_reducible apply keeps_modWmc ?_ ?_ ?_ ?_ ?_ ?_ ?_ ?_ ?_
    | ((with_reducible apply Or.inl); exact rfl)
    | ((with_reducible apply Or.inr); simp only [Part.same, and_self, modWmc])

theorem keeps_eventFallback : ∀ a0 a1 s, Keeps 1353719858 s (eventFallback a0 a1 s) := by
  intro a0 a1 s
  have h := Keeps.refl 1353719858 s
  delta eventFallback
  repeat' first
    | with_reducible assumption
    | with_reducible apply Keeps.app ?_ (keeps_eventD ..) ?_
    | exact rfl

theorem keeps_eventsVerify : ∀ a0 s, Keeps 1353719858 s (eventsVerify a0 s) := by
  intro a0 s
  have h := Keeps.refl 1353719858 s
  delta eventsVerify
  repeat' first
    | with_reducible assumption
    | with_reducible apply Keeps.app ?_ (keeps_eventVerify ..) ?_
    | exact rfl
    | with_reducible apply Keeps.foldl ?_ _ _ ?_
    | with_reducible apply Keeps.foldlFst ?_ _ _ ?_
    | (intro _ _ _)

theorem keeps_verifyStep : ∀ s, Keeps 9007200608460850 s (verifyStep s) := by
  intro s
  have h := Keeps.refl 9007200608460850 s
  delta verifyStep
  repeat' first
    | with_reducible assumption
    | ((try lift_lets -underBinder); intro (x : State); refine have hx : Keeps 9007200608460850 s x := ?_; ?_; rotate_left; clear_value x; rotate_right; dsimp -zeta only [x]; clear x)
    | ((try lift_lets -underBinder); intro (fn : State → State); refine have hfn : ∀ t, Keeps 9007200608460850 s t → Keeps 9007200608460850 s (fn t) := ?_; ?_; rotate_left; clear_value fn; rotate_right; dsimp -zeta only [fn]; clear fn)
    | ((try lift_lets -underBinder); intro (fn2 : _ → State → State); refine have hfn2 : ∀ a t, Keeps 9007200608460850 s t → Keeps 9007200608460850 s (fn2 a t) := ?_; ?_; rotate_left; clear_value fn2; rotate_right; dsimp -zeta only [fn2]; clear fn2)
    | with_reducible apply hfn
    | with_reducible apply hfn2
    | ((try lift_lets -underBinder); intro x; clear_value x)
    | with_reducible apply Keeps.ite ?_ ?_
    | with_reducible apply Keeps.app ?_ (keeps_eventFallback ..) ?_
    | with_reducible apply Keeps.app ?_ (keeps_startImage ..) ?_
    | with_reducible apply Keeps.app ?_ (keeps_eventsVerify ..) ?_
    | with_reducible apply Keeps.app ?_ (keeps_eventD ..) ?_
    | exact rfl
    | with_reducible apply keeps_modWmc ?_ ?_ ?_ ?_ ?_ ?_ ?_ ?_ ?_
    | ((with_reducible apply Or.inl); exact rfl)
    | ((with_reducible apply Or.inr); simp only [Part.same, and_self, modWmc])
    | (intro _)
    | split

theorem keeps_railStep : ∀ a0 s, Keeps 45046992743833651 s (railStep a0 s) := by
  intro a0 s
  have h := Keeps.refl 45046992743833651 s
  delta railStep
  repeat' first
    | with_reducible assumption
    | ((try lift_lets -underBinder); intro (x : State); refine have hx : Keeps 45046992743833651 s x := ?_; ?_; rotate_left; clear_value x; rotate_right; dsimp -zeta only [x]; clear x)
    | ((try lift_lets -underBinder); intro x; clear_value x)
    | with_reducible apply Keeps.ite ?_ ?_
    | with_reducible apply Keeps.app ?_ (keeps_bumpFree ..) ?_
    | with_reducible apply Keeps.app ?_ (keeps_railsOff ..) ?_
    | with_reducible apply Keeps.app ?_ (keeps_eventD ..) ?_
    | with_reducible apply Keeps.app ?_ (keeps_modHw ..) ?_
    | exact rfl
    | with_reducible apply keeps_modWmc ?_ ?_ ?_ ?_ ?_ ?_ ?_ ?_ ?_
    | with_reducible apply keeps_modSec ?_ ?_ ?_ ?_
    | with_reducible apply keeps_modClk ?_ ?_ ?_
    | ((with_reducible apply Or.inl); exact rfl)
    | ((with_reducible apply Or.inr); simp only [Part.same, and_self, modClk, modSec, modWmc])
    | exact ⟨BitVec.and_self, fun k => k⟩
    | exact ⟨BitVec.and_self, fun _ => rfl⟩
    | exact ⟨and_or_absorb _ _, fun k => k⟩
    | ((try lift_lets -underBinder); intro x; dsimp -zeta only [x]; clear x)
    | split

theorem keeps_eventPassed : ∀ a0 a1 a2 s, Keeps 1353719858 s (eventPassed a0 a1 a2 s) := by
  intro a0 a1 a2 s
  have h := Keeps.refl 1353719858 s
  delta eventPassed
  repeat' first
    | with_reducible assumption
    | with_reducible apply Keeps.app ?_ (keeps_eventD ..) ?_
    | exact rfl

theorem keeps_applyT1Records : ∀ s, Keeps 36028797069426688 s (applyT1Records s) := by
  intro s
  have h := Keeps.refl 36028797069426688 s
  delta applyT1Records
  repeat' first
    | with_reducible assumption
    | ((try lift_lets -underBinder); intro (x : State); refine have hx : Keeps 36028797069426688 s x := ?_; ?_; rotate_left; clear_value x; rotate_right; dsimp -zeta only [x]; clear x)
    | ((try lift_lets -underBinder); intro x; clear_value x)
    | with_reducible apply Keeps.ite ?_ ?_
    | with_reducible apply Keeps.app ?_ (keeps_modHw ..) ?_
    | exact rfl
    | with_reducible apply keeps_modMem ?_ ?_ ?_ ?_ ?_ ?_ ?_ ?_ ?_
    | ((with_reducible apply Or.inl); exact rfl)
    | ((with_reducible apply Or.inr); simp only [Part.same, and_self, modMem])
    | (intro _; exact rfl)
    | (intro w; exact w)
    | exact fun h => memory_wf_put _ _ h
    | exact fun h => memory_wf_clear _ _ h
    | exact fun h => memory_wf_copy _ _ _ h
    | exact fun h => memory_wf_foldl (fun _ _ k => memory_wf_put _ _ k) _ _ (memory_wf_filter _ h)
    | exact fun h => memory_wf_foldl (fun _ _ k => memory_wf_put _ _ k) _ _ h
    | split

theorem keeps_applySpares : ∀ a0 s, Keeps 36028797019095040 s (applySpares a0 s) := by
  intro a0 s
  have h := Keeps.refl 36028797019095040 s
  delta applySpares
  repeat' first
    | with_reducible assumption
    | ((try lift_lets -underBinder); intro x; clear_value x)
    | with_reducible apply Keeps.ite ?_ ?_
    | with_reducible apply Keeps.app ?_ (keeps_modHw ..) ?_
    | exact rfl
    | split

theorem keeps_configStep : ∀ s, Keeps 261246163254124594 s (configStep s) := by
  intro s
  have h := Keeps.refl 261246163254124594 s
  delta configStep
  repeat' first
    | with_reducible assumption
    | ((try lift_lets -underBinder); intro (x : State); refine have hx : Keeps 261246163254124594 s x := ?_; ?_; rotate_left; clear_value x; rotate_right; dsimp -zeta only [x]; clear x)
    | ((try lift_lets -underBinder); intro (x : State × _); refine have hx : Keeps 261246163254124594 s x.1 := ?_; ?_; rotate_left; clear_value x; rotate_right; dsimp -zeta only [x]; clear x)
    | ((try lift_lets -underBinder); intro x; clear_value x)
    | with_reducible apply Keeps.ite ?_ ?_
    | with_reducible apply Keeps.app ?_ (keeps_applyT1Records ..) ?_
    | with_reducible apply Keeps.app ?_ (keeps_applySpares ..) ?_
    | with_reducible apply Keeps.app ?_ (keeps_grantQuotas ..) ?_
    | with_reducible apply Keeps.app ?_ (keeps_makeActive ..) ?_
    | with_reducible apply Keeps.app ?_ (keeps_eventPassed ..) ?_
    | exact rfl
    | with_reducible apply keeps_modWmc ?_ ?_ ?_ ?_ ?_ ?_ ?_ ?_ ?_
    | ((with_reducible apply Or.inl); exact rfl)
    | ((with_reducible apply Or.inr); simp only [Part.same, and_self, modWmc])
    | with_reducible apply Keeps.foldl ?_ _ _ ?_
    | with_reducible apply Keeps.foldlFst ?_ _ _ ?_
    | (intro _ _ _)
    | split

theorem keeps_linkStep : ∀ s, Keeps 9007204970537010 s (linkStep s) := by
  intro s
  have h := Keeps.refl 9007204970537010 s
  delta linkStep
  repeat' first
    | with_reducible assumption
    | ((try lift_lets -underBinder); intro (x : State); refine have hx : Keeps 9007204970537010 s x := ?_; ?_; rotate_left; clear_value x; rotate_right; dsimp -zeta only [x]; clear x)
    | ((try lift_lets -underBinder); intro (x : State × _); refine have hx : Keeps 9007204970537010 s x.1 := ?_; ?_; rotate_left; clear_value x; rotate_right; dsimp -zeta only [x]; clear x)
    | ((try lift_lets -underBinder); intro x; clear_value x)
    | with_reducible apply Keeps.ite ?_ ?_
    | with_reducible apply Keeps.app ?_ (keeps_modPort ..) ?_
    | with_reducible apply Keeps.app ?_ (keeps_grantQuotas ..) ?_
    | exact rfl
    | with_reducible apply keeps_modWmc ?_ ?_ ?_ ?_ ?_ ?_ ?_ ?_ ?_
    | ((with_reducible apply Or.inl); exact rfl)
    | ((with_reducible apply Or.inr); simp only [Part.same, and_self, modWmc])
    | with_reducible apply Keeps.foldl ?_ _ _ ?_
    | with_reducible apply Keeps.foldlFst ?_ _ _ ?_
    | (intro _ _ _)
    | split

theorem keeps_t1Step : ∀ a0 s, Keeps 45317472654647346 s (t1Step a0 s) := by
  intro a0 s
  have h := Keeps.refl 45317472654647346 s
  delta t1Step
  repeat' first
    | with_reducible assumption
    | ((try lift_lets -underBinder); intro x; clear_value x)
    | with_reducible apply Keeps.app ?_ (keeps_retireT1 ..) ?_
    | exact rfl
    | with_reducible apply keeps_modWmc ?_ ?_ ?_ ?_ ?_ ?_ ?_ ?_ ?_
    | ((with_reducible apply Or.inl); exact rfl)
    | ((with_reducible apply Or.inr); simp only [Part.same, and_self, modWmc])
    | with_reducible apply Keeps.foldl ?_ _ _ ?_
    | with_reducible apply Keeps.foldlFst ?_ _ _ ?_
    | (intro _ _ _)

theorem keeps_replay : ∀ s, Keeps 1879048192 s (replay s) := by
  intro s
  have h := Keeps.refl 1879048192 s
  delta replay
  repeat' first
    | with_reducible assumption
    | ((try lift_lets -underBinder); intro (x : State); refine have hx : Keeps 1879048192 s x := ?_; ?_; rotate_left; clear_value x; rotate_right; dsimp -zeta only [x]; clear x)
    | ((try lift_lets -underBinder); intro (x : State × _); refine have hx : Keeps 1879048192 s x.1 := ?_; ?_; rotate_left; clear_value x; rotate_right; dsimp -zeta only [x]; clear x)
    | ((try lift_lets -underBinder); intro x; clear_value x)
    | with_reducible apply Keeps.ite ?_ ?_
    | with_reducible apply Keeps.app ?_ (keeps_discardCommit ..) ?_
    | with_reducible apply Keeps.app ?_ (keeps_ftlFree ..) ?_
    | exact rfl
    | with_reducible apply keeps_modNvt ?_ ?_ ?_ ?_ ?_
    | ((with_reducible apply Or.inl); exact rfl)
    | ((with_reducible apply Or.inr); simp only [Part.same, and_self, modNvt])
    | with_reducible apply Keeps.foldl ?_ _ _ ?_
    | with_reducible apply Keeps.foldlFst ?_ _ _ ?_
    | (intro _ _ _)
    | split

theorem keeps_replayStep : ∀ a0 s, Keeps 1890590771 s (replayStep a0 s) := by
  intro a0 s
  have h := Keeps.refl 1890590771 s
  delta replayStep
  repeat' first
    | with_reducible assumption
    | ((try lift_lets -underBinder); intro (x : State); refine have hx : Keeps 1890590771 s x := ?_; ?_; rotate_left; clear_value x; rotate_right; dsimp -zeta only [x]; clear x)
    | ((try lift_lets -underBinder); intro (x : State × _); refine have hx : Keeps 1890590771 s x.1 := ?_; ?_; rotate_left; clear_value x; rotate_right; dsimp -zeta only [x]; clear x)
    | ((try lift_lets -underBinder); intro x; clear_value x)
    | with_reducible apply Keeps.app ?_ (keeps_eventD ..) ?_
    | with_reducible apply Keeps.app ?_ (keeps_bumpFree ..) ?_
    | with_reducible apply Keeps.app ?_ (keeps_replay ..) ?_
    | with_reducible apply Keeps.app ?_ (keeps_eventDiscarded ..) ?_
    | exact rfl
    | with_reducible apply Keeps.foldl ?_ _ _ ?_
    | with_reducible apply Keeps.foldlFst ?_ _ _ ?_
    | (intro _ _ _)

theorem keeps_blowFuses : ∀ a0 a1 s, Keeps 1100865347634 s (blowFuses a0 a1 s) := by
  intro a0 a1 s
  have h := Keeps.refl 1100865347634 s
  delta blowFuses
  repeat' first
    | with_reducible assumption
    | ((try lift_lets -underBinder); intro (x : State); refine have hx : Keeps 1100865347634 s x := ?_; ?_; rotate_left; clear_value x; rotate_right; dsimp -zeta only [x]; clear x)
    | ((try lift_lets -underBinder); intro x; clear_value x)
    | with_reducible apply Keeps.ite ?_ ?_
    | with_reducible apply Keeps.app ?_ (keeps_eventD ..) ?_
    | exact rfl
    | with_reducible apply keeps_modSec ?_ ?_ ?_ ?_
    | ((with_reducible apply Or.inl); exact rfl)
    | ((with_reducible apply Or.inr); simp only [Part.same, and_self, modSec])
    | exact ⟨BitVec.and_self, fun k => k⟩
    | exact ⟨BitVec.and_self, fun _ => rfl⟩
    | exact ⟨and_or_absorb _ _, fun k => k⟩
    | split

theorem keeps_readyStep : ∀ a0 s, Keeps 27022698629570611 s (readyStep a0 s) := by
  intro a0 s
  have h := Keeps.refl 27022698629570611 s
  delta readyStep
  repeat' first
    | with_reducible assumption
    | ((try lift_lets -underBinder); intro (x : State); refine have hx : Keeps 27022698629570611 s x := ?_; ?_; rotate_left; clear_value x; rotate_right; dsimp -zeta only [x]; clear x)
    | ((try lift_lets -underBinder); intro x; clear_value x)
    | with_reducible apply Keeps.app ?_ (keeps_setSlot ..) ?_
    | with_reducible apply Keeps.app ?_ (keeps_eventD ..) ?_
    | with_reducible apply Keeps.app ?_ (keeps_bumpFree ..) ?_
    | with_reducible apply Keeps.app ?_ (keeps_blowFuses ..) ?_
    | exact rfl
    | with_reducible apply keeps_modWmc ?_ ?_ ?_ ?_ ?_ ?_ ?_ ?_ ?_
    | ((with_reducible apply Or.inl); exact rfl)
    | ((with_reducible apply Or.inr); simp only [Part.same, and_self, modWmc])

end Sys2Proof.Machine
end

