-- ==== Sys2Proof/Laws/KeepsRows.lean ====
section
/-! SUPPORT. What the rows keep. -/

namespace Sys2Proof.Machine

set_option linter.unusedSimpArgs false
set_option linter.unusedVariables false

theorem keeps_execQueueDoorbell a0 a1 s t (e : execQueueDoorbell a0 a1 s = .next t) : Keeps 1353720882 s t := by
  unfold execQueueDoorbell at e
  injection e with e
  subst e
  have h := Keeps.refl 1353720882 s
  repeat' first
    | with_reducible assumption
    | ((try lift_lets -underBinder); intro (x : State); refine have hx : Keeps 1353720882 s x := ?_; ?_; rotate_left; clear_value x; rotate_right; dsimp -zeta only [x]; clear x)
    | ((try lift_lets -underBinder); intro x; clear_value x)
    | with_reducible apply Keeps.ite ?_ ?_
    | with_reducible apply Keeps.app ?_ (keeps_setQueue ..) ?_
    | with_reducible apply Keeps.app ?_ (keeps_eventP ..) ?_
    | exact rfl
    | (intro _)
    | split

theorem keeps_execQueueEnable a0 a1 s t (e : execQueueEnable a0 a1 s = .next t) : Keeps 1353720882 s t := by
  unfold execQueueEnable at e
  injection e with e
  subst e
  have h := Keeps.refl 1353720882 s
  repeat' first
    | with_reducible assumption
    | ((try lift_lets -underBinder); intro x; clear_value x)
    | with_reducible apply Keeps.ite ?_ ?_
    | with_reducible apply OptKeeps.app ?_ (keeps_enableBlock ..) ?_
    | with_reducible apply Keeps.app ?_ (keeps_startQueue ..) ?_
    | exact OptKeeps.none
    | with_reducible apply OptKeeps.some
    | with_reducible apply OptKeeps.map
    | with_reducible apply OptKeeps.ite
    | ((with_reducible apply OptKeeps.out); assumption)
    | exact rfl
    | (intro _)
    | split

theorem keeps_execQueueDisable a0 s t (e : execQueueDisable a0 s = .next t) : Keeps 144115188075856896 s t := by
  unfold execQueueDisable at e
  injection e with e
  subst e
  have h := Keeps.refl 144115188075856896 s
  repeat' first
    | with_reducible assumption
    | ((try lift_lets -underBinder); intro x; clear_value x)
    | with_reducible apply Keeps.app ?_ (keeps_holdIfIdle ..) ?_
    | with_reducible apply Keeps.app ?_ (keeps_modQueue ..) ?_
    | exact rfl
    | (intro _)
    | split

theorem keeps_execQueueResume a0 s t (e : execQueueResume a0 s = .next t) : Keeps 1024 s t := by
  unfold execQueueResume at e
  injection e with e
  subst e
  have h := Keeps.refl 1024 s
  repeat' first
    | with_reducible assumption
    | ((try lift_lets -underBinder); intro x; clear_value x)
    | with_reducible apply Keeps.ite ?_ ?_
    | with_reducible apply Keeps.app ?_ (keeps_modQueue ..) ?_
    | exact rfl
    | (intro _)
    | split

theorem keeps_execQueueAbort a0 s t (e : execQueueAbort a0 s = .next t) : Keeps 144115189429613618 s t := by
  unfold execQueueAbort at e
  injection e with e
  subst e
  have h := Keeps.refl 144115189429613618 s
  repeat' first
    | with_reducible assumption
    | with_reducible apply Keeps.app ?_ (keeps_abortQueue ..) ?_
    | exact rfl
    | (intro _)
    | split

theorem keeps_execCommandDispatch a0 a1 s t (e : execCommandDispatch a0 s a1 = .next t) : Keeps 36310274003891250 s t := by
  unfold execCommandDispatch at e
  injection e with e
  subst e
  have h := Keeps.refl 36310274003891250 s
  repeat' first
    | with_reducible assumption
    | ((try lift_lets -underBinder); intro (x : State); refine have hx : Keeps 36310274003891250 s x := ?_; ?_; rotate_left; clear_value x; rotate_right; dsimp -zeta only [x]; clear x)
    | ((try lift_lets -underBinder); intro x; clear_value x)
    | with_reducible apply Keeps.ite ?_ ?_
    | with_reducible apply Keeps.app ?_ (keeps_keepStored ..) ?_
    | with_reducible apply keeps_whenReached
    | with_reducible apply keeps_meetErrors
    | with_reducible apply Keeps.app ?_ (keeps_modQueue ..) ?_
    | with_reducible apply Keeps.app ?_ (keeps_eventUnmapped ..) ?_
    | with_reducible apply Keeps.app ?_ (keeps_touchRead ..) ?_
    | exact rfl
    | with_reducible apply keeps_modTcs ?_ ?_ ?_ ?_ ?_ ?_ ?_
    | ((with_reducible apply Or.inl); exact rfl)
    | ((with_reducible apply Or.inr); simp only [Part.same, and_self, modTcs])
    | (intro _)
    | split

theorem keeps_execCommandComplete a0 a1 s t (e : execCommandComplete a0 a1 s = .next t) : Keeps 1353726002 s t := by
  unfold execCommandComplete at e
  injection e with e
  subst e
  have h := Keeps.refl 1353726002 s
  repeat' first
    | with_reducible assumption
    | ((try lift_lets -underBinder); intro x; clear_value x)
    | with_reducible apply Keeps.ite ?_ ?_
    | with_reducible apply Keeps.app ?_ (keeps_completionActions ..) ?_
    | with_reducible apply Keeps.app ?_ (keeps_dropMarker ..) ?_
    | exact rfl
    | (intro _)
    | split

theorem keeps_execNop a0 a1 s t (e : execNop a0 a1 s = .next t) : Keeps 140738976395314 s t := by
  unfold execNop at e
  injection e with e
  subst e
  have h := Keeps.refl 140738976395314 s
  repeat' first
    | with_reducible assumption
    | with_reducible apply keeps_runNow
    | exact rfl
    | (intro _)
    | split

theorem keeps_execRejectedOpcode a0 a1 s t (e : execRejectedOpcode a0 a1 s = .next t) : Keeps 140738976395314 s t := by
  unfold execRejectedOpcode at e
  injection e with e
  subst e
  have h := Keeps.refl 140738976395314 s
  repeat' first
    | with_reducible assumption
    | with_reducible apply keeps_runNow
    | with_reducible apply Keeps.app ?_ (keeps_eventP ..) ?_
    | exact rfl
    | (intro _)
    | split

theorem keeps_execMxMul a0 a1 a2 s t (e : execMxMul a0 a1 a2 s = .next t) : Keeps 36557114498609203 s t := by
  unfold execMxMul at e
  injection e with e
  subst e
  have h := Keeps.refl 36557114498609203 s
  repeat' first
    | with_reducible assumption
    | with_reducible apply keeps_runLongAt
    | with_reducible apply keeps_mxRun
    | with_reducible apply Keeps.app ?_ (keeps_mxProductRun ..) ?_
    | exact rfl
    | (intro _)
    | split

theorem keeps_execMxMac a0 a1 a2 s t (e : execMxMac a0 a1 a2 s = .next t) : Keeps 36557114498609203 s t := by
  unfold execMxMac at e
  injection e with e
  subst e
  have h := Keeps.refl 36557114498609203 s
  repeat' first
    | with_reducible assumption
    | with_reducible apply keeps_mxRow
    | with_reducible apply Keeps.app ?_ (keeps_mxProductRun ..) ?_
    | exact rfl
    | (intro _)
    | split

theorem keeps_execMxZacc a0 a1 s t (e : execMxZacc a0 a1 s = .next t) : Keeps 36486195931508786 s t := by
  unfold execMxZacc at e
  injection e with e
  subst e
  have h := Keeps.refl 36486195931508786 s
  repeat' first
    | with_reducible assumption
    | with_reducible apply keeps_mxRow
    | with_reducible apply Keeps.app ?_ (keeps_markDone ..) ?_
    | with_reducible apply Keeps.app ?_ (keeps_modArr ..) ?_
    | exact rfl
    | (intro _)
    | split

theorem keeps_execMxSacc a0 a1 a2 s t (e : execMxSacc a0 a1 s a2 = .next t) : Keeps 36486195998617651 s t := by
  unfold execMxSacc at e
  injection e with e
  subst e
  have h := Keeps.refl 36486195998617651 s
  repeat' first
    | with_reducible assumption
    | ((try lift_lets -underBinder); intro (x : State); refine have hx : Keeps 36486195998617651 s x := ?_; ?_; rotate_left; clear_value x; rotate_right; dsimp -zeta only [x]; clear x)
    | ((try lift_lets -underBinder); intro x; clear_value x)
    | with_reducible apply keeps_mxRow
    | with_reducible apply Keeps.app ?_ (keeps_markDone ..) ?_
    | with_reducible apply Keeps.app ?_ (keeps_undefTiles ..) ?_
    | with_reducible apply Keeps.app ?_ (keeps_writeC ..) ?_
    | exact rfl
    | (intro _)
    | split

theorem keeps_execMxLacc a0 a1 a2 s t (e : execMxLacc a0 a1 a2 s = .next t) : Keeps 36486195931508787 s t := by
  unfold execMxLacc at e
  injection e with e
  subst e
  have h := Keeps.refl 36486195931508787 s
  repeat' first
    | with_reducible assumption
    | ((try lift_lets -underBinder); intro (x : State); refine have hx : Keeps 36486195931508787 s x := ?_; ?_; rotate_left; clear_value x; rotate_right; dsimp -zeta only [x]; clear x)
    | ((try lift_lets -underBinder); intro (x : State × _); refine have hx : Keeps 36486195931508787 s x.1 := ?_; ?_; rotate_left; clear_value x; rotate_right; dsimp -zeta only [x]; clear x)
    | ((try lift_lets -underBinder); intro x; clear_value x)
    | with_reducible apply keeps_mxRow
    | with_reducible apply Keeps.app ?_ (keeps_markDone ..) ?_
    | with_reducible apply Keeps.app ?_ (keeps_undefTiles ..) ?_
    | with_reducible apply Keeps.app ?_ (keeps_modArr ..) ?_
    | exact rfl
    | with_reducible apply Keeps.foldl ?_ _ _ ?_
    | with_reducible apply Keeps.foldlFst ?_ _ _ ?_
    | (intro _)
    | split

theorem keeps_execVxAdd a0 a1 a2 s t (e : execVxAdd a0 a1 s a2 = .next t) : Keeps 36486195394637874 s t := by
  unfold execVxAdd at e
  injection e with e
  subst e
  have h := Keeps.refl 36486195394637874 s
  repeat' first
    | with_reducible assumption
    | with_reducible apply keeps_runNow
    | with_reducible apply Keeps.app ?_ (keeps_vxCompute ..) ?_
    | exact rfl
    | (intro _)
    | split

theorem keeps_execVxSub a0 a1 a2 s t (e : execVxSub a0 a1 s a2 = .next t) : Keeps 36486195394637874 s t := by
  unfold execVxSub at e
  injection e with e
  subst e
  have h := Keeps.refl 36486195394637874 s
  repeat' first
    | with_reducible assumption
    | with_reducible apply Keeps.app ?_ (keeps_vxRow ..) ?_
    | exact rfl
    | (intro _)
    | split

theorem keeps_execVxMul a0 a1 a2 s t (e : execVxMul a0 a1 s a2 = .next t) : Keeps 36486195394637874 s t := by
  unfold execVxMul at e
  injection e with e
  subst e
  have h := Keeps.refl 36486195394637874 s
  repeat' first
    | with_reducible assumption
    | with_reducible apply Keeps.app ?_ (keeps_vxRow ..) ?_
    | exact rfl
    | (intro _)
    | split

theorem keeps_execVxFma a0 a1 a2 s t (e : execVxFma a0 a1 s a2 = .next t) : Keeps 36486195394637874 s t := by
  unfold execVxFma at e
  injection e with e
  subst e
  have h := Keeps.refl 36486195394637874 s
  repeat' first
    | with_reducible assumption
    | with_reducible apply Keeps.app ?_ (keeps_vxRow ..) ?_
    | exact rfl
    | (intro _)
    | split

theorem keeps_execVxMax a0 a1 a2 s t (e : execVxMax a0 a1 s a2 = .next t) : Keeps 36486195394637874 s t := by
  unfold execVxMax at e
  injection e with e
  subst e
  have h := Keeps.refl 36486195394637874 s
  repeat' first
    | with_reducible assumption
    | with_reducible apply Keeps.app ?_ (keeps_vxRow ..) ?_
    | exact rfl
    | (intro _)
    | split

theorem keeps_execVxMin a0 a1 a2 s t (e : execVxMin a0 a1 s a2 = .next t) : Keeps 36486195394637874 s t := by
  unfold execVxMin at e
  injection e with e
  subst e
  have h := Keeps.refl 36486195394637874 s
  repeat' first
    | with_reducible assumption
    | with_reducible apply Keeps.app ?_ (keeps_vxRow ..) ?_
    | exact rfl
    | (intro _)
    | split

theorem keeps_execVxAbs a0 a1 a2 s t (e : execVxAbs a0 a1 s a2 = .next t) : Keeps 36486195394637874 s t := by
  unfold execVxAbs at e
  injection e with e
  subst e
  have h := Keeps.refl 36486195394637874 s
  repeat' first
    | with_reducible assumption
    | with_reducible apply Keeps.app ?_ (keeps_vxRow ..) ?_
    | exact rfl
    | (intro _)
    | split

theorem keeps_execVxNeg a0 a1 a2 s t (e : execVxNeg a0 a1 s a2 = .next t) : Keeps 36486195394637874 s t := by
  unfold execVxNeg at e
  injection e with e
  subst e
  have h := Keeps.refl 36486195394637874 s
  repeat' first
    | with_reducible assumption
    | with_reducible apply Keeps.app ?_ (keeps_vxRow ..) ?_
    | exact rfl
    | (intro _)
    | split

theorem keeps_execVxMov a0 a1 a2 s t (e : execVxMov a0 a1 s a2 = .next t) : Keeps 36486195394637874 s t := by
  unfold execVxMov at e
  injection e with e
  subst e
  have h := Keeps.refl 36486195394637874 s
  repeat' first
    | with_reducible assumption
    | with_reducible apply Keeps.app ?_ (keeps_vxRow ..) ?_
    | exact rfl
    | (intro _)
    | split

theorem keeps_execVxSel a0 a1 a2 s t (e : execVxSel a0 a1 s a2 = .next t) : Keeps 36486195394637874 s t := by
  unfold execVxSel at e
  injection e with e
  subst e
  have h := Keeps.refl 36486195394637874 s
  repeat' first
    | with_reducible assumption
    | with_reducible apply Keeps.app ?_ (keeps_vxRow ..) ?_
    | exact rfl
    | (intro _)
    | split

theorem keeps_execVxCeq a0 a1 a2 s t (e : execVxCeq a0 a1 s a2 = .next t) : Keeps 36486195394637874 s t := by
  unfold execVxCeq at e
  injection e with e
  subst e
  have h := Keeps.refl 36486195394637874 s
  repeat' first
    | with_reducible assumption
    | with_reducible apply Keeps.app ?_ (keeps_vxRow ..) ?_
    | exact rfl
    | (intro _)
    | split

theorem keeps_execVxClt a0 a1 a2 s t (e : execVxClt a0 a1 s a2 = .next t) : Keeps 36486195394637874 s t := by
  unfold execVxClt at e
  injection e with e
  subst e
  have h := Keeps.refl 36486195394637874 s
  repeat' first
    | with_reducible assumption
    | with_reducible apply Keeps.app ?_ (keeps_vxRow ..) ?_
    | exact rfl
    | (intro _)
    | split

theorem keeps_execVxCle a0 a1 a2 s t (e : execVxCle a0 a1 s a2 = .next t) : Keeps 36486195394637874 s t := by
  unfold execVxCle at e
  injection e with e
  subst e
  have h := Keeps.refl 36486195394637874 s
  repeat' first
    | with_reducible assumption
    | with_reducible apply Keeps.app ?_ (keeps_vxRow ..) ?_
    | exact rfl
    | (intro _)
    | split

theorem keeps_execVxCgt a0 a1 a2 s t (e : execVxCgt a0 a1 s a2 = .next t) : Keeps 36486195394637874 s t := by
  unfold execVxCgt at e
  injection e with e
  subst e
  have h := Keeps.refl 36486195394637874 s
  repeat' first
    | with_reducible assumption
    | with_reducible apply Keeps.app ?_ (keeps_vxRow ..) ?_
    | exact rfl
    | (intro _)
    | split

theorem keeps_execVxCge a0 a1 a2 s t (e : execVxCge a0 a1 s a2 = .next t) : Keeps 36486195394637874 s t := by
  unfold execVxCge at e
  injection e with e
  subst e
  have h := Keeps.refl 36486195394637874 s
  repeat' first
    | with_reducible assumption
    | with_reducible apply Keeps.app ?_ (keeps_vxRow ..) ?_
    | exact rfl
    | (intro _)
    | split

theorem keeps_execVxCun a0 a1 a2 s t (e : execVxCun a0 a1 s a2 = .next t) : Keeps 36486195394637874 s t := by
  unfold execVxCun at e
  injection e with e
  subst e
  have h := Keeps.refl 36486195394637874 s
  repeat' first
    | with_reducible assumption
    | with_reducible apply Keeps.app ?_ (keeps_vxRow ..) ?_
    | exact rfl
    | (intro _)
    | split

theorem keeps_execVxCvt a0 a1 a2 s t (e : execVxCvt a0 a1 s a2 = .next t) : Keeps 36486195394637874 s t := by
  unfold execVxCvt at e
  injection e with e
  subst e
  have h := Keeps.refl 36486195394637874 s
  repeat' first
    | with_reducible assumption
    | with_reducible apply Keeps.app ?_ (keeps_vxRow ..) ?_
    | exact rfl
    | (intro _)
    | split

theorem keeps_execVxExp a0 a1 a2 s t (e : execVxExp a0 a1 s a2 = .next t) : Keeps 36486195394637874 s t := by
  unfold execVxExp at e
  injection e with e
  subst e
  have h := Keeps.refl 36486195394637874 s
  repeat' first
    | with_reducible assumption
    | with_reducible apply Keeps.app ?_ (keeps_vxRow ..) ?_
    | exact rfl
    | (intro _)
    | split

theorem keeps_execVxLog a0 a1 a2 s t (e : execVxLog a0 a1 s a2 = .next t) : Keeps 36486195394637874 s t := by
  unfold execVxLog at e
  injection e with e
  subst e
  have h := Keeps.refl 36486195394637874 s
  repeat' first
    | with_reducible assumption
    | with_reducible apply Keeps.app ?_ (keeps_vxRow ..) ?_
    | exact rfl
    | (intro _)
    | split

theorem keeps_execVxRcp a0 a1 a2 s t (e : execVxRcp a0 a1 s a2 = .next t) : Keeps 36486195394637874 s t := by
  unfold execVxRcp at e
  injection e with e
  subst e
  have h := Keeps.refl 36486195394637874 s
  repeat' first
    | with_reducible assumption
    | with_reducible apply Keeps.app ?_ (keeps_vxRow ..) ?_
    | exact rfl
    | (intro _)
    | split

theorem keeps_execVxRsqrt a0 a1 a2 s t (e : execVxRsqrt a0 a1 s a2 = .next t) : Keeps 36486195394637874 s t := by
  unfold execVxRsqrt at e
  injection e with e
  subst e
  have h := Keeps.refl 36486195394637874 s
  repeat' first
    | with_reducible assumption
    | with_reducible apply Keeps.app ?_ (keeps_vxRow ..) ?_
    | exact rfl
    | (intro _)
    | split

theorem keeps_execVxTanh a0 a1 a2 s t (e : execVxTanh a0 a1 s a2 = .next t) : Keeps 36486195394637874 s t := by
  unfold execVxTanh at e
  injection e with e
  subst e
  have h := Keeps.refl 36486195394637874 s
  repeat' first
    | with_reducible assumption
    | with_reducible apply Keeps.app ?_ (keeps_vxRow ..) ?_
    | exact rfl
    | (intro _)
    | split

theorem keeps_execVxRsum a0 a1 a2 s t (e : execVxRsum a0 a1 s a2 = .next t) : Keeps 36486195394637874 s t := by
  unfold execVxRsum at e
  injection e with e
  subst e
  have h := Keeps.refl 36486195394637874 s
  repeat' first
    | with_reducible assumption
    | with_reducible apply Keeps.app ?_ (keeps_vxRow ..) ?_
    | exact rfl
    | (intro _)
    | split

theorem keeps_execVxRsumsq a0 a1 a2 s t (e : execVxRsumsq a0 a1 s a2 = .next t) : Keeps 36486195394637874 s t := by
  unfold execVxRsumsq at e
  injection e with e
  subst e
  have h := Keeps.refl 36486195394637874 s
  repeat' first
    | with_reducible assumption
    | with_reducible apply Keeps.app ?_ (keeps_vxRow ..) ?_
    | exact rfl
    | (intro _)
    | split

theorem keeps_execVxRmax a0 a1 a2 s t (e : execVxRmax a0 a1 s a2 = .next t) : Keeps 36486195394637874 s t := by
  unfold execVxRmax at e
  injection e with e
  subst e
  have h := Keeps.refl 36486195394637874 s
  repeat' first
    | with_reducible assumption
    | with_reducible apply Keeps.app ?_ (keeps_vxRow ..) ?_
    | exact rfl
    | (intro _)
    | split

theorem keeps_execVxRmin a0 a1 a2 s t (e : execVxRmin a0 a1 s a2 = .next t) : Keeps 36486195394637874 s t := by
  unfold execVxRmin at e
  injection e with e
  subst e
  have h := Keeps.refl 36486195394637874 s
  repeat' first
    | with_reducible assumption
    | with_reducible apply Keeps.app ?_ (keeps_vxRow ..) ?_
    | exact rfl
    | (intro _)
    | split

theorem keeps_execVxRmv a0 a1 a2 s t (e : execVxRmv a0 a1 s a2 = .next t) : Keeps 36486195394637874 s t := by
  unfold execVxRmv at e
  injection e with e
  subst e
  have h := Keeps.refl 36486195394637874 s
  repeat' first
    | with_reducible assumption
    | with_reducible apply Keeps.app ?_ (keeps_vxRow ..) ?_
    | exact rfl
    | (intro _)
    | split

theorem keeps_execVxPerm a0 a1 a2 s t (e : execVxPerm a0 a1 s a2 = .next t) : Keeps 36486195394637874 s t := by
  unfold execVxPerm at e
  injection e with e
  subst e
  have h := Keeps.refl 36486195394637874 s
  repeat' first
    | with_reducible assumption
    | with_reducible apply Keeps.app ?_ (keeps_vxRow ..) ?_
    | exact rfl
    | (intro _)
    | split

theorem keeps_execVxCompress a0 a1 a2 s t (e : execVxCompress a0 a1 s a2 = .next t) : Keeps 36486195394637874 s t := by
  unfold execVxCompress at e
  injection e with e
  subst e
  have h := Keeps.refl 36486195394637874 s
  repeat' first
    | with_reducible assumption
    | with_reducible apply Keeps.app ?_ (keeps_vxRow ..) ?_
    | exact rfl
    | (intro _)
    | split

theorem keeps_execVxExpand a0 a1 a2 s t (e : execVxExpand a0 a1 s a2 = .next t) : Keeps 36486195394637874 s t := by
  unfold execVxExpand at e
  injection e with e
  subst e
  have h := Keeps.refl 36486195394637874 s
  repeat' first
    | with_reducible assumption
    | with_reducible apply Keeps.app ?_ (keeps_vxRow ..) ?_
    | exact rfl
    | (intro _)
    | split

theorem keeps_execVxLd a0 a1 a2 s t (e : execVxLd a0 a1 a2 s = .next t) : Keeps 36486195931508786 s t := by
  unfold execVxLd at e
  injection e with e
  subst e
  have h := Keeps.refl 36486195931508786 s
  repeat' first
    | with_reducible assumption
    | ((try lift_lets -underBinder); intro (x : State); refine have hx : Keeps 36486195931508786 s x := ?_; ?_; rotate_left; clear_value x; rotate_right; dsimp -zeta only [x]; clear x)
    | ((try lift_lets -underBinder); intro (x : State × _); refine have hx : Keeps 36486195931508786 s x.1 := ?_; ?_; rotate_left; clear_value x; rotate_right; dsimp -zeta only [x]; clear x)
    | ((try lift_lets -underBinder); intro x; clear_value x)
    | with_reducible apply keeps_runNowAt
    | with_reducible apply keeps_vxMemory
    | with_reducible apply Keeps.app ?_ (keeps_touchSpans ..) ?_
    | with_reducible apply Keeps.app ?_ (keeps_modArr ..) ?_
    | with_reducible apply Keeps.app ?_ (keeps_noteErrors ..) ?_
    | with_reducible apply Keeps.app ?_ (keeps_eventUnmapped ..) ?_
    | exact rfl
    | with_reducible apply Keeps.foldl ?_ _ _ ?_
    | with_reducible apply Keeps.foldlFst ?_ _ _ ?_
    | (intro _)
    | split

theorem keeps_execVxSt a0 a1 a2 s t (e : execVxSt a0 a1 s a2 = .next t) : Keeps 36486195998617650 s t := by
  unfold execVxSt at e
  injection e with e
  subst e
  have h := Keeps.refl 36486195998617650 s
  repeat' first
    | with_reducible assumption
    | ((try lift_lets -underBinder); intro (x : State); refine have hx : Keeps 36486195998617650 s x := ?_; ?_; rotate_left; clear_value x; rotate_right; dsimp -zeta only [x]; clear x)
    | ((try lift_lets -underBinder); intro x; clear_value x)
    | with_reducible apply keeps_runNowAt
    | with_reducible apply keeps_vxMemory
    | with_reducible apply Keeps.app ?_ (keeps_noteErrors ..) ?_
    | with_reducible apply Keeps.app ?_ (keeps_eventUnmapped ..) ?_
    | with_reducible apply Keeps.app ?_ (keeps_cmdWrites ..) ?_
    | exact rfl
    | (intro _)
    | split

theorem keeps_execVxStf a0 a1 a2 s t (e : execVxStf a0 a1 s a2 = .next t) : Keeps 36486195998617650 s t := by
  unfold execVxStf at e
  injection e with e
  subst e
  have h := Keeps.refl 36486195998617650 s
  repeat' first
    | with_reducible assumption
    | ((try lift_lets -underBinder); intro (x : State); refine have hx : Keeps 36486195998617650 s x := ?_; ?_; rotate_left; clear_value x; rotate_right; dsimp -zeta only [x]; clear x)
    | ((try lift_lets -underBinder); intro x; clear_value x)
    | with_reducible apply keeps_runNowAt
    | with_reducible apply keeps_vxMemory
    | with_reducible apply Keeps.app ?_ (keeps_cmdWrite ..) ?_
    | with_reducible apply Keeps.app ?_ (keeps_noteErrors ..) ?_
    | with_reducible apply Keeps.app ?_ (keeps_eventUnmapped ..) ?_
    | with_reducible apply Keeps.app ?_ (keeps_modArr ..) ?_
    | exact rfl
    | (intro _)
    | split

theorem keeps_execKpWait a0 a1 s t (e : execKpWait a0 a1 s = .next t) : Keeps 140738976330802 s t := by
  unfold execKpWait at e
  injection e with e
  subst e
  have h := Keeps.refl 140738976330802 s
  repeat' first
    | with_reducible assumption
    | ((try lift_lets -underBinder); intro x; clear_value x)
    | with_reducible apply Keeps.app ?_ (keeps_waitTurn ..) ?_
    | exact rfl
    | (intro _)
    | split

theorem keeps_execKpWaitSatisfied a0 a1 s t (e : execKpWaitSatisfied a0 a1 s = .next t) : Keeps 140738976330802 s t := by
  unfold execKpWaitSatisfied at e
  injection e with e
  subst e
  have h := Keeps.refl 140738976330802 s
  repeat' first
    | with_reducible assumption
    | ((try lift_lets -underBinder); intro x; clear_value x)
    | with_reducible apply Keeps.app ?_ (keeps_waitTurn ..) ?_
    | exact rfl
    | (intro _)
    | split

theorem keeps_execKpSet a0 a1 s t (e : execKpSet a0 a1 s = .next t) : Keeps 140738976397362 s t := by
  unfold execKpSet at e
  injection e with e
  subst e
  have h := Keeps.refl 140738976397362 s
  repeat' first
    | with_reducible assumption
    | with_reducible apply keeps_runNow
    | with_reducible apply keeps_keeperCmd
    | with_reducible apply Keeps.app ?_ (keeps_setKeeper ..) ?_
    | exact rfl
    | (intro _)
    | split

theorem keeps_execKpAdd a0 a1 s t (e : execKpAdd a0 a1 s = .next t) : Keeps 140738976397362 s t := by
  unfold execKpAdd at e
  injection e with e
  subst e
  have h := Keeps.refl 140738976397362 s
  repeat' first
    | with_reducible assumption
    | with_reducible apply keeps_runNow
    | with_reducible apply keeps_keeperCmd
    | with_reducible apply Keeps.app ?_ (keeps_setKeeper ..) ?_
    | exact rfl
    | (intro _)
    | split

theorem keeps_execKpCas a0 a1 s t (e : execKpCas a0 a1 s = .next t) : Keeps 140739580377138 s t := by
  unfold execKpCas at e
  injection e with e
  subst e
  have h := Keeps.refl 140739580377138 s
  repeat' first
    | with_reducible assumption
    | ((try lift_lets -underBinder); intro (x : State); refine have hx : Keeps 140739580377138 s x := ?_; ?_; rotate_left; clear_value x; rotate_right; dsimp -zeta only [x]; clear x)
    | ((try lift_lets -underBinder); intro x; clear_value x)
    | with_reducible apply Keeps.ite ?_ ?_
    | with_reducible apply keeps_runNowAt
    | with_reducible apply keeps_keeperCmd
    | with_reducible apply Keeps.app ?_ (keeps_setKeeper ..) ?_
    | with_reducible apply Keeps.app ?_ (keeps_eventUnmapped ..) ?_
    | with_reducible apply Keeps.app ?_ (keeps_cmdWrite ..) ?_
    | exact rfl
    | (intro _)
    | split

theorem keeps_execKeeperSetHost a0 a1 a2 s t (e : execKeeperSetHost a0 a1 a2 s = .next t) : Keeps 1353721906 s t := by
  unfold execKeeperSetHost at e
  injection e with e
  subst e
  have h := Keeps.refl 1353721906 s
  repeat' first
    | with_reducible assumption
    | with_reducible apply Keeps.app ?_ (keeps_hostKeeperWrite ..) ?_
    | exact rfl
    | (intro _)
    | split

theorem keeps_execKeeperAddHost a0 a1 a2 s t (e : execKeeperAddHost a0 a1 a2 s = .next t) : Keeps 1353721906 s t := by
  unfold execKeeperAddHost at e
  injection e with e
  subst e
  have h := Keeps.refl 1353721906 s
  repeat' first
    | with_reducible assumption
    | with_reducible apply Keeps.app ?_ (keeps_hostKeeperWrite ..) ?_
    | exact rfl
    | (intro _)
    | split

theorem keeps_execPhMark a0 a1 s t (e : execPhMark a0 a1 s = .next t) : Keeps 703688929816626 s t := by
  unfold execPhMark at e
  injection e with e
  subst e
  have h := Keeps.refl 703688929816626 s
  repeat' first
    | with_reducible assumption
    | ((try lift_lets -underBinder); intro (x : State); refine have hx : Keeps 703688929816626 s x := ?_; ?_; rotate_left; clear_value x; rotate_right; dsimp -zeta only [x]; clear x)
    | ((try lift_lets -underBinder); intro x; clear_value x)
    | with_reducible apply keeps_runNow
    | exact rfl
    | with_reducible apply keeps_modCnt ?_ ?_ ?_ ?_ ?_ ?_ ?_ ?_ ?_
    | ((with_reducible apply Or.inl); exact rfl)
    | ((with_reducible apply Or.inr); simp only [Part.same, and_self, modCnt])
    | (intro _)
    | split

theorem keeps_execFnDrain a0 a1 s t (e : execFnDrain a0 a1 s = .next t) : Keeps 140738976329778 s t := by
  unfold execFnDrain at e
  injection e with e
  subst e
  have h := Keeps.refl 140738976329778 s
  repeat' first
    | with_reducible assumption
    | ((try lift_lets -underBinder); intro x; clear_value x)
    | with_reducible apply Keeps.ite ?_ ?_
    | with_reducible apply Keeps.app ?_ (keeps_discardCmd ..) ?_
    | with_reducible apply Keeps.app ?_ (keeps_markDone ..) ?_
    | with_reducible apply Keeps.app ?_ (keeps_markStarted ..) ?_
    | exact rfl
    | (intro _)
    | split

theorem keeps_execFnEpoch a0 a1 s t (e : execFnEpoch a0 a1 s = .next t) : Keeps 140738976395314 s t := by
  unfold execFnEpoch at e
  injection e with e
  subst e
  have h := Keeps.refl 140738976395314 s
  repeat' first
    | with_reducible assumption
    | with_reducible apply keeps_runLong
    | exact rfl
    | (intro _)
    | split

theorem keeps_execEpochFenceClose a0 a1 s t (e : execEpochFenceClose a0 a1 s = .next t) : Keeps 145381826891886642 s t := by
  unfold execEpochFenceClose at e
  injection e with e
  subst e
  have h := Keeps.refl 145381826891886642 s
  repeat' first
    | with_reducible assumption
    | ((try lift_lets -underBinder); intro (x : State); refine have hx : Keeps 145381826891886642 s x := ?_; ?_; rotate_left; clear_value x; rotate_right; dsimp -zeta only [x]; clear x)
    | ((try lift_lets -underBinder); intro x; clear_value x)
    | with_reducible apply Keeps.ite ?_ ?_
    | with_reducible apply Keeps.app ?_ (keeps_markDone ..) ?_
    | with_reducible apply Keeps.app ?_ (keeps_writeNorms ..) ?_
    | with_reducible apply Keeps.app ?_ (keeps_closeFence ..) ?_
    | with_reducible apply Keeps.app ?_ (keeps_holdPart ..) ?_
    | exact rfl
    | (intro _)
    | split

theorem keeps_execEnvOpen a0 a1 s t (e : execEnvOpen a0 a1 s = .next t) : Keeps 36864 s t := by
  unfold execEnvOpen at e
  injection e with e
  subst e
  have h := Keeps.refl 36864 s
  repeat' first
    | with_reducible assumption
    | ((try lift_lets -underBinder); intro (x : State); refine have hx : Keeps 36864 s x := ?_; ?_; rotate_left; clear_value x; rotate_right; dsimp -zeta only [x]; clear x)
    | ((try lift_lets -underBinder); intro x; clear_value x)
    | with_reducible apply Keeps.app ?_ (keeps_markStarted ..) ?_
    | with_reducible apply Keeps.app ?_ (keeps_modInflight ..) ?_
    | exact rfl
    | with_reducible apply keeps_modTcs ?_ ?_ ?_ ?_ ?_ ?_ ?_
    | ((with_reducible apply Or.inl); exact rfl)
    | ((with_reducible apply Or.inr); simp only [Part.same, and_self, modTcs])
    | (intro _)
    | split

theorem keeps_execEnvJoin a0 a1 s t (e : execEnvJoin a0 a1 s = .next t) : Keeps 37888 s t := by
  unfold execEnvJoin at e
  injection e with e
  subst e
  have h := Keeps.refl 37888 s
  repeat' first
    | with_reducible assumption
    | ((try lift_lets -underBinder); intro (x : State); refine have hx : Keeps 37888 s x := ?_; ?_; rotate_left; clear_value x; rotate_right; dsimp -zeta only [x]; clear x)
    | ((try lift_lets -underBinder); intro x; clear_value x)
    | with_reducible apply Keeps.ite ?_ ?_
    | with_reducible apply Keeps.app ?_ (keeps_modInflight ..) ?_
    | with_reducible apply Keeps.app ?_ (keeps_markStarted ..) ?_
    | with_reducible apply Keeps.app ?_ (keeps_modEnv ..) ?_
    | with_reducible apply Keeps.app ?_ (keeps_modQueue ..) ?_
    | with_reducible apply Keeps.app ?_ (keeps_enterPart ..) ?_
    | with_reducible apply Keeps.app ?_ (keeps_purgeEnvs ..) ?_
    | with_reducible apply Keeps.app ?_ (keeps_skipPart ..) ?_
    | exact rfl
    | (intro _)
    | split

theorem keeps_execEnvClose a0 a1 s t (e : execEnvClose a0 a1 s = .next t) : Keeps 1353757746 s t := by
  unfold execEnvClose at e
  injection e with e
  subst e
  have h := Keeps.refl 1353757746 s
  repeat' first
    | with_reducible assumption
    | ((try lift_lets -underBinder); intro (x : State); refine have hx : Keeps 1353757746 s x := ?_; ?_; rotate_left; clear_value x; rotate_right; dsimp -zeta only [x]; clear x)
    | ((try lift_lets -underBinder); intro x; clear_value x)
    | with_reducible apply Keeps.ite ?_ ?_
    | with_reducible apply Keeps.app ?_ (keeps_releaseWait ..) ?_
    | with_reducible apply Keeps.app ?_ (keeps_markDone ..) ?_
    | with_reducible apply Keeps.app ?_ (keeps_eventP ..) ?_
    | with_reducible apply Keeps.app ?_ (keeps_modEnv ..) ?_
    | with_reducible apply Keeps.app ?_ (keeps_modQueue ..) ?_
    | with_reducible apply Keeps.app ?_ (keeps_markStarted ..) ?_
    | exact rfl
    | (intro _)
    | split

theorem keeps_execEnvelopeReady a0 a1 a2 s t (e : execEnvelopeReady a0 a1 s a2 = .next t) : Keeps 36310273467015218 s t := by
  unfold execEnvelopeReady at e
  injection e with e
  subst e
  have h := Keeps.refl 36310273467015218 s
  repeat' first
    | with_reducible assumption
    | ((try lift_lets -underBinder); intro (x : State); refine have hx : Keeps 36310273467015218 s x := ?_; ?_; rotate_left; clear_value x; rotate_right; dsimp -zeta only [x]; clear x)
    | ((try lift_lets -underBinder); intro x; clear_value x)
    | with_reducible apply Keeps.ite ?_ ?_
    | with_reducible apply Keeps.app ?_ (keeps_keepStored ..) ?_
    | with_reducible apply keeps_meetErrors
    | with_reducible apply Keeps.app ?_ (keeps_modEnv ..) ?_
    | with_reducible apply Keeps.app ?_ (keeps_stampHead ..) ?_
    | exact rfl
    | with_reducible apply keeps_modTcs ?_ ?_ ?_ ?_ ?_ ?_ ?_
    | ((with_reducible apply Or.inl); exact rfl)
    | ((with_reducible apply Or.inr); simp only [Part.same, and_self, modTcs])
    | (intro _)
    | split

theorem keeps_execAdmissionEvaluate a0 a1 s t (e : execAdmissionEvaluate a0 s a1 = .next t) : Keeps 36310273467020338 s t := by
  unfold execAdmissionEvaluate at e
  injection e with e
  subst e
  have h := Keeps.refl 36310273467020338 s
  repeat' first
    | with_reducible assumption
    | ((try lift_lets -underBinder); intro (x : State); refine have hx : Keeps 36310273467020338 s x := ?_; ?_; rotate_left; clear_value x; rotate_right; dsimp -zeta only [x]; clear x)
    | ((try lift_lets -underBinder); intro x; clear_value x)
    | with_reducible apply Keeps.ite ?_ ?_
    | with_reducible apply keeps_meetErrors
    | with_reducible apply Keeps.app ?_ (keeps_acceptEnvelope ..) ?_
    | with_reducible apply Keeps.app ?_ (keeps_refuseEnvelope ..) ?_
    | exact rfl
    | (intro _)
    | split

theorem keeps_execProjectionEvaluate a0 a1 a2 s t (e : execProjectionEvaluate a0 a1 a2 s = .next t) : Keeps 281476330479666 s t := by
  unfold execProjectionEvaluate at e
  injection e with e
  subst e
  have h := Keeps.refl 281476330479666 s
  repeat' first
    | with_reducible assumption
    | ((try lift_lets -underBinder); intro (x : State); refine have hx : Keeps 281476330479666 s x := ?_; ?_; rotate_left; clear_value x; rotate_right; dsimp -zeta only [x]; clear x)
    | ((try lift_lets -underBinder); intro x; clear_value x)
    | with_reducible apply Keeps.ite ?_ ?_
    | with_reducible apply Keeps.app ?_ (keeps_noteDraw ..) ?_
    | with_reducible apply Keeps.app ?_ (keeps_revoke ..) ?_
    | exact rfl
    | (intro _)
    | split

theorem keeps_execEnvelopeComplete a0 a1 s t (e : execEnvelopeComplete a0 a1 s = .next t) : Keeps 281476330467378 s t := by
  unfold execEnvelopeComplete at e
  injection e with e
  subst e
  have h := Keeps.refl 281476330467378 s
  repeat' first
    | with_reducible assumption
    | ((try lift_lets -underBinder); intro (x : State); refine have hx : Keeps 281476330467378 s x := ?_; ?_; rotate_left; clear_value x; rotate_right; dsimp -zeta only [x]; clear x)
    | ((try lift_lets -underBinder); intro (x : State × _); refine have hx : Keeps 281476330467378 s x.1 := ?_; ?_; rotate_left; clear_value x; rotate_right; dsimp -zeta only [x]; clear x)
    | ((try lift_lets -underBinder); intro x; clear_value x)
    | with_reducible apply Keeps.ite ?_ ?_
    | with_reducible apply Keeps.app ?_ (keeps_countDrawn ..) ?_
    | with_reducible apply Keeps.app ?_ (keeps_markDone ..) ?_
    | with_reducible apply Keeps.app ?_ (keeps_releaseProtected ..) ?_
    | with_reducible apply Keeps.app ?_ (keeps_modEnv ..) ?_
    | with_reducible apply Keeps.app ?_ (keeps_respond ..) ?_
    | with_reducible apply Keeps.app ?_ (keeps_purgeEnvs ..) ?_
    | exact rfl
    | with_reducible apply Keeps.foldl ?_ _ _ ?_
    | with_reducible apply Keeps.foldlFst ?_ _ _ ?_
    | (intro _)
    | split

theorem keeps_execTxMove a0 a1 a2 s t (e : execTxMove a0 a1 a2 s = .next t) : Keeps 36451011626528818 s t := by
  unfold execTxMove at e
  injection e with e
  subst e
  have h := Keeps.refl 36451011626528818 s
  repeat' first
    | with_reducible assumption
    | with_reducible apply Keeps.app ?_ (keeps_transferRow ..) ?_
    | exact rfl
    | (intro _)
    | split

theorem keeps_execTxFetch a0 a1 a2 s t (e : execTxFetch a0 a1 a2 s = .next t) : Keeps 36451011626528818 s t := by
  unfold execTxFetch at e
  injection e with e
  subst e
  have h := Keeps.refl 36451011626528818 s
  repeat' first
    | with_reducible assumption
    | with_reducible apply Keeps.app ?_ (keeps_transferRow ..) ?_
    | exact rfl
    | (intro _)
    | split

theorem keeps_execTxSpill a0 a1 a2 s t (e : execTxSpill a0 a1 s a2 = .next t) : Keeps 36451011626528818 s t := by
  unfold execTxSpill at e
  injection e with e
  subst e
  have h := Keeps.refl 36451011626528818 s
  repeat' first
    | with_reducible assumption
    | with_reducible apply Keeps.app ?_ (keeps_transferRow ..) ?_
    | exact rfl
    | (intro _)
    | split

theorem keeps_execTxPin a0 a1 s t (e : execTxPin a0 a1 s = .next t) : Keeps 140739513790514 s t := by
  unfold execTxPin at e
  injection e with e
  subst e
  have h := Keeps.refl 140739513790514 s
  repeat' first
    | with_reducible assumption
    | with_reducible apply keeps_txRow
    | with_reducible apply Keeps.app ?_ (keeps_doPin ..) ?_
    | exact rfl
    | (intro _)
    | split

theorem keeps_execTxUnpin a0 a1 s t (e : execTxUnpin a0 a1 s = .next t) : Keeps 140739513790514 s t := by
  unfold execTxUnpin at e
  injection e with e
  subst e
  have h := Keeps.refl 140739513790514 s
  repeat' first
    | with_reducible assumption
    | with_reducible apply keeps_txRow
    | with_reducible apply Keeps.app ?_ (keeps_setPins ..) ?_
    | exact rfl
    | (intro _)
    | split

theorem keeps_execTxAttr a0 a1 s t (e : execTxAttr a0 a1 s = .next t) : Keeps 140739513790514 s t := by
  unfold execTxAttr at e
  injection e with e
  subst e
  have h := Keeps.refl 140739513790514 s
  repeat' first
    | with_reducible assumption
    | with_reducible apply keeps_txRow
    | with_reducible apply Keeps.app ?_ (keeps_doAttr ..) ?_
    | exact rfl
    | (intro _)
    | split

theorem keeps_execTxMap a0 a1 s t (e : execTxMap a0 a1 s = .next t) : Keeps 140739513790514 s t := by
  unfold execTxMap at e
  injection e with e
  subst e
  have h := Keeps.refl 140739513790514 s
  repeat' first
    | with_reducible assumption
    | with_reducible apply keeps_txRow
    | with_reducible apply Keeps.app ?_ (keeps_doMap ..) ?_
    | exact rfl
    | (intro _)
    | split

theorem keeps_execTxUnmap a0 a1 s t (e : execTxUnmap a0 a1 s = .next t) : Keeps 140739513790514 s t := by
  unfold execTxUnmap at e
  injection e with e
  subst e
  have h := Keeps.refl 140739513790514 s
  repeat' first
    | with_reducible assumption
    | with_reducible apply keeps_txRow
    | with_reducible apply Keeps.app ?_ (keeps_unmapExact ..) ?_
    | exact rfl
    | (intro _)
    | split

theorem keeps_execMemRgnGo a0 s t (e : execMemRgnGo a0 s = .next t) : Keeps 1886912512 s t := by
  unfold execMemRgnGo at e
  injection e with e
  subst e
  have h := Keeps.refl 1886912512 s
  repeat' first
    | with_reducible assumption
    | with_reducible apply Keeps.ite ?_ ?_
    | with_reducible apply Keeps.app ?_ (keeps_runMailbox ..) ?_
    | exact rfl
    | (intro _)
    | split

theorem keeps_demandRoom {s s1 : State} {p sl b : Nat} {r : Region} {tier x : Tier}
    (e : demandRoom s p sl b r tier = some (x, s1)) : Keeps 36310274003886130 s s1 := by
  have k := fun y t (w : allocateFor p sl b r y s = some t) =>
    OptKeeps.app (m := 36310274003886130) rfl (keeps_allocateFor p sl b r y s) (Keeps.refl 36310274003886130 s) t w
  unfold demandRoom at e
  split at e
  · next u w => cases e; exact k _ _ w
  · split at e
    · simp only [Option.map_eq_some_iff, Prod.mk.injEq] at e
      obtain ⟨u, w, _, rfl⟩ := e
      exact k _ _ w
    · cases e

theorem keeps_execDemandMigration a0 a1 a2 a3 a4 a5 s t (e : execDemandMigration a0 a1 a2 a3 a4 a5 s = .next t) :
    Keeps 36310274003886130 s t := by
  unfold execDemandMigration at e
  injection e with e
  subst e
  have h := Keeps.refl 36310274003886130 s
  repeat' first
    | with_reducible assumption
    | (intro x; clear_value x)
    | with_reducible apply Keeps.ite ?_ ?_
    | with_reducible apply Keeps.app ?_ (keeps_eventUnmapped ..) ?_
    | with_reducible apply keeps_meetErrors
    | with_reducible apply Keeps.app ?_ (keeps_beginMigration ..) ?_
    | with_reducible apply Keeps.app ?_ (keeps_beginHomes ..) ?_
    | exact keeps_demandRoom ‹_›
    | exact rfl
    | (intro _)
    | split

theorem keeps_execMigrationComplete a0 a1 a2 s t (e : execMigrationComplete a0 a1 a2 s = .next t) : Keeps 1886916608 s t := by
  unfold execMigrationComplete at e
  injection e with e
  subst e
  have h := Keeps.refl 1886916608 s
  repeat' first
    | with_reducible assumption
    | ((try lift_lets -underBinder); intro (x : State); refine have hx : Keeps 1886916608 s x := ?_; ?_; rotate_left; clear_value x; rotate_right; dsimp -zeta only [x]; clear x)
    | ((try lift_lets -underBinder); intro x; clear_value x)
    | with_reducible apply Keeps.ite ?_ ?_
    | with_reducible apply Keeps.app ?_ (keeps_pumpMailbox ..) ?_
    | with_reducible apply Keeps.app ?_ (keeps_finishMigration ..) ?_
    | exact rfl
    | (intro _)
    | split

theorem keeps_execPatrolScrub a0 s t (e : execPatrolScrub a0 s = .next t) : Keeps 36310273399906354 s t := by
  unfold execPatrolScrub at e
  injection e with e
  subst e
  have h := Keeps.refl 36310273399906354 s
  repeat' first
    | with_reducible assumption
    | with_reducible apply Keeps.app ?_ (keeps_noteErrors ..) ?_
    | exact rfl
    | (intro _)
    | split

theorem keeps_execT1RehashComplete a0 s t (e : execT1RehashComplete a0 s = .next t) : Keeps 1387274290 s t := by
  unfold execT1RehashComplete at e
  injection e with e
  subst e
  have h := Keeps.refl 1387274290 s
  repeat' first
    | with_reducible assumption
    | ((try lift_lets -underBinder); intro x; clear_value x)
    | with_reducible apply Keeps.ite ?_ ?_
    | with_reducible apply Keeps.app ?_ (keeps_eventRetireT1 ..) ?_
    | exact rfl
    | with_reducible apply keeps_modMem ?_ ?_ ?_ ?_ ?_ ?_ ?_ ?_ ?_
    | ((with_reducible apply Or.inl); exact rfl)
    | ((with_reducible apply Or.inr); simp only [Part.same, and_self, modMem])
    | (intro _; exact rfl)
    | (intro _)
    | split

theorem keeps_execMemRaClear a0 s t (e : execMemRaClear a0 s = .next t) : Keeps 8388608 s t := by
  unfold execMemRaClear at e
  injection e with e
  subst e
  have h := Keeps.refl 8388608 s
  repeat' first
    | with_reducible assumption
    | ((try lift_lets -underBinder); intro x; clear_value x)
    | exact rfl
    | with_reducible apply keeps_modMem ?_ ?_ ?_ ?_ ?_ ?_ ?_ ?_ ?_
    | ((with_reducible apply Or.inl); exact rfl)
    | ((with_reducible apply Or.inr); simp only [Part.same, and_self, modMem])
    | (intro _; exact rfl)
    | (intro _)
    | split

theorem keeps_execTxGbind a0 a1 a2 s t (e : execTxGbind a0 a1 s a2 = .next t) : Keeps 36451011626528819 s t := by
  unfold execTxGbind at e
  injection e with e
  subst e
  have h := Keeps.refl 36451011626528819 s
  repeat' first
    | with_reducible assumption
    | ((try lift_lets -underBinder); intro x; clear_value x)
    | with_reducible apply Keeps.ite ?_ ?_
    | with_reducible apply keeps_runNowAt
    | with_reducible apply keeps_meetErrors
    | with_reducible apply Keeps.app ?_ (keeps_doBind ..) ?_
    | exact rfl
    | (intro _)
    | split

theorem keeps_execTxGzero a0 a1 s t (e : execTxGzero a0 a1 s = .next t) : Keeps 140739043504179 s t := by
  unfold execTxGzero at e
  injection e with e
  subst e
  have h := Keeps.refl 140739043504179 s
  repeat' first
    | with_reducible assumption
    | ((try lift_lets -underBinder); intro x; clear_value x)
    | with_reducible apply Keeps.ite ?_ ?_
    | with_reducible apply keeps_runNow
    | with_reducible apply Keeps.app ?_ (keeps_doZero ..) ?_
    | exact rfl
    | (intro _)
    | split

theorem keeps_execTxGflush a0 a1 a2 s t (e : execTxGflush a0 a1 s a2 = .next t) : Keeps 36486195998617651 s t := by
  unfold execTxGflush at e
  injection e with e
  subst e
  have h := Keeps.refl 36486195998617651 s
  repeat' first
    | with_reducible assumption
    | ((try lift_lets -underBinder); intro x; clear_value x)
    | with_reducible apply Keeps.app ?_ (keeps_flushTurn ..) ?_
    | with_reducible apply keeps_runLongAt
    | with_reducible apply Keeps.app ?_ (keeps_flushStart ..) ?_
    | exact rfl
    | (intro _)
    | split

theorem keeps_execGflushWaitTimeout a0 a1 a2 s t (e : execGflushWaitTimeout a0 a1 s a2 = .next t) : Keeps 36310274138107955 s t := by
  unfold execGflushWaitTimeout at e
  injection e with e
  subst e
  have h := Keeps.refl 36310274138107955 s
  repeat' first
    | with_reducible assumption
    | ((try lift_lets -underBinder); intro x; clear_value x)
    | with_reducible apply Keeps.app ?_ (keeps_flushTurn ..) ?_
    | exact rfl
    | (intro _)
    | split

theorem keeps_execGabContributionAdd a0 a1 a2 a3 s t (e : execGabContributionAdd a0 a1 a2 s a3 = .next t) : Keeps 36380642345414707 s t := by
  unfold execGabContributionAdd at e
  injection e with e
  subst e
  have h := Keeps.refl 36380642345414707 s
  repeat' first
    | with_reducible assumption
    | ((try lift_lets -underBinder); intro x; clear_value x)
    | with_reducible apply Keeps.ite ?_ ?_
    | with_reducible apply keeps_meetErrors
    | with_reducible apply Keeps.app ?_ (keeps_contribStep ..) ?_
    | exact rfl
    | (intro _)
    | split

theorem keeps_execGabWaitTimeout a0 a1 a2 s t (e : execGabWaitTimeout a0 a1 a2 s = .next t) : Keeps 1555050547 s t := by
  unfold execGabWaitTimeout at e
  injection e with e
  subst e
  have h := Keeps.refl 1555050547 s
  repeat' first
    | with_reducible assumption
    | ((try lift_lets -underBinder); intro x; clear_value x)
    | with_reducible apply Keeps.app ?_ (keeps_contribTimeout ..) ?_
    | exact rfl
    | (intro _)
    | split

theorem keeps_execTxCkpt a0 a1 a2 s t (e : execTxCkpt a0 a1 s a2 = .next t) : Keeps 36451011626528818 s t := by
  unfold execTxCkpt at e
  injection e with e
  subst e
  have h := Keeps.refl 36451011626528818 s
  repeat' first
    | with_reducible assumption
    | ((try lift_lets -underBinder); intro (x : State); refine have hx : Keeps 36451011626528818 s x := ?_; ?_; rotate_left; clear_value x; rotate_right; dsimp -zeta only [x]; clear x)
    | ((try lift_lets -underBinder); intro x; clear_value x)
    | with_reducible apply Keeps.ite ?_ ?_
    | with_reducible apply keeps_runLong
    | with_reducible apply Keeps.app ?_ (keeps_markDone ..) ?_
    | with_reducible apply Keeps.app ?_ (keeps_txRefuse ..) ?_
    | with_reducible apply keeps_meetErrors
    | with_reducible apply Keeps.app ?_ (keeps_journal ..) ?_
    | exact rfl
    | with_reducible apply keeps_modNvt ?_ ?_ ?_ ?_ ?_
    | ((with_reducible apply Or.inl); exact rfl)
    | ((with_reducible apply Or.inr); simp only [Part.same, and_self, modNvt])
    | (intro _)
    | split

theorem keeps_execTxRestore a0 a1 a2 s t (e : execTxRestore a0 a1 a2 s = .next t) : Keeps 36451011627053106 s t := by
  unfold execTxRestore at e
  injection e with e
  subst e
  have h := Keeps.refl 36451011627053106 s
  repeat' first
    | with_reducible assumption
    | ((try lift_lets -underBinder); intro (x : State); refine have hx : Keeps 36451011627053106 s x := ?_; ?_; rotate_left; clear_value x; rotate_right; dsimp -zeta only [x]; clear x)
    | ((try lift_lets -underBinder); intro x; clear_value x)
    | with_reducible apply Keeps.ite ?_ ?_
    | with_reducible apply Keeps.app ?_ (keeps_restoreNext ..) ?_
    | with_reducible apply Keeps.app ?_ (keeps_homeRecord ..) ?_
    | with_reducible apply Keeps.app ?_ (keeps_restoreStart ..) ?_
    | with_reducible apply keeps_whenFree
    | exact rfl
    | (intro _)
    | split

theorem keeps_execTxCkdrop a0 a1 s t (e : execTxCkdrop a0 a1 s = .next t) : Keeps 140739513266226 s t := by
  unfold execTxCkdrop at e
  injection e with e
  subst e
  have h := Keeps.refl 140739513266226 s
  repeat' first
    | with_reducible assumption
    | ((try lift_lets -underBinder); intro (x : State); refine have hx : Keeps 140739513266226 s x := ?_; ?_; rotate_left; clear_value x; rotate_right; dsimp -zeta only [x]; clear x)
    | ((try lift_lets -underBinder); intro x; clear_value x)
    | with_reducible apply Keeps.ite ?_ ?_
    | with_reducible apply keeps_runNow
    | with_reducible apply Keeps.app ?_ (keeps_txRefuse ..) ?_
    | with_reducible apply Keeps.app ?_ (keeps_freeImage ..) ?_
    | exact rfl
    | with_reducible apply keeps_modNvt ?_ ?_ ?_ ?_ ?_
    | ((with_reducible apply Or.inl); exact rfl)
    | ((with_reducible apply Or.inr); simp only [Part.same, and_self, modNvt])
    | (intro _)
    | split

theorem keeps_execJournalRecordDurable s t (e : execJournalRecordDurable s = .next t) : Keeps 4034400256 s t := by
  unfold execJournalRecordDurable at e
  injection e with e
  subst e
  have h := Keeps.refl 4034400256 s
  repeat' first
    | with_reducible assumption
    | ((try lift_lets -underBinder); intro (x : State); refine have hx : Keeps 4034400256 s x := ?_; ?_; rotate_left; clear_value x; rotate_right; dsimp -zeta only [x]; clear x)
    | ((try lift_lets -underBinder); intro x; clear_value x)
    | with_reducible apply Keeps.app ?_ (keeps_beginDurable ..) ?_
    | with_reducible apply Keeps.app ?_ (keeps_flashWork ..) ?_
    | with_reducible apply Keeps.app ?_ (keeps_modCommit ..) ?_
    | with_reducible apply Keeps.app ?_ (keeps_commitDurable ..) ?_
    | with_reducible apply Keeps.app ?_ (keeps_markDone ..) ?_
    | with_reducible apply Keeps.app ?_ (keeps_dropCommit ..) ?_
    | with_reducible apply Keeps.app ?_ (keeps_pumpMailbox ..) ?_
    | with_reducible apply Keeps.app ?_ (keeps_finishMigration ..) ?_
    | with_reducible apply Keeps.app ?_ (keeps_relocDurable ..) ?_
    | exact rfl
    | with_reducible apply keeps_modNvt ?_ ?_ ?_ ?_ ?_
    | ((with_reducible apply Or.inl); exact rfl)
    | ((with_reducible apply Or.inr); simp only [Part.same, and_self, modNvt])
    | with_reducible apply Keeps.mapGetD
    | (intro _)
    | split

theorem keeps_execFlashProgramComplete a0 s t (e : execFlashProgramComplete s a0 = .next t) : Keeps 36310276156088370 s t := by
  unfold execFlashProgramComplete at e
  injection e with e
  subst e
  have h := Keeps.refl 36310276156088370 s
  repeat' first
    | with_reducible assumption
    | ((try lift_lets -underBinder); intro (x : State); refine have hx : Keeps 36310276156088370 s x := ?_; ?_; rotate_left; clear_value x; rotate_right; dsimp -zeta only [x]; clear x)
    | ((try lift_lets -underBinder); intro x; clear_value x)
    | with_reducible apply Keeps.ite ?_ ?_
    | with_reducible apply Keeps.app ?_ (keeps_programDone ..) ?_
    | exact rfl
    | with_reducible apply keeps_modNvt ?_ ?_ ?_ ?_ ?_
    | ((with_reducible apply Or.inl); exact rfl)
    | ((with_reducible apply Or.inr); simp only [Part.same, and_self, modNvt])
    | (intro _)
    | split

theorem keeps_execStaticWearLevelling a0 s t (e : execStaticWearLevelling a0 s = .next t) : Keeps 2952790016 s t := by
  unfold execStaticWearLevelling at e
  injection e with e
  subst e
  have h := Keeps.refl 2952790016 s
  repeat' first
    | with_reducible assumption
    | ((try lift_lets -underBinder); intro (x : State); refine have hx : Keeps 2952790016 s x := ?_; ?_; rotate_left; clear_value x; rotate_right; dsimp -zeta only [x]; clear x)
    | ((try lift_lets -underBinder); intro x; clear_value x)
    | with_reducible apply Keeps.ite ?_ ?_
    | with_reducible apply Keeps.app ?_ (keeps_relocate ..) ?_
    | exact rfl
    | with_reducible apply keeps_modNvt ?_ ?_ ?_ ?_ ?_
    | ((with_reducible apply Or.inl); exact rfl)
    | ((with_reducible apply Or.inr); simp only [Part.same, and_self, modNvt])
    | (intro _)
    | split

theorem keeps_execReadDisturbRefresh a0 s t (e : execReadDisturbRefresh a0 s = .next t) : Keeps 2952790016 s t := by
  unfold execReadDisturbRefresh at e
  injection e with e
  subst e
  have h := Keeps.refl 2952790016 s
  repeat' first
    | with_reducible assumption
    | with_reducible apply Keeps.ite ?_ ?_
    | with_reducible apply Keeps.app ?_ (keeps_relocate ..) ?_
    | exact rfl
    | (intro _)
    | split

theorem keeps_execRetentionScan a0 a1 a2 s t (e : execRetentionScan a0 a1 s a2 = .next t) : Keeps 36310273467015218 s t := by
  unfold execRetentionScan at e
  injection e with e
  subst e
  have h := Keeps.refl 36310273467015218 s
  repeat' first
    | with_reducible assumption
    | ((try lift_lets -underBinder); intro x; clear_value x)
    | with_reducible apply Keeps.ite ?_ ?_
    | with_reducible apply keeps_meetErrors
    | with_reducible apply Keeps.app ?_ (keeps_modBlock ..) ?_
    | exact rfl
    | (intro _)
    | split

theorem keeps_execRetentionRefresh a0 s t (e : execRetentionRefresh a0 s = .next t) : Keeps 2952790016 s t := by
  unfold execRetentionRefresh at e
  injection e with e
  subst e
  have h := Keeps.refl 2952790016 s
  repeat' first
    | with_reducible assumption
    | ((try lift_lets -underBinder); intro (x : State); refine have hx : Keeps 2952790016 s x := ?_; ?_; rotate_left; clear_value x; rotate_right; dsimp -zeta only [x]; clear x)
    | ((try lift_lets -underBinder); intro x; clear_value x)
    | with_reducible apply Keeps.ite ?_ ?_
    | with_reducible apply Keeps.app ?_ (keeps_relocate ..) ?_
    | exact rfl
    | (intro _)
    | split

theorem keeps_execBadBlockRetire a0 a1 s t (e : execBadBlockRetire a0 s a1 = .next t) : Keeps 36028801057169458 s t := by
  unfold execBadBlockRetire at e
  injection e with e
  subst e
  have h := Keeps.refl 36028801057169458 s
  repeat' first
    | with_reducible assumption
    | ((try lift_lets -underBinder); intro (x : State); refine have hx : Keeps 36028801057169458 s x := ?_; ?_; rotate_left; clear_value x; rotate_right; dsimp -zeta only [x]; clear x)
    | ((try lift_lets -underBinder); intro x; clear_value x)
    | with_reducible apply Keeps.ite ?_ ?_
    | with_reducible apply Keeps.app ?_ (keeps_modHw ..) ?_
    | with_reducible apply Keeps.app ?_ (keeps_modBlock ..) ?_
    | with_reducible apply Keeps.app ?_ (keeps_spareEvents ..) ?_
    | with_reducible apply Keeps.app ?_ (keeps_relocate ..) ?_
    | exact rfl
    | (intro _)
    | split

theorem keeps_execGarbageCollection s t (e : execGarbageCollection s = .next t) : Keeps 2952790016 s t := by
  unfold execGarbageCollection at e
  injection e with e
  subst e
  have h := Keeps.refl 2952790016 s
  repeat' first
    | with_reducible assumption
    | ((try lift_lets -underBinder); intro x; clear_value x)
    | with_reducible apply Keeps.app ?_ (keeps_relocate ..) ?_
    | exact rfl
    | (intro _)
    | split

theorem keeps_execGcThrottle a0 a1 a2 s t (e : execGcThrottle a0 a1 a2 s = .next t) : Keeps 2251803314888754 s t := by
  unfold execGcThrottle at e
  injection e with e
  subst e
  have h := Keeps.refl 2251803314888754 s
  repeat' first
    | with_reducible assumption
    | ((try lift_lets -underBinder); intro (x : State); refine have hx : Keeps 2251803314888754 s x := ?_; ?_; rotate_left; clear_value x; rotate_right; dsimp -zeta only [x]; clear x)
    | ((try lift_lets -underBinder); intro x; clear_value x)
    | with_reducible apply Keeps.ite ?_ ?_
    | with_reducible apply Keeps.app ?_ (keeps_eventD ..) ?_
    | with_reducible apply Keeps.foldl ?_ _ _ ?_
    | with_reducible apply Keeps.app ?_ (keeps_noteTierWait ..) ?_
    | (intro _ _ _)
    | exact rfl
    | with_reducible apply keeps_modNvt ?_ ?_ ?_ ?_ ?_
    | ((with_reducible apply Or.inl); exact rfl)
    | ((with_reducible apply Or.inr); simp only [Part.same, and_self, modNvt])
    | (intro _)
    | split

theorem keeps_execNvtGcClear s t (e : execNvtGcClear s = .next t) : Keeps 2147483648 s t := by
  unfold execNvtGcClear at e
  injection e with e
  subst e
  have h := Keeps.refl 2147483648 s
  repeat' first
    | with_reducible assumption
    | ((try lift_lets -underBinder); intro x; clear_value x)
    | exact rfl
    | with_reducible apply keeps_modNvt ?_ ?_ ?_ ?_ ?_
    | ((with_reducible apply Or.inl); exact rfl)
    | ((with_reducible apply Or.inr); simp only [Part.same, and_self, modNvt])
    | (intro _)
    | split

theorem keeps_execCurrentWindowGrant s t (e : execCurrentWindowGrant s = .next t) : Keeps 4503599627698176 s t := by
  unfold execCurrentWindowGrant at e
  injection e with e
  subst e
  have h := Keeps.refl 4503599627698176 s
  repeat' first
    | with_reducible assumption
    | ((try lift_lets -underBinder); intro (x : State); refine have hx : Keeps 4503599627698176 s x := ?_; ?_; rotate_left; clear_value x; rotate_right; dsimp -zeta only [x]; clear x)
    | ((try lift_lets -underBinder); intro (x : State × _); refine have hx : Keeps 4503599627698176 s x.1 := ?_; ?_; rotate_left; clear_value x; rotate_right; dsimp -zeta only [x]; clear x)
    | ((try lift_lets -underBinder); intro x; clear_value x)
    | with_reducible apply Keeps.ite ?_ ?_
    | with_reducible apply Keeps.app ?_ (keeps_setLevel ..) ?_
    | exact rfl
    | with_reducible apply keeps_modMxa ?_ ?_ ?_ ?_
    | ((with_reducible apply Or.inl); exact rfl)
    | ((with_reducible apply Or.inr); simp only [Part.same, and_self, modMxa])
    | with_reducible apply Keeps.foldl ?_ _ _ ?_
    | with_reducible apply Keeps.foldlFst ?_ _ _ ?_
    | (intro _)
    | split

theorem keeps_execFillFloorTimeout a0 s t (e : execFillFloorTimeout a0 s = .next t) : Keeps 65536 s t := by
  unfold execFillFloorTimeout at e
  injection e with e
  subst e
  have h := Keeps.refl 65536 s
  repeat' first
    | with_reducible assumption
    | ((try lift_lets -underBinder); intro (x : State); refine have hx : Keeps 65536 s x := ?_; ?_; rotate_left; clear_value x; rotate_right; dsimp -zeta only [x]; clear x)
    | ((try lift_lets -underBinder); intro x; clear_value x)
    | with_reducible apply Keeps.ite ?_ ?_
    | with_reducible apply Keeps.app ?_ (keeps_modArr ..) ?_
    | exact rfl
    | (intro _)
    | split

theorem keeps_execColumnSpare a0 a1 s t (e : execColumnSpare a0 a1 s = .next t) : Keeps 36028798372814898 s t := by
  unfold execColumnSpare at e
  injection e with e
  subst e
  have h := Keeps.refl 36028798372814898 s
  repeat' first
    | with_reducible assumption
    | ((try lift_lets -underBinder); intro (x : State); refine have hx : Keeps 36028798372814898 s x := ?_; ?_; rotate_left; clear_value x; rotate_right; dsimp -zeta only [x]; clear x)
    | ((try lift_lets -underBinder); intro x; clear_value x)
    | with_reducible apply Keeps.ite ?_ ?_
    | with_reducible apply Keeps.app ?_ (keeps_modHw ..) ?_
    | with_reducible apply Keeps.app ?_ (keeps_retireDecide ..) ?_
    | with_reducible apply Keeps.app ?_ (keeps_eventOn ..) ?_
    | exact rfl
    | with_reducible apply keeps_modMxa ?_ ?_ ?_ ?_
    | ((with_reducible apply Or.inl); exact rfl)
    | ((with_reducible apply Or.inr); simp only [Part.same, and_self, modMxa])
    | (intro _)
    | split

theorem keeps_execArrayRetire a0 a1 s t (e : execArrayRetire a0 a1 s = .next t) : Keeps 36310273366417459 s t := by
  unfold execArrayRetire at e
  injection e with e
  subst e
  have h := Keeps.refl 36310273366417459 s
  repeat' first
    | with_reducible assumption
    | ((try lift_lets -underBinder); intro (x : State); refine have hx : Keeps 36310273366417459 s x := ?_; ?_; rotate_left; clear_value x; rotate_right; dsimp -zeta only [x]; clear x)
    | ((try lift_lets -underBinder); intro x; clear_value x)
    | with_reducible apply Keeps.ite ?_ ?_
    | with_reducible apply Keeps.app ?_ (keeps_spareLeaves ..) ?_
    | with_reducible apply Keeps.app ?_ (keeps_modHw ..) ?_
    | with_reducible apply Keeps.app ?_ (keeps_copyToSpare ..) ?_
    | with_reducible apply Keeps.app ?_ (keeps_eventOn ..) ?_
    | with_reducible apply Keeps.app ?_ (keeps_noteCopyErrors ..) ?_
    | with_reducible apply Keeps.app ?_ (keeps_capacityLoss ..) ?_
    | exact rfl
    | with_reducible apply keeps_modMxa ?_ ?_ ?_ ?_
    | ((with_reducible apply Or.inl); exact rfl)
    | ((with_reducible apply Or.inr); simp only [Part.same, and_self, modMxa])
    | (intro _)
    | split

theorem keeps_execShadowMismatchVote a0 a1 s t (e : execShadowMismatchVote a0 a1 s = .next t) : Keeps 36029348128694322 s t := by
  unfold execShadowMismatchVote at e
  injection e with e
  subst e
  have h := Keeps.refl 36029348128694322 s
  repeat' first
    | with_reducible assumption
    | ((try lift_lets -underBinder); intro (x : State); refine have hx : Keeps 36029348128694322 s x := ?_; ?_; rotate_left; clear_value x; rotate_right; dsimp -zeta only [x]; clear x)
    | ((try lift_lets -underBinder); intro x; clear_value x)
    | with_reducible apply Keeps.app ?_ (keeps_modArr ..) ?_
    | with_reducible apply Keeps.app ?_ (keeps_eventShadow ..) ?_
    | with_reducible apply Keeps.app ?_ (keeps_columnDecide ..) ?_
    | with_reducible apply Keeps.app ?_ (keeps_retireDecide ..) ?_
    | with_reducible apply Keeps.app ?_ (keeps_raiseSampling ..) ?_
    | exact rfl
    | with_reducible apply keeps_modFap ?_ ?_ ?_
    | ((with_reducible apply Or.inl); exact rfl)
    | ((with_reducible apply Or.inr); simp only [Part.same, and_self, modFap])
    | (intro _)
    | split

theorem keeps_execKnownAnswerTest a0 a1 s t (e : execKnownAnswerTest a0 a1 s = .next t) : Keeps 36029348128694322 s t := by
  unfold execKnownAnswerTest at e
  injection e with e
  subst e
  have h := Keeps.refl 36029348128694322 s
  repeat' first
    | with_reducible assumption
    | ((try lift_lets -underBinder); intro (x : State); refine have hx : Keeps 36029348128694322 s x := ?_; ?_; rotate_left; clear_value x; rotate_right; dsimp -zeta only [x]; clear x)
    | ((try lift_lets -underBinder); intro x; clear_value x)
    | with_reducible apply Keeps.ite ?_ ?_
    | with_reducible apply Keeps.app ?_ (keeps_katFail ..) ?_
    | with_reducible apply Keeps.app ?_ (keeps_columnDecide ..) ?_
    | with_reducible apply Keeps.app ?_ (keeps_retireDecide ..) ?_
    | with_reducible apply Keeps.app ?_ (keeps_katLow ..) ?_
    | exact rfl
    | with_reducible apply keeps_modMxa ?_ ?_ ?_ ?_
    | ((with_reducible apply Or.inl); exact rfl)
    | ((with_reducible apply Or.inr); simp only [Part.same, and_self, modMxa])
    | (intro _)
    | split

theorem keeps_execFapShadowCntClear s t (e : execFapShadowCntClear s = .next t) : Keeps 549755813888 s t := by
  unfold execFapShadowCntClear at e
  injection e with e
  subst e
  have h := Keeps.refl 549755813888 s
  repeat' first
    | with_reducible assumption
    | ((try lift_lets -underBinder); intro x; clear_value x)
    | exact rfl
    | with_reducible apply keeps_modFap ?_ ?_ ?_
    | ((with_reducible apply Or.inl); exact rfl)
    | ((with_reducible apply Or.inr); simp only [Part.same, and_self, modFap])
    | (intro _)
    | split

theorem keeps_execFapRoundCntClear s t (e : execFapRoundCntClear s = .next t) : Keeps 549755813888 s t := by
  unfold execFapRoundCntClear at e
  injection e with e
  subst e
  have h := Keeps.refl 549755813888 s
  repeat' first
    | with_reducible assumption
    | ((try lift_lets -underBinder); intro x; clear_value x)
    | exact rfl
    | with_reducible apply keeps_modFap ?_ ?_ ?_
    | ((with_reducible apply Or.inl); exact rfl)
    | ((with_reducible apply Or.inr); simp only [Part.same, and_self, modFap])
    | (intro _)
    | split

theorem keeps_execChunkReceive a0 s t (e : execChunkReceive a0 s = .next t) : Keeps 36028914336931890 s t := by
  unfold execChunkReceive at e
  injection e with e
  subst e
  have h := Keeps.refl 36028914336931890 s
  repeat' first
    | with_reducible assumption
    | ((try lift_lets -underBinder); intro (x : State); refine have hx : Keeps 36028914336931890 s x := ?_; ?_; rotate_left; clear_value x; rotate_right; dsimp -zeta only [x]; clear x)
    | ((try lift_lets -underBinder); intro (x : State × _); refine have hx : Keeps 36028914336931890 s x.1 := ?_; ?_; rotate_left; clear_value x; rotate_right; dsimp -zeta only [x]; clear x)
    | ((try lift_lets -underBinder); intro x; clear_value x)
    | with_reducible apply Keeps.ite ?_ ?_
    | with_reducible apply Keeps.app ?_ (keeps_laneMismatch ..) ?_
    | with_reducible apply Keeps.app ?_ (keeps_setColl ..) ?_
    | with_reducible apply Keeps.app ?_ (keeps_pumpStreams ..) ?_
    | with_reducible apply Keeps.app ?_ (keeps_applyChunk ..) ?_
    | with_reducible apply Keeps.app ?_ (keeps_sendAck ..) ?_
    | exact rfl
    | with_reducible apply keeps_modCol ?_ ?_ ?_ ?_ ?_ ?_
    | ((with_reducible apply Or.inl); exact rfl)
    | ((with_reducible apply Or.inr); simp only [Part.same, and_self, modCol])
    | with_reducible apply Keeps.foldl ?_ _ _ ?_
    | with_reducible apply Keeps.foldlFst ?_ _ _ ?_
    | (intro _)
    | split

theorem keeps_execCoAred a0 a1 a2 s t (e : execCoAred a0 a1 s a2 = .next t) : Keeps 36487145186390066 s t := by
  unfold execCoAred at e
  injection e with e
  subst e
  have h := Keeps.refl 36487145186390066 s
  repeat' first
    | with_reducible assumption
    | with_reducible apply Keeps.app ?_ (keeps_coRow ..) ?_
    | exact rfl
    | (intro _)
    | split

theorem keeps_execCoRscat a0 a1 a2 s t (e : execCoRscat a0 a1 s a2 = .next t) : Keeps 36487145186390066 s t := by
  unfold execCoRscat at e
  injection e with e
  subst e
  have h := Keeps.refl 36487145186390066 s
  repeat' first
    | with_reducible assumption
    | with_reducible apply Keeps.app ?_ (keeps_coRow ..) ?_
    | exact rfl
    | (intro _)
    | split

theorem keeps_execCoAgath a0 a1 a2 s t (e : execCoAgath a0 a1 s a2 = .next t) : Keeps 36487145186390066 s t := by
  unfold execCoAgath at e
  injection e with e
  subst e
  have h := Keeps.refl 36487145186390066 s
  repeat' first
    | with_reducible assumption
    | with_reducible apply Keeps.app ?_ (keeps_coRow ..) ?_
    | exact rfl
    | (intro _)
    | split

theorem keeps_execCoBcast a0 a1 a2 s t (e : execCoBcast a0 a1 s a2 = .next t) : Keeps 36487145186390066 s t := by
  unfold execCoBcast at e
  injection e with e
  subst e
  have h := Keeps.refl 36487145186390066 s
  repeat' first
    | with_reducible assumption
    | with_reducible apply Keeps.app ?_ (keeps_coRow ..) ?_
    | exact rfl
    | (intro _)
    | split

theorem keeps_execCoBarr a0 a1 s t (e : execCoBarr a0 a1 s = .next t) : Keeps 36487145186390066 s t := by
  unfold execCoBarr at e
  injection e with e
  subst e
  have h := Keeps.refl 36487145186390066 s
  repeat' first
    | with_reducible assumption
    | with_reducible apply Keeps.app ?_ (keeps_coRow ..) ?_
    | exact rfl
    | (intro _)
    | split

theorem keeps_execCoA2a a0 a1 a2 s t (e : execCoA2a a0 a1 s a2 = .next t) : Keeps 36487145186390066 s t := by
  unfold execCoA2a at e
  injection e with e
  subst e
  have h := Keeps.refl 36487145186390066 s
  repeat' first
    | with_reducible assumption
    | with_reducible apply Keeps.app ?_ (keeps_coRow ..) ?_
    | exact rfl
    | (intro _)
    | split

theorem keeps_execCoA2av a0 a1 a2 s t (e : execCoA2av a0 a1 s a2 = .next t) : Keeps 36487145186390066 s t := by
  unfold execCoA2av at e
  injection e with e
  subst e
  have h := Keeps.refl 36487145186390066 s
  repeat' first
    | with_reducible assumption
    | with_reducible apply Keeps.app ?_ (keeps_coRow ..) ?_
    | exact rfl
    | (intro _)
    | split

theorem keeps_execCollectiveSeqStart a0 a1 a2 s t (e : execCollectiveSeqStart a0 a1 s a2 = .next t) : Keeps 36451960814235698 s t := by
  unfold execCollectiveSeqStart at e
  injection e with e
  subst e
  have h := Keeps.refl 36451960814235698 s
  repeat' first
    | with_reducible assumption
    | ((try lift_lets -underBinder); intro x; clear_value x)
    | with_reducible apply Keeps.ite ?_ ?_
    | with_reducible apply Keeps.app ?_ (keeps_coReject ..) ?_
    | with_reducible apply Keeps.app ?_ (keeps_coDiscard ..) ?_
    | with_reducible apply keeps_whenReached
    | with_reducible apply keeps_meetErrors
    | with_reducible apply Keeps.app ?_ (keeps_startColl ..) ?_
    | exact rfl
    | (intro _)
    | split

theorem keeps_execCoGbind a0 a1 a2 s t (e : execCoGbind a0 a1 s a2 = .next t) : Keeps 36451475482996786 s t := by
  unfold execCoGbind at e
  injection e with e
  subst e
  have h := Keeps.refl 36451475482996786 s
  repeat' first
    | with_reducible assumption
    | with_reducible apply Keeps.ite ?_ ?_
    | with_reducible apply keeps_runNowAt
    | with_reducible apply keeps_meetErrors
    | with_reducible apply Keeps.app ?_ (keeps_doGbind ..) ?_
    | exact rfl
    | (intro _)
    | split

theorem keeps_execCollectiveComplete a0 a1 a2 s t (e : execCollectiveComplete a0 a1 s a2 = .next t) : Keeps 36310810874802227 s t := by
  unfold execCollectiveComplete at e
  injection e with e
  subst e
  have h := Keeps.refl 36310810874802227 s
  repeat' first
    | with_reducible assumption
    | ((try lift_lets -underBinder); intro x; clear_value x)
    | with_reducible apply Keeps.ite ?_ ?_
    | with_reducible apply keeps_whenReached
    | with_reducible apply keeps_meetErrors
    | with_reducible apply Keeps.app ?_ (keeps_finishColl ..) ?_
    | exact rfl
    | (intro _)
    | split

theorem keeps_execCollectiveDeadline a0 a1 s t (e : execCollectiveDeadline a0 a1 s = .next t) : Keeps 950541496370 s t := by
  unfold execCollectiveDeadline at e
  injection e with e
  subst e
  have h := Keeps.refl 950541496370 s
  repeat' first
    | with_reducible assumption
    | ((try lift_lets -underBinder); intro (x : State); refine have hx : Keeps 950541496370 s x := ?_; ?_; rotate_left; clear_value x; rotate_right; dsimp -zeta only [x]; clear x)
    | ((try lift_lets -underBinder); intro x; clear_value x)
    | with_reducible apply Keeps.ite ?_ ?_
    | with_reducible apply Keeps.app ?_ (keeps_callGroup ..) ?_
    | exact rfl
    | (intro _)
    | split

theorem keeps_execFeedRequest a0 a1 s t (e : execFeedRequest a0 s a1 = .next t) : Keeps 36310518817022002 s t := by
  unfold execFeedRequest at e
  injection e with e
  subst e
  have h := Keeps.refl 36310518817022002 s
  repeat' first
    | with_reducible assumption
    | ((try lift_lets -underBinder); intro (x : State); refine have hx : Keeps 36310518817022002 s x := ?_; ?_; rotate_left; clear_value x; rotate_right; dsimp -zeta only [x]; clear x)
    | ((try lift_lets -underBinder); intro (fn : State → State); refine have hfn : ∀ t, Keeps 36310518817022002 s t → Keeps 36310518817022002 s (fn t) := ?_; ?_; rotate_left; clear_value fn; rotate_right; dsimp -zeta only [fn]; clear fn)
    | ((try lift_lets -underBinder); intro (fn2 : _ → State → State); refine have hfn2 : ∀ a t, Keeps 36310518817022002 s t → Keeps 36310518817022002 s (fn2 a t) := ?_; ?_; rotate_left; clear_value fn2; rotate_right; dsimp -zeta only [fn2]; clear fn2)
    | with_reducible apply hfn
    | with_reducible apply hfn2
    | ((try lift_lets -underBinder); intro x; clear_value x)
    | with_reducible apply Keeps.ite ?_ ?_
    | with_reducible apply keeps_whenReached
    | with_reducible apply Keeps.app ?_ (keeps_takeFeed ..) ?_
    | with_reducible apply keeps_meetErrors
    | with_reducible apply Keeps.app ?_ (keeps_sendFeed ..) ?_
    | exact rfl
    | with_reducible apply keeps_modCol ?_ ?_ ?_ ?_ ?_ ?_
    | ((with_reducible apply Or.inl); exact rfl)
    | ((with_reducible apply Or.inr); simp only [Part.same, and_self, modCol])
    | (intro _)
    | split

theorem keeps_execStreamOpen a0 a1 s t (e : execStreamOpen a0 a1 s = .next t) : Keeps 74368163890 s t := by
  unfold execStreamOpen at e
  injection e with e
  subst e
  have h := Keeps.refl 74368163890 s
  repeat' first
    | with_reducible assumption
    | ((try lift_lets -underBinder); intro x; clear_value x)
    | with_reducible apply Keeps.ite ?_ ?_
    | with_reducible apply Keeps.app ?_ (keeps_pumpStreams ..) ?_
    | with_reducible apply Keeps.app ?_ (keeps_openStream ..) ?_
    | with_reducible apply Keeps.app ?_ (keeps_refuseStream ..) ?_
    | exact rfl
    | with_reducible apply keeps_modCol ?_ ?_ ?_ ?_ ?_ ?_
    | ((with_reducible apply Or.inl); exact rfl)
    | ((with_reducible apply Or.inr); simp only [Part.same, and_self, modCol])
    | (intro _)
    | split

theorem keeps_execStreamAck a0 a1 s t (e : execStreamAck a0 a1 s = .next t) : Keeps 73014444032 s t := by
  unfold execStreamAck at e
  injection e with e
  subst e
  have h := Keeps.refl 73014444032 s
  repeat' first
    | with_reducible assumption
    | ((try lift_lets -underBinder); intro (x : State); refine have hx : Keeps 73014444032 s x := ?_; ?_; rotate_left; clear_value x; rotate_right; dsimp -zeta only [x]; clear x)
    | ((try lift_lets -underBinder); intro (x : State × _); refine have hx : Keeps 73014444032 s x.1 := ?_; ?_; rotate_left; clear_value x; rotate_right; dsimp -zeta only [x]; clear x)
    | ((try lift_lets -underBinder); intro (x : Option State); refine have hx : OptKeeps 73014444032 s x := ?_; ?_; rotate_left; clear_value x; rotate_right; dsimp -zeta only [x]; clear x)
    | ((try lift_lets -underBinder); intro x; clear_value x)
    | with_reducible apply Keeps.ite ?_ ?_
    | with_reducible apply OptKeeps.app ?_ (keeps_passBack ..) ?_
    | with_reducible apply Keeps.app ?_ (keeps_pumpStreams ..) ?_
    | with_reducible apply Keeps.app ?_ (keeps_closeStream ..) ?_
    | exact OptKeeps.none
    | with_reducible apply OptKeeps.some
    | with_reducible apply OptKeeps.map
    | with_reducible apply OptKeeps.ite
    | ((with_reducible apply OptKeeps.out); assumption)
    | exact rfl
    | with_reducible apply keeps_modCol ?_ ?_ ?_ ?_ ?_ ?_
    | ((with_reducible apply Or.inl); exact rfl)
    | ((with_reducible apply Or.inr); simp only [Part.same, and_self, modCol])
    | with_reducible apply Keeps.foldl ?_ _ _ ?_
    | with_reducible apply Keeps.foldlFst ?_ _ _ ?_
    | (intro _)
    | split

theorem keeps_execStreamClose a0 a1 s t (e : execStreamClose a0 a1 s = .next t) : Keeps 73014444032 s t := by
  unfold execStreamClose at e
  injection e with e
  subst e
  have h := Keeps.refl 73014444032 s
  repeat' first
    | with_reducible assumption
    | ((try lift_lets -underBinder); intro (x : State); refine have hx : Keeps 73014444032 s x := ?_; ?_; rotate_left; clear_value x; rotate_right; dsimp -zeta only [x]; clear x)
    | ((try lift_lets -underBinder); intro x; clear_value x)
    | with_reducible apply Keeps.ite ?_ ?_
    | with_reducible apply Keeps.app ?_ (keeps_forwardCtl ..) ?_
    | exact rfl
    | with_reducible apply keeps_modCol ?_ ?_ ?_ ?_ ?_ ?_
    | ((with_reducible apply Or.inl); exact rfl)
    | ((with_reducible apply Or.inr); simp only [Part.same, and_self, modCol])
    | (intro _)
    | split

theorem keeps_execStreamRefuse a0 a1 s t (e : execStreamRefuse a0 a1 s = .next t) : Keeps 73014444032 s t := by
  unfold execStreamRefuse at e
  injection e with e
  subst e
  have h := Keeps.refl 73014444032 s
  repeat' first
    | with_reducible assumption
    | ((try lift_lets -underBinder); intro x; clear_value x)
    | with_reducible apply OptKeeps.app ?_ (keeps_passBack ..) ?_
    | exact OptKeeps.none
    | with_reducible apply OptKeeps.some
    | with_reducible apply OptKeeps.map
    | with_reducible apply OptKeeps.ite
    | ((with_reducible apply OptKeeps.out); assumption)
    | exact rfl
    | with_reducible apply keeps_modCol ?_ ?_ ?_ ?_ ?_ ?_
    | ((with_reducible apply Or.inl); exact rfl)
    | ((with_reducible apply Or.inr); simp only [Part.same, and_self, modCol])
    | (intro _)
    | split

theorem keeps_execCinchCall a0 s t (e : execCinchCall a0 s = .next t) : Keeps 959131430962 s t := by
  unfold execCinchCall at e
  injection e with e
  subst e
  have h := Keeps.refl 959131430962 s
  repeat' first
    | with_reducible assumption
    | ((try lift_lets -underBinder); intro (x : State); refine have hx : Keeps 959131430962 s x := ?_; ?_; rotate_left; clear_value x; rotate_right; dsimp -zeta only [x]; clear x)
    | ((try lift_lets -underBinder); intro x; clear_value x)
    | with_reducible apply keeps_cinchRow
    | with_reducible apply Keeps.app ?_ (keeps_rejectWaiting ..) ?_
    | with_reducible apply Keeps.app ?_ (keeps_removeRanks ..) ?_
    | with_reducible apply keeps_enterRounds
    | with_reducible apply Keeps.app ?_ (keeps_applyItem ..) ?_
    | with_reducible apply Keeps.app ?_ (keeps_dropEnded ..) ?_
    | exact rfl
    | (intro _)
    | split

theorem keeps_execCinchReport a0 s t (e : execCinchReport a0 s = .next t) : Keeps 959131430962 s t := by
  unfold execCinchReport at e
  injection e with e
  subst e
  have h := Keeps.refl 959131430962 s
  repeat' first
    | with_reducible assumption
    | ((try lift_lets -underBinder); intro (x : State); refine have hx : Keeps 959131430962 s x := ?_; ?_; rotate_left; clear_value x; rotate_right; dsimp -zeta only [x]; clear x)
    | ((try lift_lets -underBinder); intro x; clear_value x)
    | with_reducible apply keeps_cinchRow
    | with_reducible apply keeps_enterRounds
    | with_reducible apply Keeps.app ?_ (keeps_applyItem ..) ?_
    | with_reducible apply keeps_tryPropose
    | with_reducible apply Keeps.app ?_ (keeps_modRound ..) ?_
    | exact rfl
    | (intro _)
    | split

theorem keeps_execCinchPropose a0 s t (e : execCinchPropose a0 s = .next t) : Keeps 959131430962 s t := by
  unfold execCinchPropose at e
  injection e with e
  subst e
  have h := Keeps.refl 959131430962 s
  repeat' first
    | with_reducible assumption
    | ((try lift_lets -underBinder); intro (x : State); refine have hx : Keeps 959131430962 s x := ?_; ?_; rotate_left; clear_value x; rotate_right; dsimp -zeta only [x]; clear x)
    | ((try lift_lets -underBinder); intro x; clear_value x)
    | with_reducible apply Keeps.ite ?_ ?_
    | with_reducible apply keeps_cinchRow
    | with_reducible apply keeps_enterRounds
    | with_reducible apply Keeps.app ?_ (keeps_applyItem ..) ?_
    | with_reducible apply Keeps.app ?_ (keeps_sendMsgs ..) ?_
    | with_reducible apply Keeps.app ?_ (keeps_modRound ..) ?_
    | exact rfl
    | (intro _)
    | split

theorem keeps_execCinchAccept a0 s t (e : execCinchAccept a0 s = .next t) : Keeps 959131430962 s t := by
  unfold execCinchAccept at e
  injection e with e
  subst e
  have h := Keeps.refl 959131430962 s
  repeat' first
    | with_reducible assumption
    | ((try lift_lets -underBinder); intro x; clear_value x)
    | with_reducible apply Keeps.ite ?_ ?_
    | with_reducible apply keeps_cinchRow
    | with_reducible apply keeps_checkQuorum
    | with_reducible apply Keeps.app ?_ (keeps_applyItem ..) ?_
    | with_reducible apply Keeps.app ?_ (keeps_modRound ..) ?_
    | exact rfl
    | (intro _)
    | split

theorem keeps_execCinchDecide a0 s t (e : execCinchDecide a0 s = .next t) : Keeps 959131430962 s t := by
  unfold execCinchDecide at e
  injection e with e
  subst e
  have h := Keeps.refl 959131430962 s
  repeat' first
    | with_reducible assumption
    | with_reducible apply Keeps.ite ?_ ?_
    | with_reducible apply keeps_cinchRow
    | with_reducible apply Keeps.app ?_ (keeps_applyItem ..) ?_
    | exact rfl
    | (intro _)
    | split

theorem keeps_execReportCollectTimeout a0 s t (e : execReportCollectTimeout a0 s = .next t) : Keeps 959131430962 s t := by
  unfold execReportCollectTimeout at e
  injection e with e
  subst e
  have h := Keeps.refl 959131430962 s
  repeat' first
    | with_reducible assumption
    | ((try lift_lets -underBinder); intro x; clear_value x)
    | with_reducible apply Keeps.ite ?_ ?_
    | with_reducible apply keeps_tryPropose
    | with_reducible apply Keeps.app ?_ (keeps_applyItem ..) ?_
    | exact rfl
    | (intro _)
    | split

theorem keeps_execAcceptCollectTimeout a0 s t (e : execAcceptCollectTimeout a0 s = .next t) : Keeps 274877906944 s t := by
  unfold execAcceptCollectTimeout at e
  injection e with e
  subst e
  have h := Keeps.refl 274877906944 s
  repeat' first
    | with_reducible assumption
    | ((try lift_lets -underBinder); intro x; clear_value x)
    | with_reducible apply Keeps.ite ?_ ?_
    | with_reducible apply Keeps.app ?_ (keeps_modRound ..) ?_
    | exact rfl
    | (intro _)
    | split

theorem keeps_execCinchRoundTimeout a0 s t (e : execCinchRoundTimeout a0 s = .next t) : Keeps 959198539826 s t := by
  unfold execCinchRoundTimeout at e
  injection e with e
  subst e
  have h := Keeps.refl 959198539826 s
  repeat' first
    | with_reducible assumption
    | ((try lift_lets -underBinder); intro (x : State); refine have hx : Keeps 959198539826 s x := ?_; ?_; rotate_left; clear_value x; rotate_right; dsimp -zeta only [x]; clear x)
    | ((try lift_lets -underBinder); intro x; clear_value x)
    | with_reducible apply Keeps.ite ?_ ?_
    | with_reducible apply keeps_startRound
    | with_reducible apply Keeps.app ?_ (keeps_applyItem ..) ?_
    | with_reducible apply Keeps.app ?_ (keeps_setFrozen ..) ?_
    | with_reducible apply Keeps.app ?_ (keeps_failGroup ..) ?_
    | exact rfl
    | with_reducible apply keeps_modFap ?_ ?_ ?_
    | ((with_reducible apply Or.inl); exact rfl)
    | ((with_reducible apply Or.inr); simp only [Part.same, and_self, modFap])
    | (intro _)
    | split

theorem keeps_execDrainCall a0 s t (e : execDrainCall a0 s = .next t) : Keeps 959131430962 s t := by
  unfold execDrainCall at e
  injection e with e
  subst e
  have h := Keeps.refl 959131430962 s
  repeat' first
    | with_reducible assumption
    | ((try lift_lets -underBinder); intro (x : State); refine have hx : Keeps 959131430962 s x := ?_; ?_; rotate_left; clear_value x; rotate_right; dsimp -zeta only [x]; clear x)
    | ((try lift_lets -underBinder); intro x; clear_value x)
    | with_reducible apply Keeps.ite ?_ ?_
    | with_reducible apply Keeps.app ?_ (keeps_callRack ..) ?_
    | exact rfl
    | with_reducible apply keeps_modFap ?_ ?_ ?_
    | ((with_reducible apply Or.inl); exact rfl)
    | ((with_reducible apply Or.inr); simp only [Part.same, and_self, modFap])
    | (intro _)
    | split

theorem keeps_execFapDrainGo s t (e : execFapDrainGo s = .next t) : Keeps 281759815098419 s t := by
  unfold execFapDrainGo at e
  injection e with e
  subst e
  have h := Keeps.refl 281759815098419 s
  repeat' first
    | with_reducible assumption
    | ((try lift_lets -underBinder); intro (x : State); refine have hx : Keeps 281759815098419 s x := ?_; ?_; rotate_left; clear_value x; rotate_right; dsimp -zeta only [x]; clear x)
    | ((try lift_lets -underBinder); intro (fn : State → State); refine have hfn : ∀ t, Keeps 281759815098419 s t → Keeps 281759815098419 s (fn t) := ?_; ?_; rotate_left; clear_value fn; rotate_right; dsimp -zeta only [fn]; clear fn)
    | ((try lift_lets -underBinder); intro (fn2 : _ → State → State); refine have hfn2 : ∀ a t, Keeps 281759815098419 s t → Keeps 281759815098419 s (fn2 a t) := ?_; ?_; rotate_left; clear_value fn2; rotate_right; dsimp -zeta only [fn2]; clear fn2)
    | with_reducible apply hfn
    | with_reducible apply hfn2
    | ((try lift_lets -underBinder); intro x; clear_value x)
    | with_reducible apply Keeps.ite ?_ ?_
    | with_reducible apply Keeps.app ?_ (keeps_eventDrain ..) ?_
    | with_reducible apply Keeps.app ?_ (keeps_capacityLoss ..) ?_
    | with_reducible apply Keeps.app ?_ (keeps_bumpFree ..) ?_
    | with_reducible apply Keeps.app ?_ (keeps_withdrawSelf ..) ?_
    | exact rfl
    | with_reducible apply keeps_modFap ?_ ?_ ?_
    | ((with_reducible apply Or.inl); exact rfl)
    | ((with_reducible apply Or.inr); simp only [Part.same, and_self, modFap])
    | (intro _)
    | split

theorem keeps_execSwitchPoint a0 a1 s t (e : execSwitchPoint a0 a1 s = .next t) : Keeps 36311231144063026 s t := by
  unfold execSwitchPoint at e
  injection e with e
  subst e
  have h := Keeps.refl 36311231144063026 s
  repeat' first
    | with_reducible assumption
    | ((try lift_lets -underBinder); intro (x : State); refine have hx : Keeps 36311231144063026 s x := ?_; ?_; rotate_left; clear_value x; rotate_right; dsimp -zeta only [x]; clear x)
    | ((try lift_lets -underBinder); intro (x : State × _); refine have hx : Keeps 36311231144063026 s x.1 := ?_; ?_; rotate_left; clear_value x; rotate_right; dsimp -zeta only [x]; clear x)
    | ((try lift_lets -underBinder); intro x; clear_value x)
    | with_reducible apply Keeps.ite ?_ ?_
    | with_reducible apply Keeps.app ?_ (keeps_modPort ..) ?_
    | with_reducible apply Keeps.app ?_ (keeps_applyChange ..) ?_
    | exact rfl
    | with_reducible apply Keeps.foldl ?_ _ _ ?_
    | with_reducible apply Keeps.foldlFst ?_ _ _ ?_
    | (intro _)
    | split

theorem keeps_execBiasCheck a0 a1 s t (e : execBiasCheck a0 a1 s = .next t) : Keeps 4294967296 s t := by
  unfold execBiasCheck at e
  injection e with e
  subst e
  have h := Keeps.refl 4294967296 s
  repeat' first
    | with_reducible assumption
    | ((try lift_lets -underBinder); intro (x : State); refine have hx : Keeps 4294967296 s x := ?_; ?_; rotate_left; clear_value x; rotate_right; dsimp -zeta only [x]; clear x)
    | ((try lift_lets -underBinder); intro (x : State × _); refine have hx : Keeps 4294967296 s x.1 := ?_; ?_; rotate_left; clear_value x; rotate_right; dsimp -zeta only [x]; clear x)
    | ((try lift_lets -underBinder); intro x; clear_value x)
    | with_reducible apply Keeps.ite ?_ ?_
    | with_reducible apply Keeps.app ?_ (keeps_modWave ..) ?_
    | with_reducible apply Keeps.app ?_ (keeps_startSpare ..) ?_
    | exact rfl
    | with_reducible apply Keeps.foldl ?_ _ _ ?_
    | with_reducible apply Keeps.foldlFst ?_ _ _ ?_
    | (intro _)
    | split

theorem keeps_execSpareTrainComplete a0 a1 a2 s t (e : execSpareTrainComplete a0 a1 a2 s = .next t) : Keeps 4294967296 s t := by
  unfold execSpareTrainComplete at e
  injection e with e
  subst e
  have h := Keeps.refl 4294967296 s
  repeat' first
    | with_reducible assumption
    | ((try lift_lets -underBinder); intro (x : State); refine have hx : Keeps 4294967296 s x := ?_; ?_; rotate_left; clear_value x; rotate_right; dsimp -zeta only [x]; clear x)
    | ((try lift_lets -underBinder); intro x; clear_value x)
    | with_reducible apply Keeps.ite ?_ ?_
    | with_reducible apply Keeps.app ?_ (keeps_proposeChange ..) ?_
    | with_reducible apply Keeps.app ?_ (keeps_modWave ..) ?_
    | exact rfl
    | (intro _)
    | split

theorem keeps_execLaserPowerDrop a0 a1 a2 s t (e : execLaserPowerDrop a0 a1 a2 s = .next t) : Keeps 5648687154 s t := by
  unfold execLaserPowerDrop at e
  injection e with e
  subst e
  have h := Keeps.refl 5648687154 s
  repeat' first
    | with_reducible assumption
    | ((try lift_lets -underBinder); intro (x : State); refine have hx : Keeps 5648687154 s x := ?_; ?_; rotate_left; clear_value x; rotate_right; dsimp -zeta only [x]; clear x)
    | ((try lift_lets -underBinder); intro x; clear_value x)
    | with_reducible apply Keeps.ite ?_ ?_
    | with_reducible apply Keeps.app ?_ (keeps_modWave ..) ?_
    | with_reducible apply Keeps.app ?_ (keeps_startSpare ..) ?_
    | with_reducible apply Keeps.app ?_ (keeps_locateLoss ..) ?_
    | with_reducible apply Keeps.app ?_ (keeps_proposeChange ..) ?_
    | exact rfl
    | (intro _)
    | split

theorem keeps_execRingHoldEnter a0 a1 a2 a3 s t (e : execRingHoldEnter a0 a1 a2 a3 s = .next t) : Keeps 5648687154 s t := by
  unfold execRingHoldEnter at e
  injection e with e
  subst e
  have h := Keeps.refl 5648687154 s
  repeat' first
    | with_reducible assumption
    | ((try lift_lets -underBinder); intro x; clear_value x)
    | with_reducible apply Keeps.ite ?_ ?_
    | with_reducible apply Keeps.app ?_ (keeps_eventHold ..) ?_
    | with_reducible apply Keeps.app ?_ (keeps_modWave ..) ?_
    | with_reducible apply Keeps.app ?_ (keeps_enterHold ..) ?_
    | exact rfl
    | (intro _)
    | split

theorem keeps_execRingHoldExit a0 a1 a2 a3 s t (e : execRingHoldExit a0 a1 a2 a3 s = .next t) : Keeps 281480642224178 s t := by
  unfold execRingHoldExit at e
  injection e with e
  subst e
  have h := Keeps.refl 281480642224178 s
  repeat' first
    | with_reducible assumption
    | ((try lift_lets -underBinder); intro (x : State); refine have hx : Keeps 281480642224178 s x := ?_; ?_; rotate_left; clear_value x; rotate_right; dsimp -zeta only [x]; clear x)
    | ((try lift_lets -underBinder); intro x; clear_value x)
    | with_reducible apply Keeps.ite ?_ ?_
    | with_reducible apply Keeps.app ?_ (keeps_modWave ..) ?_
    | with_reducible apply Keeps.app ?_ (keeps_leaveHold ..) ?_
    | with_reducible apply Keeps.app ?_ (keeps_emptyCheck ..) ?_
    | exact rfl
    | (intro _)
    | split

theorem keeps_execRingHoldTimeout a0 a1 s t (e : execRingHoldTimeout a0 a1 s = .next t) : Keeps 36310277661319218 s t := by
  unfold execRingHoldTimeout at e
  injection e with e
  subst e
  have h := Keeps.refl 36310277661319218 s
  repeat' first
    | with_reducible assumption
    | ((try lift_lets -underBinder); intro (x : State); refine have hx : Keeps 36310277661319218 s x := ?_; ?_; rotate_left; clear_value x; rotate_right; dsimp -zeta only [x]; clear x)
    | ((try lift_lets -underBinder); intro x; clear_value x)
    | with_reducible apply Keeps.ite ?_ ?_
    | with_reducible apply Keeps.app ?_ (keeps_startSpare ..) ?_
    | with_reducible apply Keeps.app ?_ (keeps_modWave ..) ?_
    | with_reducible apply Keeps.app ?_ (keeps_emptyCheck ..) ?_
    | with_reducible apply Keeps.app ?_ (keeps_retireWave ..) ?_
    | with_reducible apply Keeps.app ?_ (keeps_proposeChange ..) ?_
    | exact rfl
    | (intro _)
    | split

theorem keeps_execLaneStepDown a0 a1 a2 s t (e : execLaneStepDown a0 a1 a2 s = .next t) : Keeps 4294967296 s t := by
  unfold execLaneStepDown at e
  injection e with e
  subst e
  have h := Keeps.refl 4294967296 s
  repeat' first
    | with_reducible assumption
    | ((try lift_lets -underBinder); intro (x : State); refine have hx : Keeps 4294967296 s x := ?_; ?_; rotate_left; clear_value x; rotate_right; dsimp -zeta only [x]; clear x)
    | ((try lift_lets -underBinder); intro x; clear_value x)
    | with_reducible apply Keeps.ite ?_ ?_
    | with_reducible apply Keeps.app ?_ (keeps_retrainAlone ..) ?_
    | exact rfl
    | (intro _)
    | split

theorem keeps_execPortDown a0 a1 s t (e : execPortDown a0 a1 s = .next t) : Keeps 282434124967986 s t := by
  unfold execPortDown at e
  injection e with e
  subst e
  have h := Keeps.refl 282434124967986 s
  repeat' first
    | with_reducible assumption
    | ((try lift_lets -underBinder); intro (x : State); refine have hx : Keeps 282434124967986 s x := ?_; ?_; rotate_left; clear_value x; rotate_right; dsimp -zeta only [x]; clear x)
    | ((try lift_lets -underBinder); intro x; clear_value x)
    | with_reducible apply Keeps.ite ?_ ?_
    | with_reducible apply Keeps.app ?_ (keeps_portDown ..) ?_
    | exact rfl
    | (intro _)
    | split

theorem keeps_execLcfTimeout a0 s t (e : execLcfTimeout a0 s = .next t) : Keeps 282434124967986 s t := by
  unfold execLcfTimeout at e
  injection e with e
  subst e
  have h := Keeps.refl 282434124967986 s
  repeat' first
    | with_reducible assumption
    | with_reducible apply Keeps.ite ?_ ?_
    | with_reducible apply Keeps.app ?_ (keeps_portDown ..) ?_
    | exact rfl
    | (intro _)
    | split

theorem keeps_execLaserShutdown a0 s t (e : execLaserShutdown a0 s = .next t) : Keeps 282434124967986 s t := by
  unfold execLaserShutdown at e
  injection e with e
  subst e
  have h := Keeps.refl 282434124967986 s
  repeat' first
    | with_reducible assumption
    | ((try lift_lets -underBinder); intro (x : State); refine have hx : Keeps 282434124967986 s x := ?_; ?_; rotate_left; clear_value x; rotate_right; dsimp -zeta only [x]; clear x)
    | ((try lift_lets -underBinder); intro (x : State × _); refine have hx : Keeps 282434124967986 s x.1 := ?_; ?_; rotate_left; clear_value x; rotate_right; dsimp -zeta only [x]; clear x)
    | ((try lift_lets -underBinder); intro (fn : State → State); refine have hfn : ∀ t, Keeps 282434124967986 s t → Keeps 282434124967986 s (fn t) := ?_; ?_; rotate_left; clear_value fn; rotate_right; dsimp -zeta only [fn]; clear fn)
    | ((try lift_lets -underBinder); intro (fn2 : _ → State → State); refine have hfn2 : ∀ a t, Keeps 282434124967986 s t → Keeps 282434124967986 s (fn2 a t) := ?_; ?_; rotate_left; clear_value fn2; rotate_right; dsimp -zeta only [fn2]; clear fn2)
    | with_reducible apply hfn
    | with_reducible apply hfn2
    | ((try lift_lets -underBinder); intro x; clear_value x)
    | with_reducible apply Keeps.app ?_ (keeps_modPort ..) ?_
    | with_reducible apply Keeps.app ?_ (keeps_portDown ..) ?_
    | exact rfl
    | with_reducible apply Keeps.foldl ?_ _ _ ?_
    | with_reducible apply Keeps.foldlFst ?_ _ _ ?_
    | (intro _)
    | split

theorem keeps_execPortColdTrain a0 a1 s t (e : execPortColdTrain a0 a1 s = .next t) : Keeps 36311231144063026 s t := by
  unfold execPortColdTrain at e
  injection e with e
  subst e
  have h := Keeps.refl 36311231144063026 s
  repeat' first
    | with_reducible assumption
    | ((try lift_lets -underBinder); intro x; clear_value x)
    | with_reducible apply Keeps.ite ?_ ?_
    | with_reducible apply Keeps.app ?_ (keeps_coldFailed ..) ?_
    | with_reducible apply Keeps.app ?_ (keeps_coldTrained ..) ?_
    | exact rfl
    | (intro _)
    | split

theorem keeps_execTrainingRetry a0 s t (e : execTrainingRetry a0 s = .next t) : Keeps 4294967296 s t := by
  unfold execTrainingRetry at e
  injection e with e
  subst e
  have h := Keeps.refl 4294967296 s
  repeat' first
    | with_reducible assumption
    | ((try lift_lets -underBinder); intro (x : State); refine have hx : Keeps 4294967296 s x := ?_; ?_; rotate_left; clear_value x; rotate_right; dsimp -zeta only [x]; clear x)
    | ((try lift_lets -underBinder); intro x; clear_value x)
    | with_reducible apply Keeps.ite ?_ ?_
    | with_reducible apply Keeps.app ?_ (keeps_modPort ..) ?_
    | exact rfl
    | (intro _)
    | split

theorem keeps_execExoRetrain a0 a1 s t (e : execExoRetrain a0 a1 s = .next t) : Keeps 36311231144063026 s t := by
  unfold execExoRetrain at e
  injection e with e
  subst e
  have h := Keeps.refl 36311231144063026 s
  repeat' first
    | with_reducible assumption
    | with_reducible apply Keeps.ite ?_ ?_
    | with_reducible apply Keeps.app ?_ (keeps_fastRetrained ..) ?_
    | exact rfl
    | (intro _)
    | split

theorem keeps_execExoStepUp a0 a1 a2 s t (e : execExoStepUp a0 a1 a2 s = .next t) : Keeps 4294967296 s t := by
  unfold execExoStepUp at e
  injection e with e
  subst e
  have h := Keeps.refl 4294967296 s
  repeat' first
    | with_reducible assumption
    | ((try lift_lets -underBinder); intro (x : State); refine have hx : Keeps 4294967296 s x := ?_; ?_; rotate_left; clear_value x; rotate_right; dsimp -zeta only [x]; clear x)
    | ((try lift_lets -underBinder); intro (x : State × _); refine have hx : Keeps 4294967296 s x.1 := ?_; ?_; rotate_left; clear_value x; rotate_right; dsimp -zeta only [x]; clear x)
    | ((try lift_lets -underBinder); intro x; clear_value x)
    | with_reducible apply Keeps.ite ?_ ?_
    | with_reducible apply Keeps.app ?_ (keeps_retrainAlone ..) ?_
    | exact rfl
    | with_reducible apply Keeps.foldl ?_ _ _ ?_
    | with_reducible apply Keeps.foldlFst ?_ _ _ ?_
    | (intro _)
    | split

theorem keeps_execExoEnable a0 a1 s t (e : execExoEnable a0 a1 s = .next t) : Keeps 282434124967986 s t := by
  unfold execExoEnable at e
  injection e with e
  subst e
  have h := Keeps.refl 282434124967986 s
  repeat' first
    | with_reducible assumption
    | ((try lift_lets -underBinder); intro x; clear_value x)
    | with_reducible apply Keeps.ite ?_ ?_
    | with_reducible apply Keeps.app ?_ (keeps_modPort ..) ?_
    | with_reducible apply Keeps.app ?_ (keeps_portDown ..) ?_
    | exact rfl
    | (intro _)
    | split

theorem keeps_execTxSlot a0 a1 s t (e : execTxSlot a0 s a1 = .next t) : Keeps 281480642224178 s t := by
  unfold execTxSlot at e
  injection e with e
  subst e
  have h := Keeps.refl 281480642224178 s
  repeat' first
    | with_reducible assumption
    | ((try lift_lets -underBinder); intro (x : State); refine have hx : Keeps 281480642224178 s x := ?_; ?_; rotate_left; clear_value x; rotate_right; dsimp -zeta only [x]; clear x)
    | ((try lift_lets -underBinder); intro x; clear_value x)
    | with_reducible apply Keeps.ite ?_ ?_
    | with_reducible apply Keeps.app ?_ (keeps_takeMeasure ..) ?_
    | with_reducible apply Keeps.app ?_ (keeps_emptyCheck ..) ?_
    | with_reducible apply Keeps.app ?_ (keeps_freeThrough ..) ?_
    | with_reducible apply Keeps.app ?_ (keeps_modPort ..) ?_
    | exact rfl
    | (intro _)
    | split

theorem keeps_execDataFlitReceive a0 a1 s t (e : execDataFlitReceive a0 a1 s = .next t) : Keeps 4294967296 s t := by
  unfold execDataFlitReceive at e
  injection e with e
  subst e
  have h := Keeps.refl 4294967296 s
  repeat' first
    | with_reducible assumption
    | ((try lift_lets -underBinder); intro (x : State); refine have hx : Keeps 4294967296 s x := ?_; ?_; rotate_left; clear_value x; rotate_right; dsimp -zeta only [x]; clear x)
    | ((try lift_lets -underBinder); intro x; clear_value x)
    | with_reducible apply Keeps.ite ?_ ?_
    | with_reducible apply Keeps.app ?_ (keeps_rxAdvance ..) ?_
    | with_reducible apply Keeps.app ?_ (keeps_modPort ..) ?_
    | with_reducible apply Keeps.app ?_ (keeps_deliverFlit ..) ?_
    | exact rfl
    | (intro _)
    | split

theorem keeps_execLcfReceive a0 a1 a2 s t (e : execLcfReceive a0 a1 s a2 = .next t) : Keeps 36311231144063026 s t := by
  unfold execLcfReceive at e
  injection e with e
  subst e
  have h := Keeps.refl 36311231144063026 s
  repeat' first
    | with_reducible assumption
    | ((try lift_lets -underBinder); intro (x : State); refine have hx : Keeps 36311231144063026 s x := ?_; ?_; rotate_left; clear_value x; rotate_right; dsimp -zeta only [x]; clear x)
    | ((try lift_lets -underBinder); intro x; clear_value x)
    | with_reducible apply Keeps.ite ?_ ?_
    | with_reducible apply Keeps.app ?_ (keeps_rxAdvance ..) ?_
    | with_reducible apply Keeps.app ?_ (keeps_takeLcf ..) ?_
    | with_reducible apply Keeps.app ?_ (keeps_modPort ..) ?_
    | with_reducible apply Keeps.app ?_ (keeps_fastRetrained ..) ?_
    | exact rfl
    | (intro _)
    | split

theorem keeps_execExoInjWrite a0 a1 a2 s t (e : execExoInjWrite a0 a1 s a2 = .next t) : Keeps 35188667056128 s t := by
  unfold execExoInjWrite at e
  injection e with e
  subst e
  extract_lets k old v iv u
  have hu : Keeps 35188667056128 s u := Keeps.ite (Keeps.app rfl (keeps_clampDevice ..) (Keeps.refl 35188667056128 s)) (Keeps.refl 35188667056128 s)
  clear_value u iv v
  exact Keeps.app rfl (keeps_modPort ..) hu

theorem keeps_execExoCntClear a0 s t (e : execExoCntClear a0 s = .next t) : Keeps 4294967296 s t := by
  unfold execExoCntClear at e
  injection e with e
  subst e
  have h := Keeps.refl 4294967296 s
  repeat' first
    | with_reducible assumption
    | ((try lift_lets -underBinder); intro x; clear_value x)
    | with_reducible apply Keeps.app ?_ (keeps_modPort ..) ?_
    | exact rfl
    | (intro _)
    | split

theorem keeps_execHostBar2Access a0 a1 a2 a3 s t (e : execHostBar2Access a0 a1 a2 a3 s = .next t) : Keeps 36310274003886770 s t := by
  unfold execHostBar2Access at e
  injection e with e
  subst e
  have h := Keeps.refl 36310274003886770 s
  repeat' first
    | with_reducible assumption
    | ((try lift_lets -underBinder); intro (x : State); refine have hx : Keeps 36310274003886770 s x := ?_; ?_; rotate_left; clear_value x; rotate_right; dsimp -zeta only [x]; clear x)
    | ((try lift_lets -underBinder); intro x; clear_value x)
    | with_reducible apply Keeps.app ?_ (keeps_eventD ..) ?_
    | with_reducible apply keeps_whenReached
    | with_reducible apply Keeps.app ?_ (keeps_touchRead ..) ?_
    | with_reducible apply Keeps.app ?_ (keeps_noteErrors ..) ?_
    | with_reducible apply Keeps.app ?_ (keeps_eventUnmapped ..) ?_
    | with_reducible apply keeps_meetErrors
    | with_reducible apply Keeps.app ?_ (keeps_memWrite ..) ?_
    | exact rfl
    | with_reducible apply keeps_modPci ?_ ?_ ?_ ?_ ?_ ?_
    | ((with_reducible apply Or.inl); exact rfl)
    | ((with_reducible apply Or.inr); simp only [Part.same, and_self, modPci])
    | (intro _)
    | split

theorem keeps_execNoRegisterAccess a0 a1 s t (e : execNoRegisterAccess a0 a1 s = .next t) : Keeps 1353719858 s t := by
  unfold execNoRegisterAccess at e
  injection e with e
  subst e
  have h := Keeps.refl 1353719858 s
  repeat' first
    | with_reducible assumption
    | with_reducible apply Keeps.app ?_ (keeps_noRegister ..) ?_
    | exact rfl
    | (intro _)
    | split

theorem keeps_execMisalignedRegisterAccess a0 a1 s t (e : execMisalignedRegisterAccess a0 a1 s = .next t) : Keeps 1353719858 s t := by
  unfold execMisalignedRegisterAccess at e
  injection e with e
  subst e
  have h := Keeps.refl 1353719858 s
  repeat' first
    | with_reducible assumption
    | with_reducible apply Keeps.app ?_ (keeps_misaligned ..) ?_
    | exact rfl
    | (intro _)
    | split

theorem keeps_execRegisterWrite a0 a1 a2 a3 s t (e : execRegisterWrite a0 a1 a2 a3 s = .next t) : Keeps 288265561881716150 s t := by
  unfold execRegisterWrite at e
  injection e with e
  subst e
  have h := Keeps.refl 288265561881716150 s
  repeat' first
    | with_reducible assumption
    | ((try lift_lets -underBinder); intro (x : State); refine have hx : Keeps 288265561881716150 s x := ?_; ?_; rotate_left; clear_value x; rotate_right; dsimp -zeta only [x]; clear x)
    | ((try lift_lets -underBinder); intro x; clear_value x)
    | with_reducible apply Keeps.ite ?_ ?_
    | with_reducible apply Keeps.app ?_ (keeps_misaligned ..) ?_
    | with_reducible apply Keeps.app ?_ (keeps_writePf ..) ?_
    | with_reducible apply Keeps.app ?_ (keeps_noRegister ..) ?_
    | with_reducible apply Keeps.app ?_ (keeps_writeMsixReg ..) ?_
    | exact rfl
    | (intro _)
    | split

theorem keeps_execLinkChange a0 a1 a2 s t (e : execLinkChange a0 a1 a2 s = .next t) : Keeps 1353719922 s t := by
  unfold execLinkChange at e
  injection e with e
  subst e
  have h := Keeps.refl 1353719922 s
  repeat' first
    | with_reducible assumption
    | ((try lift_lets -underBinder); intro x; clear_value x)
    | with_reducible apply Keeps.ite ?_ ?_
    | with_reducible apply Keeps.app ?_ (keeps_eventD ..) ?_
    | exact rfl
    | with_reducible apply keeps_modPci ?_ ?_ ?_ ?_ ?_ ?_
    | ((with_reducible apply Or.inl); exact rfl)
    | ((with_reducible apply Or.inr); simp only [Part.same, and_self, modPci])
    | (intro _)
    | split

theorem keeps_execPciAbiOffer a0 a1 a2 s t (e : execPciAbiOffer a0 a1 a2 s = .next t) : Keeps 1353719986 s t := by
  unfold execPciAbiOffer at e
  injection e with e
  subst e
  have h := Keeps.refl 1353719986 s
  repeat' first
    | with_reducible assumption
    | ((try lift_lets -underBinder); intro (x : State); refine have hx : Keeps 1353719986 s x := ?_; ?_; rotate_left; clear_value x; rotate_right; dsimp -zeta only [x]; clear x)
    | ((try lift_lets -underBinder); intro x; clear_value x)
    | with_reducible apply Keeps.ite ?_ ?_
    | with_reducible apply Keeps.app ?_ (keeps_eventAbi ..) ?_
    | exact rfl
    | with_reducible apply keeps_modPci ?_ ?_ ?_ ?_ ?_ ?_
    | ((with_reducible apply Or.inl); exact rfl)
    | ((with_reducible apply Or.inr); simp only [Part.same, and_self, modPci])
    | (intro _)
    | split

theorem keeps_execMsixCoalesceExpire a0 a1 s t (e : execMsixCoalesceExpire a0 a1 s = .next t) : Keeps 32 s t := by
  unfold execMsixCoalesceExpire at e
  injection e with e
  subst e
  have h := Keeps.refl 32 s
  repeat' first
    | with_reducible assumption
    | ((try lift_lets -underBinder); intro (x : State); refine have hx : Keeps 32 s x := ?_; ?_; rotate_left; clear_value x; rotate_right; dsimp -zeta only [x]; clear x)
    | ((try lift_lets -underBinder); intro x; clear_value x)
    | with_reducible apply Keeps.ite ?_ ?_
    | with_reducible apply Keeps.app ?_ (keeps_setMsix ..) ?_
    | with_reducible apply Keeps.app ?_ (keeps_sendMsix ..) ?_
    | exact rfl
    | (intro _)
    | split

theorem keeps_execMsixUnmask a0 a1 s t (e : execMsixUnmask a0 a1 s = .next t) : Keeps 32 s t := by
  unfold execMsixUnmask at e
  injection e with e
  subst e
  have h := Keeps.refl 32 s
  repeat' first
    | with_reducible assumption
    | with_reducible apply Keeps.ite ?_ ?_
    | with_reducible apply Keeps.app ?_ (keeps_unmaskVector ..) ?_
    | exact rfl
    | (intro _)
    | split

theorem keeps_execDmaDoorbell a0 a1 s t (e : execDmaDoorbell a0 a1 s = .next t) : Keeps 1353720114 s t := by
  unfold execDmaDoorbell at e
  injection e with e
  subst e
  have h := Keeps.refl 1353720114 s
  repeat' first
    | with_reducible assumption
    | ((try lift_lets -underBinder); intro (x : State); refine have hx : Keeps 1353720114 s x := ?_; ?_; rotate_left; clear_value x; rotate_right; dsimp -zeta only [x]; clear x)
    | ((try lift_lets -underBinder); intro x; clear_value x)
    | with_reducible apply Keeps.ite ?_ ?_
    | with_reducible apply Keeps.app ?_ (keeps_setDma ..) ?_
    | with_reducible apply Keeps.app ?_ (keeps_eventDma ..) ?_
    | exact rfl
    | (intro _)
    | split

theorem keeps_execDmaEnable a0 a1 a2 s t (e : execDmaEnable a0 a1 a2 s = .next t) : Keeps 1353720114 s t := by
  unfold execDmaEnable at e
  injection e with e
  subst e
  have h := Keeps.refl 1353720114 s
  repeat' first
    | with_reducible assumption
    | ((try lift_lets -underBinder); intro (x : State); refine have hx : Keeps 1353720114 s x := ?_; ?_; rotate_left; clear_value x; rotate_right; dsimp -zeta only [x]; clear x)
    | ((try lift_lets -underBinder); intro (x : Option State); refine have hx : OptKeeps 1353720114 s x := ?_; ?_; rotate_left; clear_value x; rotate_right; dsimp -zeta only [x]; clear x)
    | ((try lift_lets -underBinder); intro x; clear_value x)
    | with_reducible apply Keeps.ite ?_ ?_
    | with_reducible apply Keeps.app ?_ (keeps_setDma ..) ?_
    | with_reducible apply OptKeeps.app ?_ (keeps_enableBlock ..) ?_
    | exact OptKeeps.none
    | with_reducible apply OptKeeps.some
    | with_reducible apply OptKeeps.map
    | with_reducible apply OptKeeps.ite
    | ((with_reducible apply OptKeeps.out); assumption)
    | exact rfl
    | (intro _)
    | split

theorem keeps_execDmaDescriptorStart a0 a1 a2 a3 a4 s t (e : execDmaDescriptorStart a0 a1 a2 a3 s a4 = .next t) : Keeps 36310274003886386 s t := by
  unfold execDmaDescriptorStart at e
  injection e with e
  subst e
  have h := Keeps.refl 36310274003886386 s
  repeat' first
    | with_reducible assumption
    | ((try lift_lets -underBinder); intro (x : State); refine have hx : Keeps 36310274003886386 s x := ?_; ?_; rotate_left; clear_value x; rotate_right; dsimp -zeta only [x]; clear x)
    | ((try lift_lets -underBinder); intro (x : State × _); refine have hx : Keeps 36310274003886386 s x.1 := ?_; ?_; rotate_left; clear_value x; rotate_right; dsimp -zeta only [x]; clear x)
    | ((try lift_lets -underBinder); intro x; clear_value x)
    | with_reducible apply Keeps.ite ?_ ?_
    | with_reducible apply keeps_whenReached
    | with_reducible apply keeps_meetErrors
    | with_reducible apply Keeps.app ?_ (keeps_dmaMove ..) ?_
    | with_reducible apply Keeps.app ?_ (keeps_setDma ..) ?_
    | ((with_reducible apply Keeps.outPair); assumption)
    | (dsimp -zeta only)
    | exact rfl
    | (intro _)
    | split

theorem keeps_execDmaDescriptorComplete a0 a1 s t (e : execDmaDescriptorComplete a0 s a1 = .next t) : Keeps 36310274003888434 s t := by
  unfold execDmaDescriptorComplete at e
  injection e with e
  subst e
  have h := Keeps.refl 36310274003888434 s
  repeat' first
    | with_reducible assumption
    | ((try lift_lets -underBinder); intro (x : State); refine have hx : Keeps 36310274003888434 s x := ?_; ?_; rotate_left; clear_value x; rotate_right; dsimp -zeta only [x]; clear x)
    | ((try lift_lets -underBinder); intro (x : State × _); refine have hx : Keeps 36310274003888434 s x.1 := ?_; ?_; rotate_left; clear_value x; rotate_right; dsimp -zeta only [x]; clear x)
    | ((try lift_lets -underBinder); intro x; clear_value x)
    | with_reducible apply keeps_whenReached
    | with_reducible apply keeps_meetErrors
    | with_reducible apply Keeps.app ?_ (keeps_dmaMove ..) ?_
    | with_reducible apply Keeps.app ?_ (keeps_dmaComplete ..) ?_
    | ((with_reducible apply Keeps.outPair); assumption)
    | (dsimp -zeta only)
    | exact rfl
    | (intro _)
    | split

theorem keeps_execDmaHostRequestFail a0 a1 a2 s t (e : execDmaHostRequestFail a0 a1 a2 s = .next t) : Keeps 1890593074 s t := by
  unfold execDmaHostRequestFail at e
  injection e with e
  subst e
  have h := Keeps.refl 1890593074 s
  repeat' first
    | with_reducible assumption
    | ((try lift_lets -underBinder); intro (x : State); refine have hx : Keeps 1890593074 s x := ?_; ?_; rotate_left; clear_value x; rotate_right; dsimp -zeta only [x]; clear x)
    | ((try lift_lets -underBinder); intro (x : State × _); refine have hx : Keeps 1890593074 s x.1 := ?_; ?_; rotate_left; clear_value x; rotate_right; dsimp -zeta only [x]; clear x)
    | ((try lift_lets -underBinder); intro (fn : State → State); refine have hfn : ∀ t, Keeps 1890593074 s t → Keeps 1890593074 s (fn t) := ?_; ?_; rotate_left; clear_value fn; rotate_right; dsimp -zeta only [fn]; clear fn)
    | ((try lift_lets -underBinder); intro (fn2 : _ → State → State); refine have hfn2 : ∀ a t, Keeps 1890593074 s t → Keeps 1890593074 s (fn2 a t) := ?_; ?_; rotate_left; clear_value fn2; rotate_right; dsimp -zeta only [fn2]; clear fn2)
    | with_reducible apply hfn
    | with_reducible apply hfn2
    | ((try lift_lets -underBinder); intro x; clear_value x)
    | with_reducible apply Keeps.ite ?_ ?_
    | with_reducible apply Keeps.app ?_ (keeps_eventP ..) ?_
    | with_reducible apply keeps_whenReached
    | with_reducible apply Keeps.app ?_ (keeps_dmaMove ..) ?_
    | with_reducible apply Keeps.app ?_ (keeps_dmaComplete ..) ?_
    | ((with_reducible apply Keeps.outPair); assumption)
    | (dsimp -zeta only)
    | exact rfl
    | (intro _)
    | split

theorem keeps_execDmaAbort a0 s t (e : execDmaAbort a0 s = .next t) : Keeps 1353720114 s t := by
  unfold execDmaAbort at e
  injection e with e
  subst e
  have h := Keeps.refl 1353720114 s
  repeat' first
    | with_reducible assumption
    | with_reducible apply Keeps.app ?_ (keeps_abortDma ..) ?_
    | exact rfl
    | (intro _)
    | split

theorem keeps_execRespRpWrite a0 a1 s t (e : execRespRpWrite a0 a1 s = .next t) : Keeps 8192 s t := by
  unfold execRespRpWrite at e
  injection e with e
  subst e
  have h := Keeps.refl 8192 s
  repeat' first
    | with_reducible assumption
    | ((try lift_lets -underBinder); intro x; clear_value x)
    | with_reducible apply Keeps.app ?_ (keeps_setResp ..) ?_
    | exact rfl
    | (intro _)
    | split

theorem keeps_execNormRpWrite a0 a1 s t (e : execNormRpWrite a0 a1 s = .next t) : Keeps 1125899906842624 s t := by
  unfold execNormRpWrite at e
  injection e with e
  subst e
  have h := Keeps.refl 1125899906842624 s
  repeat' first
    | with_reducible assumption
    | ((try lift_lets -underBinder); intro (x : State); refine have hx : Keeps 1125899906842624 s x := ?_; ?_; rotate_left; clear_value x; rotate_right; dsimp -zeta only [x]; clear x)
    | ((try lift_lets -underBinder); intro x; clear_value x)
    | with_reducible apply Keeps.ite ?_ ?_
    | exact rfl
    | with_reducible apply keeps_modCnt ?_ ?_ ?_ ?_ ?_ ?_ ?_ ?_ ?_
    | ((with_reducible apply Or.inl); exact rfl)
    | ((with_reducible apply Or.inr); simp only [Part.same, and_self, modCnt])
    | (intro _)
    | split

theorem keeps_execEvtRpWrite a0 s t (e : execEvtRpWrite a0 s = .next t) : Keeps 4 s t := by
  unfold execEvtRpWrite at e
  injection e with e
  subst e
  have h := Keeps.refl 4 s
  repeat' first
    | with_reducible assumption
    | ((try lift_lets -underBinder); intro x; clear_value x)
    | exact rfl
    | with_reducible apply keeps_modEvt ?_ ?_ ?_ ?_
    | ((with_reducible apply Or.inl); exact rfl)
    | ((with_reducible apply Or.inr); simp only [Part.same, and_self, modEvt])
    | (intro _)
    | split

theorem keeps_execCntClampClear a0 a1 s t (e : execCntClampClear a0 a1 s = .next t) : Keeps 35184372088832 s t := by
  unfold execCntClampClear at e
  injection e with e
  subst e
  have h := Keeps.refl 35184372088832 s
  repeat' first
    | with_reducible assumption
    | ((try lift_lets -underBinder); intro (x : State); refine have hx : Keeps 35184372088832 s x := ?_; ?_; rotate_left; clear_value x; rotate_right; dsimp -zeta only [x]; clear x)
    | ((try lift_lets -underBinder); intro x; clear_value x)
    | exact rfl
    | with_reducible apply keeps_modCnt ?_ ?_ ?_ ?_ ?_ ?_ ?_ ?_ ?_
    | ((with_reducible apply Or.inl); exact rfl)
    | ((with_reducible apply Or.inr); simp only [Part.same, and_self, modCnt])
    | (intro _)
    | split

theorem keeps_execCntAccClear a0 s t (e : execCntAccClear a0 s = .next t) : Keeps 70368744177664 s t := by
  unfold execCntAccClear at e
  injection e with e
  subst e
  have h := Keeps.refl 70368744177664 s
  repeat' first
    | with_reducible assumption
    | ((try lift_lets -underBinder); intro x; clear_value x)
    | exact rfl
    | with_reducible apply keeps_modCnt ?_ ?_ ?_ ?_ ?_ ?_ ?_ ?_ ?_
    | ((with_reducible apply Or.inl); exact rfl)
    | ((with_reducible apply Or.inr); simp only [Part.same, and_self, modCnt])
    | (intro _)
    | split

theorem keeps_execCntLateClear a0 s t (e : execCntLateClear a0 s = .next t) : Keeps 140737488355328 s t := by
  unfold execCntLateClear at e
  injection e with e
  subst e
  have h := Keeps.refl 140737488355328 s
  repeat' first
    | with_reducible assumption
    | ((try lift_lets -underBinder); intro x; clear_value x)
    | exact rfl
    | with_reducible apply keeps_modCnt ?_ ?_ ?_ ?_ ?_ ?_ ?_ ?_ ?_
    | ((with_reducible apply Or.inl); exact rfl)
    | ((with_reducible apply Or.inr); simp only [Part.same, and_self, modCnt])
    | (intro _)
    | split

theorem keeps_execTcsAdmCntClear a0 s t (e : execTcsAdmCntClear a0 s = .next t) : Keeps 16384 s t := by
  unfold execTcsAdmCntClear at e
  injection e with e
  subst e
  have h := Keeps.refl 16384 s
  repeat' first
    | with_reducible assumption
    | ((try lift_lets -underBinder); intro x; clear_value x)
    | exact rfl
    | with_reducible apply keeps_modTcs ?_ ?_ ?_ ?_ ?_ ?_ ?_
    | ((with_reducible apply Or.inl); exact rfl)
    | ((with_reducible apply Or.inr); simp only [Part.same, and_self, modTcs])
    | (intro _)
    | split

theorem keeps_execColCntClear a0 s t (e : execColCntClear a0 s = .next t) : Keeps 137438953472 s t := by
  unfold execColCntClear at e
  injection e with e
  subst e
  have h := Keeps.refl 137438953472 s
  repeat' first
    | with_reducible assumption
    | ((try lift_lets -underBinder); intro x; clear_value x)
    | exact rfl
    | with_reducible apply keeps_modCol ?_ ?_ ?_ ?_ ?_ ?_
    | ((with_reducible apply Or.inl); exact rfl)
    | ((with_reducible apply Or.inr); simp only [Part.same, and_self, modCol])
    | (intro _)
    | split

theorem keeps_execPwrCntClear s t (e : execPwrCntClear s = .next t) : Keeps 4398046511104 s t := by
  unfold execPwrCntClear at e
  injection e with e
  subst e
  have h := Keeps.refl 4398046511104 s
  repeat' first
    | with_reducible assumption
    | ((try lift_lets -underBinder); intro x; clear_value x)
    | exact rfl
    | with_reducible apply keeps_modPwr ?_ ?_
    | ((with_reducible apply Or.inl); exact rfl)
    | ((with_reducible apply Or.inr); simp only [Part.same, and_self, modPwr])
    | (intro _)
    | split

theorem keeps_execCntSelvClear a0 s t (e : execCntSelvClear a0 s = .next t) : Keeps 281474976710656 s t := by
  unfold execCntSelvClear at e
  injection e with e
  subst e
  have h := Keeps.refl 281474976710656 s
  repeat' first
    | with_reducible assumption
    | ((try lift_lets -underBinder); intro x; clear_value x)
    | exact rfl
    | with_reducible apply keeps_modCnt ?_ ?_ ?_ ?_ ?_ ?_ ?_ ?_ ?_
    | ((with_reducible apply Or.inl); exact rfl)
    | ((with_reducible apply Or.inr); simp only [Part.same, and_self, modCnt])
    | (intro _)
    | split

theorem keeps_execCntFillClear s t (e : execCntFillClear s = .next t) : Keeps 4503599627370496 s t := by
  unfold execCntFillClear at e
  injection e with e
  subst e
  have h := Keeps.refl 4503599627370496 s
  repeat' first
    | with_reducible assumption
    | ((try lift_lets -underBinder); intro x; clear_value x)
    | exact rfl
    | with_reducible apply keeps_modCnt ?_ ?_ ?_ ?_ ?_ ?_ ?_ ?_ ?_
    | ((with_reducible apply Or.inl); exact rfl)
    | ((with_reducible apply Or.inr); simp only [Part.same, and_self, modCnt])
    | (intro _)
    | split

theorem keeps_execCntStallClear a0 s t (e : execCntStallClear a0 s = .next t) : Keeps 2251799813685248 s t := by
  unfold execCntStallClear at e
  injection e with e
  subst e
  have h := Keeps.refl 2251799813685248 s
  repeat' first
    | with_reducible assumption
    | ((try lift_lets -underBinder); intro x; clear_value x)
    | exact rfl
    | with_reducible apply keeps_modCnt ?_ ?_ ?_ ?_ ?_ ?_ ?_ ?_ ?_
    | ((with_reducible apply Or.inl); exact rfl)
    | ((with_reducible apply Or.inr); simp only [Part.same, and_self, modCnt])
    | (intro _)
    | split

theorem keeps_execCntSnap a0 a1 s t (e : execCntSnap a0 a1 s = .next t) : Keeps 2251799813685249 s t := by
  unfold execCntSnap at e
  injection e with e
  subst e
  have h := Keeps.refl 2251799813685249 s
  repeat' first
    | with_reducible assumption
    | ((try lift_lets -underBinder); intro (x : State); refine have hx : Keeps 2251799813685249 s x := ?_; ?_; rotate_left; clear_value x; rotate_right; dsimp -zeta only [x]; clear x)
    | ((try lift_lets -underBinder); intro (x : State × _); refine have hx : Keeps 2251799813685249 s x.1 := ?_; ?_; rotate_left; clear_value x; rotate_right; dsimp -zeta only [x]; clear x)
    | ((try lift_lets -underBinder); intro x; clear_value x)
    | with_reducible apply Keeps.ite ?_ ?_
    | with_reducible apply Keeps.app ?_ (keeps_snapOne ..) ?_
    | exact rfl
    | with_reducible apply keeps_modCnt ?_ ?_ ?_ ?_ ?_ ?_ ?_ ?_ ?_
    | ((with_reducible apply Or.inl); exact rfl)
    | ((with_reducible apply Or.inr); simp only [Part.same, and_self, modCnt])
    | with_reducible apply Keeps.foldl ?_ _ _ ?_
    | with_reducible apply Keeps.foldlFst ?_ _ _ ?_
    | (intro _)
    | split

theorem keeps_execClkRefEdge s t (e : execClkRefEdge s = .next t) : Keeps 6777389673611264 s t := by
  unfold execClkRefEdge at e
  injection e with e
  subst e
  have h := Keeps.refl 6777389673611264 s
  repeat' first
    | with_reducible assumption
    | ((try lift_lets -underBinder); intro (x : State); refine have hx : Keeps 6777389673611264 s x := ?_; ?_; rotate_left; clear_value x; rotate_right; dsimp -zeta only [x]; clear x)
    | ((try lift_lets -underBinder); intro x; clear_value x)
    | with_reducible apply Keeps.ite ?_ ?_
    | with_reducible apply Keeps.app ?_ (keeps_countStalls ..) ?_
    | exact rfl
    | with_reducible apply keeps_modPwr ?_ ?_
    | with_reducible apply keeps_modClk ?_ ?_ ?_
    | with_reducible apply keeps_modCnt ?_ ?_ ?_ ?_ ?_ ?_ ?_ ?_ ?_
    | ((with_reducible apply Or.inl); exact rfl)
    | ((with_reducible apply Or.inr); simp only [Part.same, and_self, modClk, modCnt, modPwr])
    | (intro _)
    | split

theorem keeps_execPartitionHalt a0 s t (e : execPartitionHalt a0 s = .next t) : Keeps 144115189429613882 s t := by
  unfold execPartitionHalt at e
  injection e with e
  subst e
  have h := Keeps.refl 144115189429613882 s
  repeat' first
    | with_reducible assumption
    | with_reducible apply Keeps.ite ?_ ?_
    | with_reducible apply Keeps.app ?_ (keeps_haltPartition ..) ?_
    | exact rfl
    | (intro _)
    | split

theorem keeps_execHaltClear a0 s t (e : execHaltClear a0 s = .next t) : Keeps 10 s t := by
  unfold execHaltClear at e
  injection e with e
  subst e
  have h := Keeps.refl 10 s
  repeat' first
    | with_reducible assumption
    | ((try lift_lets -underBinder); intro x; clear_value x)
    | with_reducible apply Keeps.ite ?_ ?_
    | with_reducible apply Keeps.app ?_ (keeps_endHalt ..) ?_
    | exact rfl
    | with_reducible apply keeps_modEvt ?_ ?_ ?_ ?_
    | ((with_reducible apply Or.inl); exact rfl)
    | ((with_reducible apply Or.inr); simp only [Part.same, and_self, modEvt])
    | with_reducible apply Keeps.foldl ?_ _ _ ?_
    | with_reducible apply Keeps.foldlFst ?_ _ _ ?_
    | (intro _)
    | split

theorem keeps_execDeviceFatalStop s t (e : execDeviceFatalStop s = .next t) : Keeps 144116147207320890 s t := by
  unfold execDeviceFatalStop at e
  injection e with e
  subst e
  have h := Keeps.refl 144116147207320890 s
  repeat' first
    | with_reducible assumption
    | ((try lift_lets -underBinder); intro (x : State); refine have hx : Keeps 144116147207320890 s x := ?_; ?_; rotate_left; clear_value x; rotate_right; dsimp -zeta only [x]; clear x)
    | ((try lift_lets -underBinder); intro x; clear_value x)
    | with_reducible apply Keeps.ite ?_ ?_
    | with_reducible apply Keeps.app ?_ (keeps_stopAll ..) ?_
    | with_reducible apply Keeps.app ?_ (keeps_callRack ..) ?_
    | exact rfl
    | with_reducible apply keeps_modEvt ?_ ?_ ?_ ?_
    | ((with_reducible apply Or.inl); exact rfl)
    | ((with_reducible apply Or.inr); simp only [Part.same, and_self, modEvt])
    | (intro _)
    | split

theorem keeps_execPartitionFlr a0 a1 s t (e : execPartitionFlr a0 a1 s = .next t) : Keeps 148584000564870587 s t := by
  unfold execPartitionFlr at e
  injection e with e
  subst e
  have h := Keeps.refl 148584000564870587 s
  repeat' first
    | with_reducible assumption
    | with_reducible apply Keeps.ite ?_ ?_
    | with_reducible apply Keeps.app ?_ (keeps_flrPartition ..) ?_
    | exact rfl
    | (intro _)
    | split

theorem keeps_execPfFlr a0 s t (e : execPfFlr a0 s = .next t) : Keeps 148584000564871167 s t := by
  unfold execPfFlr at e
  injection e with e
  subst e
  have h := Keeps.refl 148584000564871167 s
  repeat' first
    | with_reducible assumption
    | ((try lift_lets -underBinder); intro (x : State); refine have hx : Keeps 148584000564871167 s x := ?_; ?_; rotate_left; clear_value x; rotate_right; dsimp -zeta only [x]; clear x)
    | ((try lift_lets -underBinder); intro (x : State × _); refine have hx : Keeps 148584000564871167 s x.1 := ?_; ?_; rotate_left; clear_value x; rotate_right; dsimp -zeta only [x]; clear x)
    | ((try lift_lets -underBinder); intro x; clear_value x)
    | with_reducible apply Keeps.ite ?_ ?_
    | with_reducible apply Keeps.app ?_ (keeps_endStaging ..) ?_
    | with_reducible apply Keeps.app ?_ (keeps_clearPf ..) ?_
    | with_reducible apply Keeps.app ?_ (keeps_resetPartition ..) ?_
    | with_reducible apply Keeps.app ?_ (keeps_eventD ..) ?_
    | with_reducible apply Keeps.app ?_ (keeps_bumpFree ..) ?_
    | exact rfl
    | with_reducible apply Keeps.foldl ?_ _ _ ?_
    | with_reducible apply Keeps.foldlFst ?_ _ _ ?_
    | (intro _)
    | split

theorem keeps_execVfEnable a0 s t (e : execVfEnable a0 s = .next t) : Keeps 148584000564870651 s t := by
  unfold execVfEnable at e
  injection e with e
  subst e
  have h := Keeps.refl 148584000564870651 s
  repeat' first
    | with_reducible assumption
    | ((try lift_lets -underBinder); intro (x : State); refine have hx : Keeps 148584000564870651 s x := ?_; ?_; rotate_left; clear_value x; rotate_right; dsimp -zeta only [x]; clear x)
    | ((try lift_lets -underBinder); intro (x : State × _); refine have hx : Keeps 148584000564870651 s x.1 := ?_; ?_; rotate_left; clear_value x; rotate_right; dsimp -zeta only [x]; clear x)
    | ((try lift_lets -underBinder); intro x; clear_value x)
    | with_reducible apply Keeps.ite ?_ ?_
    | with_reducible apply Keeps.app ?_ (keeps_flrPartition ..) ?_
    | exact rfl
    | with_reducible apply keeps_modPci ?_ ?_ ?_ ?_ ?_ ?_
    | ((with_reducible apply Or.inl); exact rfl)
    | ((with_reducible apply Or.inr); simp only [Part.same, and_self, modPci])
    | with_reducible apply Keeps.foldl ?_ _ _ ?_
    | with_reducible apply Keeps.foldlFst ?_ _ _ ?_
    | (intro _)
    | split

theorem keeps_execStageBegin a0 s t (e : execStageBegin a0 s = .next t) : Keeps 720575940379279360 s t := by
  unfold execStageBegin at e
  injection e with e
  subst e
  have h := Keeps.refl 720575940379279360 s
  repeat' first
    | with_reducible assumption
    | ((try lift_lets -underBinder); intro x; clear_value x)
    | with_reducible apply Keeps.ite ?_ ?_
    | with_reducible apply keeps_served
    | with_reducible apply Keeps.app ?_ (keeps_reply ..) ?_
    | exact rfl
    | with_reducible apply keeps_modWmc ?_ ?_ ?_ ?_ ?_ ?_ ?_ ?_ ?_
    | ((with_reducible apply Or.inl); exact rfl)
    | ((with_reducible apply Or.inr); simp only [Part.same, and_self, modWmc])
    | (intro _)
    | split

theorem keeps_execStageData a0 a1 a2 s t (e : execStageData a0 a1 a2 s = .next t) : Keeps 720575940379279360 s t := by
  unfold execStageData at e
  injection e with e
  subst e
  have h := Keeps.refl 720575940379279360 s
  repeat' first
    | with_reducible assumption
    | ((try lift_lets -underBinder); intro (x : State); refine have hx : Keeps 720575940379279360 s x := ?_; ?_; rotate_left; clear_value x; rotate_right; dsimp -zeta only [x]; clear x)
    | ((try lift_lets -underBinder); intro x; clear_value x)
    | with_reducible apply Keeps.ite ?_ ?_
    | with_reducible apply keeps_served
    | with_reducible apply Keeps.app ?_ (keeps_reply ..) ?_
    | exact rfl
    | with_reducible apply keeps_modWmc ?_ ?_ ?_ ?_ ?_ ?_ ?_ ?_ ?_
    | ((with_reducible apply Or.inl); exact rfl)
    | ((with_reducible apply Or.inr); simp only [Part.same, and_self, modWmc])
    | (intro _)
    | split

theorem keeps_execStageEnd a0 s t (e : execStageEnd a0 s = .next t) : Keeps 720575940379279360 s t := by
  unfold execStageEnd at e
  injection e with e
  subst e
  have h := Keeps.refl 720575940379279360 s
  repeat' first
    | with_reducible assumption
    | ((try lift_lets -underBinder); intro (x : State); refine have hx : Keeps 720575940379279360 s x := ?_; ?_; rotate_left; clear_value x; rotate_right; dsimp -zeta only [x]; clear x)
    | ((try lift_lets -underBinder); intro x; clear_value x)
    | with_reducible apply Keeps.ite ?_ ?_
    | with_reducible apply keeps_served
    | with_reducible apply Keeps.app ?_ (keeps_reply ..) ?_
    | exact rfl
    | with_reducible apply keeps_modWmc ?_ ?_ ?_ ?_ ?_ ?_ ?_ ?_ ?_
    | ((with_reducible apply Or.inl); exact rfl)
    | ((with_reducible apply Or.inr); simp only [Part.same, and_self, modWmc])
    | (intro _)
    | split

theorem keeps_execStageTimeout s t (e : execStageTimeout s = .next t) : Keeps 144115188075855872 s t := by
  unfold execStageTimeout at e
  injection e with e
  subst e
  have h := Keeps.refl 144115188075855872 s
  repeat' first
    | with_reducible assumption
    | ((try lift_lets -underBinder); intro x; clear_value x)
    | with_reducible apply Keeps.ite ?_ ?_
    | exact rfl
    | with_reducible apply keeps_modWmc ?_ ?_ ?_ ?_ ?_ ?_ ?_ ?_ ?_
    | ((with_reducible apply Or.inl); exact rfl)
    | ((with_reducible apply Or.inr); simp only [Part.same, and_self, modWmc])
    | (intro _)
    | split

theorem keeps_execArm a0 a1 a2 s t (e : execArm a0 a1 a2 s = .next t) : Keeps 756604737398243328 s t := by
  unfold execArm at e
  injection e with e
  subst e
  have h := Keeps.refl 756604737398243328 s
  repeat' first
    | with_reducible assumption
    | ((try lift_lets -underBinder); intro (x : State); refine have hx : Keeps 756604737398243328 s x := ?_; ?_; rotate_left; clear_value x; rotate_right; dsimp -zeta only [x]; clear x)
    | ((try lift_lets -underBinder); intro (x : State × _); refine have hx : Keeps 756604737398243328 s x.1 := ?_; ?_; rotate_left; clear_value x; rotate_right; dsimp -zeta only [x]; clear x)
    | ((try lift_lets -underBinder); intro x; clear_value x)
    | with_reducible apply Keeps.ite ?_ ?_
    | with_reducible apply keeps_served
    | with_reducible apply Keeps.app ?_ (keeps_reply ..) ?_
    | with_reducible apply Keeps.app ?_ (keeps_writeCfgSlot ..) ?_
    | with_reducible apply Keeps.app ?_ (keeps_holdPart ..) ?_
    | with_reducible apply Keeps.app ?_ (keeps_holdIfIdle ..) ?_
    | exact rfl
    | with_reducible apply keeps_modWmc ?_ ?_ ?_ ?_ ?_ ?_ ?_ ?_ ?_
    | ((with_reducible apply Or.inl); exact rfl)
    | ((with_reducible apply Or.inr); simp only [Part.same, and_self, modWmc])
    | with_reducible apply Keeps.foldl ?_ _ _ ?_
    | with_reducible apply Keeps.foldlFst ?_ _ _ ?_
    | (intro _)
    | split

theorem keeps_execAbort a0 s t (e : execAbort a0 s = .next t) : Keeps 720575941732999218 s t := by
  unfold execAbort at e
  injection e with e
  subst e
  have h := Keeps.refl 720575941732999218 s
  repeat' first
    | with_reducible assumption
    | with_reducible apply Keeps.ite ?_ ?_
    | with_reducible apply keeps_served
    | with_reducible apply Keeps.app ?_ (keeps_reply ..) ?_
    | with_reducible apply Keeps.app ?_ (keeps_abandonSwap ..) ?_
    | exact rfl
    | (intro _)
    | split

theorem keeps_execSwapApply s t (e : execSwapApply s = .next t) : Keeps 229651555538304443 s t := by
  unfold execSwapApply at e
  injection e with e
  subst e
  have h := Keeps.refl 229651555538304443 s
  repeat' first
    | with_reducible assumption
    | ((try lift_lets -underBinder); intro (x : State); refine have hx : Keeps 229651555538304443 s x := ?_; ?_; rotate_left; clear_value x; rotate_right; dsimp -zeta only [x]; clear x)
    | ((try lift_lets -underBinder); intro x; clear_value x)
    | with_reducible apply Keeps.ite ?_ ?_
    | with_reducible apply Keeps.app ?_ (keeps_abandonSwap ..) ?_
    | with_reducible apply Keeps.app ?_ (keeps_swapIn ..) ?_
    | exact rfl
    | (intro _)
    | split

theorem keeps_execSwapTimeout s t (e : execSwapTimeout s = .next t) : Keeps 144115189429575730 s t := by
  unfold execSwapTimeout at e
  injection e with e
  subst e
  have h := Keeps.refl 144115189429575730 s
  repeat' first
    | with_reducible assumption
    | ((try lift_lets -underBinder); intro x; clear_value x)
    | with_reducible apply Keeps.ite ?_ ?_
    | with_reducible apply Keeps.app ?_ (keeps_abandonSwap ..) ?_
    | exact rfl
    | (intro _)
    | split

theorem keeps_execCommitWordProgram s t (e : execCommitWordProgram s = .next t) : Keeps 180143985094819840 s t := by
  unfold execCommitWordProgram at e
  injection e with e
  subst e
  have h := Keeps.refl 180143985094819840 s
  repeat' first
    | with_reducible assumption
    | ((try lift_lets -underBinder); intro x; clear_value x)
    | with_reducible apply Keeps.ite ?_ ?_
    | exact rfl
    | with_reducible apply keeps_modWmc ?_ ?_ ?_ ?_ ?_ ?_ ?_ ?_ ?_
    | ((with_reducible apply Or.inl); exact rfl)
    | ((with_reducible apply Or.inr); simp only [Part.same, and_self, modWmc])
    | (intro _)
    | split

theorem keeps_execReadActive a0 s t (e : execReadActive a0 s = .next t) : Keeps 576460752303423488 s t := by
  unfold execReadActive at e
  injection e with e
  subst e
  have h := Keeps.refl 576460752303423488 s
  repeat' first
    | with_reducible assumption
    | with_reducible apply keeps_served
    | with_reducible apply Keeps.app ?_ (keeps_reply ..) ?_
    | exact rfl
    | (intro _)
    | split

theorem keeps_execReadLog a0 a1 a2 a3 s t (e : execReadLog a0 a1 a2 a3 s = .next t) : Keeps 576460752303423488 s t := by
  unfold execReadLog at e
  injection e with e
  subst e
  have h := Keeps.refl 576460752303423488 s
  repeat' first
    | with_reducible assumption
    | ((try lift_lets -underBinder); intro (x : State); refine have hx : Keeps 576460752303423488 s x := ?_; ?_; rotate_left; clear_value x; rotate_right; dsimp -zeta only [x]; clear x)
    | ((try lift_lets -underBinder); intro x; clear_value x)
    | with_reducible apply Keeps.ite ?_ ?_
    | with_reducible apply keeps_served
    | with_reducible apply Keeps.app ?_ (keeps_reply ..) ?_
    | exact rfl
    | (intro _)
    | split

theorem keeps_execCoord a0 a1 a2 a3 a4 a5 a6 s t (e : execCoord a0 a1 a2 a3 a4 a5 a6 s = .next t) : Keeps 8589934592 s t := by
  unfold execCoord at e
  injection e with e
  subst e
  have h := Keeps.refl 8589934592 s
  repeat' first
    | with_reducible assumption
    | ((try lift_lets -underBinder); intro x; clear_value x)
    | with_reducible apply Keeps.ite ?_ ?_
    | exact rfl
    | with_reducible apply keeps_modCol ?_ ?_ ?_ ?_ ?_ ?_
    | ((with_reducible apply Or.inl); exact rfl)
    | ((with_reducible apply Or.inr); simp only [Part.same, and_self, modCol])
    | (intro _)
    | split

theorem keeps_execSwitchInMessage a0 a1 a2 s t (e : execSwitchInMessage a0 a1 a2 s = .next t) : Keeps 265680352557268411 s t := by
  unfold execSwitchInMessage at e
  injection e with e
  subst e
  have h := Keeps.refl 265680352557268411 s
  repeat' first
    | with_reducible assumption
    | ((try lift_lets -underBinder); intro (x : State); refine have hx : Keeps 265680352557268411 s x := ?_; ?_; rotate_left; clear_value x; rotate_right; dsimp -zeta only [x]; clear x)
    | ((try lift_lets -underBinder); intro (x : State × _); refine have hx : Keeps 265680352557268411 s x.1 := ?_; ?_; rotate_left; clear_value x; rotate_right; dsimp -zeta only [x]; clear x)
    | ((try lift_lets -underBinder); intro x; clear_value x)
    | with_reducible apply Keeps.ite ?_ ?_
    | with_reducible apply Keeps.app ?_ (keeps_swapIn ..) ?_
    | with_reducible apply Keeps.app ?_ (keeps_writeCfgSlot ..) ?_
    | with_reducible apply Keeps.app ?_ (keeps_eventD ..) ?_
    | with_reducible apply Keeps.app ?_ (keeps_modPort ..) ?_
    | exact rfl
    | with_reducible apply keeps_modWmc ?_ ?_ ?_ ?_ ?_ ?_ ?_ ?_ ?_
    | with_reducible apply keeps_modCol ?_ ?_ ?_ ?_ ?_ ?_
    | ((with_reducible apply Or.inl); exact rfl)
    | ((with_reducible apply Or.inr); simp only [Part.same, and_self, modCol, modWmc])
    | with_reducible apply Keeps.foldl ?_ _ _ ?_
    | with_reducible apply Keeps.foldlFst ?_ _ _ ?_
    | (intro _)
    | split

theorem keeps_execGetVersionSupport a0 a1 s t (e : execGetVersionSupport a0 a1 s = .next t) : Keeps 576460752303423488 s t := by
  unfold execGetVersionSupport at e
  injection e with e
  subst e
  have h := Keeps.refl 576460752303423488 s
  repeat' first
    | with_reducible assumption
    | with_reducible apply Keeps.ite ?_ ?_
    | with_reducible apply keeps_served
    | with_reducible apply Keeps.app ?_ (keeps_reply ..) ?_
    | exact rfl
    | (intro _)
    | split

theorem keeps_execGetPldmVersion a0 a1 s t (e : execGetPldmVersion a0 a1 s = .next t) : Keeps 576460752303423488 s t := by
  unfold execGetPldmVersion at e
  injection e with e
  subst e
  have h := Keeps.refl 576460752303423488 s
  repeat' first
    | with_reducible assumption
    | with_reducible apply Keeps.ite ?_ ?_
    | with_reducible apply keeps_served
    | with_reducible apply Keeps.app ?_ (keeps_reply ..) ?_
    | exact rfl
    | (intro _)
    | split

theorem keeps_execSetEventReceiver a0 a1 s t (e : execSetEventReceiver a0 a1 s = .next t) : Keeps 576460752303423488 s t := by
  unfold execSetEventReceiver at e
  injection e with e
  subst e
  have h := Keeps.refl 576460752303423488 s
  repeat' first
    | with_reducible assumption
    | ((try lift_lets -underBinder); intro x; clear_value x)
    | with_reducible apply keeps_served
    | with_reducible apply Keeps.app ?_ (keeps_reply ..) ?_
    | exact rfl
    | with_reducible apply keeps_modWmc ?_ ?_ ?_ ?_ ?_ ?_ ?_ ?_ ?_
    | ((with_reducible apply Or.inl); exact rfl)
    | ((with_reducible apply Or.inr); simp only [Part.same, and_self, modWmc])
    | (intro _)
    | split

theorem keeps_execPldmSensorRead a0 a1 s t (e : execPldmSensorRead a0 a1 s = .next t) : Keeps 576460752303423488 s t := by
  unfold execPldmSensorRead at e
  injection e with e
  subst e
  have h := Keeps.refl 576460752303423488 s
  repeat' first
    | with_reducible assumption
    | ((try lift_lets -underBinder); intro (x : State); refine have hx : Keeps 576460752303423488 s x := ?_; ?_; rotate_left; clear_value x; rotate_right; dsimp -zeta only [x]; clear x)
    | ((try lift_lets -underBinder); intro x; clear_value x)
    | with_reducible apply Keeps.ite ?_ ?_
    | with_reducible apply keeps_served
    | with_reducible apply Keeps.app ?_ (keeps_reply ..) ?_
    | exact rfl
    | (intro _)
    | split

theorem keeps_execRequestUpdate a0 s t (e : execRequestUpdate a0 s = .next t) : Keeps 594475152166625331 s t := by
  unfold execRequestUpdate at e
  injection e with e
  subst e
  have h := Keeps.refl 594475152166625331 s
  repeat' first
    | with_reducible assumption
    | ((try lift_lets -underBinder); intro (x : State); refine have hx : Keeps 594475152166625331 s x := ?_; ?_; rotate_left; clear_value x; rotate_right; dsimp -zeta only [x]; clear x)
    | ((try lift_lets -underBinder); intro x; clear_value x)
    | with_reducible apply Keeps.ite ?_ ?_
    | with_reducible apply keeps_servedFw
    | with_reducible apply Keeps.app ?_ (keeps_reply ..) ?_
    | with_reducible apply Keeps.app ?_ (keeps_eventUpdate ..) ?_
    | with_reducible apply Keeps.app ?_ (keeps_bumpFree ..) ?_
    | exact rfl
    | with_reducible apply keeps_modWmc ?_ ?_ ?_ ?_ ?_ ?_ ?_ ?_ ?_
    | ((with_reducible apply Or.inl); exact rfl)
    | ((with_reducible apply Or.inr); simp only [Part.same, and_self, modWmc])
    | (intro _)
    | split

theorem keeps_execFirmwareDataTransfer a0 a1 a2 s t (e : execFirmwareDataTransfer a0 a1 a2 s = .next t) : Keeps 594475150812905472 s t := by
  unfold execFirmwareDataTransfer at e
  injection e with e
  subst e
  have h := Keeps.refl 594475150812905472 s
  repeat' first
    | with_reducible assumption
    | ((try lift_lets -underBinder); intro (x : State); refine have hx : Keeps 594475150812905472 s x := ?_; ?_; rotate_left; clear_value x; rotate_right; dsimp -zeta only [x]; clear x)
    | ((try lift_lets -underBinder); intro x; clear_value x)
    | with_reducible apply Keeps.ite ?_ ?_
    | with_reducible apply keeps_servedFw
    | with_reducible apply Keeps.app ?_ (keeps_reply ..) ?_
    | with_reducible apply Keeps.app ?_ (keeps_setSlot ..) ?_
    | exact rfl
    | with_reducible apply keeps_modWmc ?_ ?_ ?_ ?_ ?_ ?_ ?_ ?_ ?_
    | ((with_reducible apply Or.inl); exact rfl)
    | ((with_reducible apply Or.inr); simp only [Part.same, and_self, modWmc])
    | (intro _)
    | split

theorem keeps_execVerifyComplete a0 s t (e : execVerifyComplete a0 s = .next t) : Keeps 594475152166625330 s t := by
  unfold execVerifyComplete at e
  injection e with e
  subst e
  have h := Keeps.refl 594475152166625330 s
  repeat' first
    | with_reducible assumption
    | ((try lift_lets -underBinder); intro (x : State); refine have hx : Keeps 594475152166625330 s x := ?_; ?_; rotate_left; clear_value x; rotate_right; dsimp -zeta only [x]; clear x)
    | ((try lift_lets -underBinder); intro x; clear_value x)
    | with_reducible apply Keeps.ite ?_ ?_
    | with_reducible apply keeps_servedFw
    | with_reducible apply Keeps.app ?_ (keeps_reply ..) ?_
    | with_reducible apply Keeps.app ?_ (keeps_setSlot ..) ?_
    | with_reducible apply Keeps.app ?_ (keeps_eventVerify ..) ?_
    | with_reducible apply Keeps.app ?_ (keeps_eventUpdate ..) ?_
    | exact rfl
    | with_reducible apply keeps_modWmc ?_ ?_ ?_ ?_ ?_ ?_ ?_ ?_ ?_
    | ((with_reducible apply Or.inl); exact rfl)
    | ((with_reducible apply Or.inr); simp only [Part.same, and_self, modWmc])
    | (intro _)
    | split

theorem keeps_execActivateFirmware a0 s t (e : execActivateFirmware a0 s = .next t) : Keeps 594475152166625330 s t := by
  unfold execActivateFirmware at e
  injection e with e
  subst e
  have h := Keeps.refl 594475152166625330 s
  repeat' first
    | with_reducible assumption
    | ((try lift_lets -underBinder); intro (x : State); refine have hx : Keeps 594475152166625330 s x := ?_; ?_; rotate_left; clear_value x; rotate_right; dsimp -zeta only [x]; clear x)
    | ((try lift_lets -underBinder); intro x; clear_value x)
    | with_reducible apply Keeps.ite ?_ ?_
    | with_reducible apply keeps_servedFw
    | with_reducible apply Keeps.app ?_ (keeps_reply ..) ?_
    | with_reducible apply Keeps.app ?_ (keeps_eventUpdate ..) ?_
    | with_reducible apply Keeps.app ?_ (keeps_setSlot ..) ?_
    | exact rfl
    | with_reducible apply keeps_modWmc ?_ ?_ ?_ ?_ ?_ ?_ ?_ ?_ ?_
    | ((with_reducible apply Or.inl); exact rfl)
    | ((with_reducible apply Or.inr); simp only [Part.same, and_self, modWmc])
    | (intro _)
    | split

theorem keeps_execSpdmGetVersion a0 s t (e : execSpdmGetVersion a0 s = .next t) : Keeps 576460752303423488 s t := by
  unfold execSpdmGetVersion at e
  injection e with e
  subst e
  have h := Keeps.refl 576460752303423488 s
  repeat' first
    | with_reducible assumption
    | with_reducible apply keeps_spdm
    | with_reducible apply Keeps.app ?_ (keeps_reply ..) ?_
    | exact rfl
    | (intro _)
    | split

theorem keeps_execSpdmGetCapabilities a0 s t (e : execSpdmGetCapabilities a0 s = .next t) : Keeps 576460752303423488 s t := by
  unfold execSpdmGetCapabilities at e
  injection e with e
  subst e
  have h := Keeps.refl 576460752303423488 s
  repeat' first
    | with_reducible assumption
    | with_reducible apply keeps_spdm
    | with_reducible apply Keeps.app ?_ (keeps_reply ..) ?_
    | exact rfl
    | (intro _)
    | split

theorem keeps_execSpdmNegotiateAlgorithms a0 s t (e : execSpdmNegotiateAlgorithms a0 s = .next t) : Keeps 576460752303423488 s t := by
  unfold execSpdmNegotiateAlgorithms at e
  injection e with e
  subst e
  have h := Keeps.refl 576460752303423488 s
  repeat' first
    | with_reducible assumption
    | with_reducible apply keeps_spdm
    | with_reducible apply Keeps.app ?_ (keeps_reply ..) ?_
    | exact rfl
    | (intro _)
    | split

theorem keeps_execSpdmUnsupportedRequest a0 a1 s t (e : execSpdmUnsupportedRequest a0 a1 s = .next t) : Keeps 576460753657143346 s t := by
  unfold execSpdmUnsupportedRequest at e
  injection e with e
  subst e
  have h := Keeps.refl 576460753657143346 s
  repeat' first
    | with_reducible assumption
    | with_reducible apply keeps_spdm
    | with_reducible apply Keeps.app ?_ (keeps_reply ..) ?_
    | with_reducible apply Keeps.app ?_ (keeps_eventD ..) ?_
    | exact rfl
    | (intro _)
    | split

theorem keeps_execGetCert a0 a1 a2 s t (e : execGetCert a0 a1 a2 s = .next t) : Keeps 576460752303423488 s t := by
  unfold execGetCert at e
  injection e with e
  subst e
  have h := Keeps.refl 576460752303423488 s
  repeat' first
    | with_reducible assumption
    | with_reducible apply keeps_spdm
    | with_reducible apply Keeps.app ?_ (keeps_objectReply ..) ?_
    | exact rfl
    | (intro _)
    | split

theorem keeps_execGetReport a0 a1 a2 a3 s t (e : execGetReport a0 a1 a2 a3 s = .next t) : Keeps 576462951326679040 s t := by
  unfold execGetReport at e
  injection e with e
  subst e
  have h := Keeps.refl 576462951326679040 s
  repeat' first
    | with_reducible assumption
    | ((try lift_lets -underBinder); intro (x : State); refine have hx : Keeps 576462951326679040 s x := ?_; ?_; rotate_left; clear_value x; rotate_right; dsimp -zeta only [x]; clear x)
    | ((try lift_lets -underBinder); intro x; clear_value x)
    | with_reducible apply Keeps.ite ?_ ?_
    | with_reducible apply keeps_spdm
    | with_reducible apply Keeps.app ?_ (keeps_reply ..) ?_
    | with_reducible apply Keeps.app ?_ (keeps_buildReport ..) ?_
    | with_reducible apply Keeps.app ?_ (keeps_objectReply ..) ?_
    | exact rfl
    | (intro _)
    | split

theorem keeps_execKeyErase a0 a1 a2 s t (e : execKeyErase a0 a1 a2 s = .next t) : Keeps 576462953217269810 s t := by
  unfold execKeyErase at e
  injection e with e
  subst e
  have h := Keeps.refl 576462953217269810 s
  repeat' first
    | with_reducible assumption
    | with_reducible apply Keeps.ite ?_ ?_
    | with_reducible apply keeps_spdm
    | with_reducible apply Keeps.app ?_ (keeps_reply ..) ?_
    | with_reducible apply Keeps.app ?_ (keeps_eraseKey ..) ?_
    | exact rfl
    | (intro _)
    | split

theorem keeps_execEntropyHealthFail a0 s t (e : execEntropyHealthFail a0 s = .next t) : Keeps 2200376975411 s t := by
  unfold execEntropyHealthFail at e
  injection e with e
  subst e
  have h := Keeps.refl 2200376975411 s
  repeat' first
    | with_reducible assumption
    | ((try lift_lets -underBinder); intro x; clear_value x)
    | with_reducible apply Keeps.app ?_ (keeps_bumpFree ..) ?_
    | with_reducible apply Keeps.app ?_ (keeps_eventD ..) ?_
    | exact rfl
    | with_reducible apply keeps_modSec ?_ ?_ ?_ ?_
    | ((with_reducible apply Or.inl); exact rfl)
    | ((with_reducible apply Or.inr); simp only [Part.same, and_self, modSec])
    | exact ⟨BitVec.and_self, fun k => k⟩
    | (intro _)
    | split

theorem keeps_execClockStepRampEnd a0 s t (e : execClockStepRampEnd a0 s = .next t) : Keeps 4398046511104 s t := by
  unfold execClockStepRampEnd at e
  injection e with e
  subst e
  have h := Keeps.refl 4398046511104 s
  repeat' first
    | with_reducible assumption
    | ((try lift_lets -underBinder); intro (x : State); refine have hx : Keeps 4398046511104 s x := ?_; ?_; rotate_left; clear_value x; rotate_right; dsimp -zeta only [x]; clear x)
    | ((try lift_lets -underBinder); intro x; clear_value x)
    | with_reducible apply Keeps.ite ?_ ?_
    | with_reducible apply Keeps.app ?_ (keeps_startRamp ..) ?_
    | with_reducible apply Keeps.app ?_ (keeps_modRow ..) ?_
    | exact rfl
    | (intro _)
    | split

theorem keeps_execDroopDetect a0 a1 s t (e : execDroopDetect a0 a1 s = .next t) : Keeps 4398046511104 s t := by
  unfold execDroopDetect at e
  injection e with e
  subst e
  have h := Keeps.refl 4398046511104 s
  repeat' first
    | with_reducible assumption
    | ((try lift_lets -underBinder); intro x; clear_value x)
    | with_reducible apply Keeps.ite ?_ ?_
    | with_reducible apply Keeps.app ?_ (keeps_modRow ..) ?_
    | exact rfl
    | with_reducible apply keeps_modPwr ?_ ?_
    | ((with_reducible apply Or.inl); exact rfl)
    | ((with_reducible apply Or.inr); simp only [Part.same, and_self, modPwr])
    | (intro _)
    | split

theorem keeps_execDroopRecover a0 a1 a2 s t (e : execDroopRecover a0 a1 a2 s = .next t) : Keeps 4398046511104 s t := by
  unfold execDroopRecover at e
  injection e with e
  subst e
  have h := Keeps.refl 4398046511104 s
  repeat' first
    | with_reducible assumption
    | ((try lift_lets -underBinder); intro x; clear_value x)
    | with_reducible apply Keeps.ite ?_ ?_
    | with_reducible apply Keeps.app ?_ (keeps_modRow ..) ?_
    | exact rfl
    | (intro _)
    | split

theorem keeps_execThermalLoopSample a0 a1 s t (e : execThermalLoopSample a0 a1 s = .next t) : Keeps 4399400230963 s t := by
  unfold execThermalLoopSample at e
  injection e with e
  subst e
  have h := Keeps.refl 4399400230963 s
  repeat' first
    | with_reducible assumption
    | ((try lift_lets -underBinder); intro (x : State); refine have hx : Keeps 4399400230963 s x := ?_; ?_; rotate_left; clear_value x; rotate_right; dsimp -zeta only [x]; clear x)
    | ((try lift_lets -underBinder); intro (x : State × _); refine have hx : Keeps 4399400230963 s x.1 := ?_; ?_; rotate_left; clear_value x; rotate_right; dsimp -zeta only [x]; clear x)
    | ((try lift_lets -underBinder); intro x; clear_value x)
    | with_reducible apply Keeps.app ?_ (keeps_thermalRow ..) ?_
    | with_reducible apply Keeps.app ?_ (keeps_noteThrottle ..) ?_
    | with_reducible apply Keeps.app ?_ (keeps_startRamps ..) ?_
    | exact rfl
    | with_reducible apply Keeps.foldl ?_ _ _ ?_
    | with_reducible apply Keeps.foldlFst ?_ _ _ ?_
    | (intro _)
    | split

theorem keeps_execPowerLoopSample a0 s t (e : execPowerLoopSample a0 s = .next t) : Keeps 4399400230962 s t := by
  unfold execPowerLoopSample at e
  injection e with e
  subst e
  have h := Keeps.refl 4399400230962 s
  repeat' first
    | with_reducible assumption
    | ((try lift_lets -underBinder); intro (x : State); refine have hx : Keeps 4399400230962 s x := ?_; ?_; rotate_left; clear_value x; rotate_right; dsimp -zeta only [x]; clear x)
    | ((try lift_lets -underBinder); intro x; clear_value x)
    | with_reducible apply Keeps.ite ?_ ?_
    | with_reducible apply Keeps.app ?_ (keeps_raisePower ..) ?_
    | with_reducible apply Keeps.app ?_ (keeps_setPower ..) ?_
    | exact rfl
    | with_reducible apply keeps_modPwr ?_ ?_
    | ((with_reducible apply Or.inl); exact rfl)
    | ((with_reducible apply Or.inr); simp only [Part.same, and_self, modPwr])
    | (intro _)
    | split

theorem keeps_execCoolantLimit a0 a1 a2 s t (e : execCoolantLimit a0 a1 a2 s = .next t) : Keeps 4399400230962 s t := by
  unfold execCoolantLimit at e
  injection e with e
  subst e
  have h := Keeps.refl 4399400230962 s
  repeat' first
    | with_reducible assumption
    | ((try lift_lets -underBinder); intro (x : State); refine have hx : Keeps 4399400230962 s x := ?_; ?_; rotate_left; clear_value x; rotate_right; dsimp -zeta only [x]; clear x)
    | ((try lift_lets -underBinder); intro x; clear_value x)
    | with_reducible apply Keeps.ite ?_ ?_
    | with_reducible apply Keeps.app ?_ (keeps_eventD ..) ?_
    | with_reducible apply Keeps.app ?_ (keeps_setPower ..) ?_
    | exact rfl
    | with_reducible apply keeps_modPwr ?_ ?_
    | ((with_reducible apply Or.inl); exact rfl)
    | ((with_reducible apply Or.inr); simp only [Part.same, and_self, modPwr])
    | (intro _)
    | split

theorem keeps_execRailOutOfTolerance a0 a1 a2 s t (e : execRailOutOfTolerance a0 a1 a2 s = .next t) : Keeps 9007200608460850 s t := by
  unfold execRailOutOfTolerance at e
  injection e with e
  subst e
  have h := Keeps.refl 9007200608460850 s
  repeat' first
    | with_reducible assumption
    | with_reducible apply Keeps.ite ?_ ?_
    | with_reducible apply Keeps.app ?_ (keeps_railsOff ..) ?_
    | with_reducible apply Keeps.app ?_ (keeps_eventD ..) ?_
    | exact rfl
    | (intro _)
    | split

theorem keeps_execSensorUpdate a0 a1 a2 s t (e : execSensorUpdate a0 a1 a2 s = .next t) : Keeps 297241974806683698 s t := by
  unfold execSensorUpdate at e
  injection e with e
  subst e
  have h := Keeps.refl 297241974806683698 s
  repeat' first
    | with_reducible assumption
    | ((try lift_lets -underBinder); intro (x : State); refine have hx : Keeps 297241974806683698 s x := ?_; ?_; rotate_left; clear_value x; rotate_right; dsimp -zeta only [x]; clear x)
    | ((try lift_lets -underBinder); intro x; clear_value x)
    | with_reducible apply Keeps.ite ?_ ?_
    | with_reducible apply Keeps.app ?_ (keeps_railsOff ..) ?_
    | with_reducible apply Keeps.app ?_ (keeps_eventD ..) ?_
    | with_reducible apply Keeps.app ?_ (keeps_dieLimits ..) ?_
    | exact rfl
    | with_reducible apply keeps_modWmc ?_ ?_ ?_ ?_ ?_ ?_ ?_ ?_ ?_
    | ((with_reducible apply Or.inl); exact rfl)
    | ((with_reducible apply Or.inr); simp only [Part.same, and_self, modWmc])
    | (intro _)
    | split

theorem keeps_execReferenceClockLoss a0 s t (e : execReferenceClockLoss a0 s = .next t) : Keeps 9015996701483058 s t := by
  unfold execReferenceClockLoss at e
  injection e with e
  subst e
  have h := Keeps.refl 9015996701483058 s
  repeat' first
    | with_reducible assumption
    | ((try lift_lets -underBinder); intro (x : State); refine have hx : Keeps 9015996701483058 s x := ?_; ?_; rotate_left; clear_value x; rotate_right; dsimp -zeta only [x]; clear x)
    | ((try lift_lets -underBinder); intro x; clear_value x)
    | with_reducible apply Keeps.ite ?_ ?_
    | with_reducible apply Keeps.app ?_ (keeps_railsOff ..) ?_
    | with_reducible apply Keeps.app ?_ (keeps_eventD ..) ?_
    | exact rfl
    | with_reducible apply keeps_modClk ?_ ?_ ?_
    | ((with_reducible apply Or.inl); exact rfl)
    | ((with_reducible apply Or.inr); simp only [Part.same, and_self, modClk])
    | (intro _)
    | split

theorem keeps_execPllUnlock a0 s t (e : execPllUnlock a0 s = .next t) : Keeps 291230217990259 s t := by
  unfold execPllUnlock at e
  injection e with e
  subst e
  have h := Keeps.refl 291230217990259 s
  repeat' first
    | with_reducible assumption
    | ((try lift_lets -underBinder); intro (x : State); refine have hx : Keeps 291230217990259 s x := ?_; ?_; rotate_left; clear_value x; rotate_right; dsimp -zeta only [x]; clear x)
    | ((try lift_lets -underBinder); intro x; clear_value x)
    | with_reducible apply Keeps.app ?_ (keeps_eventPll ..) ?_
    | with_reducible apply Keeps.app ?_ (keeps_portDown ..) ?_
    | exact rfl
    | with_reducible apply keeps_modPci ?_ ?_ ?_ ?_ ?_ ?_
    | with_reducible apply keeps_modClk ?_ ?_ ?_
    | ((with_reducible apply Or.inl); exact rfl)
    | ((with_reducible apply Or.inr); simp only [Part.same, and_self, modClk, modPci])
    | (intro _)
    | split

theorem keeps_execPllRelock a0 s t (e : execPllRelock a0 s = .next t) : Keeps 8800387989504 s t := by
  unfold execPllRelock at e
  injection e with e
  subst e
  have h := Keeps.refl 8800387989504 s
  repeat' first
    | with_reducible assumption
    | ((try lift_lets -underBinder); intro (x : State); refine have hx : Keeps 8800387989504 s x := ?_; ?_; rotate_left; clear_value x; rotate_right; dsimp -zeta only [x]; clear x)
    | ((try lift_lets -underBinder); intro x; clear_value x)
    | with_reducible apply Keeps.ite ?_ ?_
    | with_reducible apply Keeps.app ?_ (keeps_modPort ..) ?_
    | exact rfl
    | with_reducible apply keeps_modClk ?_ ?_ ?_
    | ((with_reducible apply Or.inl); exact rfl)
    | ((with_reducible apply Or.inr); simp only [Part.same, and_self, modClk])
    | (intro _)
    | split

theorem keeps_execPowerOn a0 s t (e : execPowerOn a0 s = .next t) : Keeps 1152920405095218687 s t := by
  unfold execPowerOn at e
  injection e with e
  subst e
  have h := Keeps.refl 1152920405095218687 s
  repeat' first
    | with_reducible assumption
    | ((try lift_lets -underBinder); intro x; clear_value x)
    | with_reducible apply Keeps.ite ?_ ?_
    | with_reducible apply Keeps.app ?_ (keeps_coldState ..) ?_
    | exact rfl
    | with_reducible apply keeps_modWmc ?_ ?_ ?_ ?_ ?_ ?_ ?_ ?_ ?_
    | ((with_reducible apply Or.inl); exact rfl)
    | ((with_reducible apply Or.inr); simp only [Part.same, and_self, modWmc])
    | (intro _)
    | split

theorem keeps_execColdReset a0 s t (e : execColdReset a0 s = .next t) : Keeps 1152920405095218687 s t := by
  unfold execColdReset at e
  injection e with e
  subst e
  have h := Keeps.refl 1152920405095218687 s
  repeat' first
    | with_reducible assumption
    | with_reducible apply Keeps.ite ?_ ?_
    | with_reducible apply Keeps.app ?_ (keeps_coldReset ..) ?_
    | exact rfl
    | (intro _)
    | split

theorem keeps_execWarmReset s t (e : execWarmReset s = .next t) : Keeps 1152920405095218687 s t := by
  unfold execWarmReset at e
  injection e with e
  subst e
  have h := Keeps.refl 1152920405095218687 s
  repeat' first
    | with_reducible assumption
    | ((try lift_lets -underBinder); intro x; clear_value x)
    | with_reducible apply Keeps.app ?_ (keeps_warmReset ..) ?_
    | exact rfl
    | with_reducible apply keeps_modWmc ?_ ?_ ?_ ?_ ?_ ?_ ?_ ?_ ?_
    | ((with_reducible apply Or.inl); exact rfl)
    | ((with_reducible apply Or.inr); simp only [Part.same, and_self, modWmc])
    | (intro _)
    | split

theorem keeps_execWmcRstWarm a0 s t (e : execWmcRstWarm a0 s = .next t) : Keeps 1152920405095218687 s t := by
  unfold execWmcRstWarm at e
  injection e with e
  subst e
  have h := Keeps.refl 1152920405095218687 s
  repeat' first
    | with_reducible assumption
    | with_reducible apply Keeps.ite ?_ ?_
    | with_reducible apply Keeps.app ?_ (keeps_warmReset ..) ?_
    | exact rfl
    | (intro _)
    | split

theorem keeps_execWmcRstCold a0 s t (e : execWmcRstCold a0 s = .next t) : Keeps 1152920405095218687 s t := by
  unfold execWmcRstCold at e
  injection e with e
  subst e
  have h := Keeps.refl 1152920405095218687 s
  repeat' first
    | with_reducible assumption
    | with_reducible apply Keeps.ite ?_ ?_
    | with_reducible apply Keeps.app ?_ (keeps_coldReset ..) ?_
    | exact rfl
    | (intro _)
    | split

theorem keeps_execModRstNAssert a0 s t (e : execModRstNAssert a0 s = .next t) : Keeps 1152920405095218687 s t := by
  unfold execModRstNAssert at e
  injection e with e
  subst e
  have h := Keeps.refl 1152920405095218687 s
  repeat' first
    | with_reducible assumption
    | ((try lift_lets -underBinder); intro (x : State); refine have hx : Keeps 1152920405095218687 s x := ?_; ?_; rotate_left; clear_value x; rotate_right; dsimp -zeta only [x]; clear x)
    | ((try lift_lets -underBinder); intro x; clear_value x)
    | with_reducible apply Keeps.ite ?_ ?_
    | with_reducible apply Keeps.app ?_ (keeps_coldReset ..) ?_
    | exact rfl
    | with_reducible apply keeps_modWmc ?_ ?_ ?_ ?_ ?_ ?_ ?_ ?_ ?_
    | ((with_reducible apply Or.inl); exact rfl)
    | ((with_reducible apply Or.inr); simp only [Part.same, and_self, modWmc])
    | (intro _)
    | split

theorem keeps_execModRstNDeassert s t (e : execModRstNDeassert s = .next t) : Keeps 9007199254740992 s t := by
  unfold execModRstNDeassert at e
  injection e with e
  subst e
  have h := Keeps.refl 9007199254740992 s
  repeat' first
    | with_reducible assumption
    | ((try lift_lets -underBinder); intro x; clear_value x)
    | with_reducible apply Keeps.ite ?_ ?_
    | exact rfl
    | with_reducible apply keeps_modWmc ?_ ?_ ?_ ?_ ?_ ?_ ?_ ?_ ?_
    | ((with_reducible apply Or.inl); exact rfl)
    | ((with_reducible apply Or.inr); simp only [Part.same, and_self, modWmc])
    | (intro _)
    | split

theorem keeps_execPerstDeassertion s t (e : execPerstDeassertion s = .next t) : Keeps 9007199254740992 s t := by
  unfold execPerstDeassertion at e
  injection e with e
  subst e
  have h := Keeps.refl 9007199254740992 s
  repeat' first
    | with_reducible assumption
    | ((try lift_lets -underBinder); intro x; clear_value x)
    | with_reducible apply Keeps.ite ?_ ?_
    | exact rfl
    | with_reducible apply keeps_modWmc ?_ ?_ ?_ ?_ ?_ ?_ ?_ ?_ ?_
    | ((with_reducible apply Or.inl); exact rfl)
    | ((with_reducible apply Or.inr); simp only [Part.same, and_self, modWmc])
    | (intro _)
    | split

theorem keeps_execModuleRemoval s t (e : execModuleRemoval s = .next t) : Keeps 1152920405095218687 s t := by
  unfold execModuleRemoval at e
  injection e with e
  subst e
  have h := Keeps.refl 1152920405095218687 s
  repeat' first
    | with_reducible assumption
    | ((try lift_lets -underBinder); intro (x : State); refine have hx : Keeps 1152920405095218687 s x := ?_; ?_; rotate_left; clear_value x; rotate_right; dsimp -zeta only [x]; clear x)
    | ((try lift_lets -underBinder); intro x; clear_value x)
    | with_reducible apply Keeps.ite ?_ ?_
    | with_reducible apply Keeps.app ?_ (keeps_coldReset ..) ?_
    | exact rfl
    | with_reducible apply keeps_modWmc ?_ ?_ ?_ ?_ ?_ ?_ ?_ ?_ ?_
    | ((with_reducible apply Or.inl); exact rfl)
    | ((with_reducible apply Or.inr); simp only [Part.same, and_self, modWmc])
    | (intro _)
    | split

theorem keeps_execModuleInsertion a0 s t (e : execModuleInsertion a0 s = .next t) : Keeps 9007199254740992 s t := by
  unfold execModuleInsertion at e
  injection e with e
  subst e
  have h := Keeps.refl 9007199254740992 s
  repeat' first
    | with_reducible assumption
    | ((try lift_lets -underBinder); intro x; clear_value x)
    | with_reducible apply Keeps.ite ?_ ?_
    | exact rfl
    | with_reducible apply keeps_modWmc ?_ ?_ ?_ ?_ ?_ ?_ ?_ ?_ ?_
    | ((with_reducible apply Or.inl); exact rfl)
    | ((with_reducible apply Or.inr); simp only [Part.same, and_self, modWmc])
    | (intro _)
    | split

theorem keeps_execVinOutOfRange a0 a1 s t (e : execVinOutOfRange a0 a1 s = .next t) : Keeps 1152920405095218687 s t := by
  unfold execVinOutOfRange at e
  injection e with e
  subst e
  have h := Keeps.refl 1152920405095218687 s
  repeat' first
    | with_reducible assumption
    | ((try lift_lets -underBinder); intro (x : State); refine have hx : Keeps 1152920405095218687 s x := ?_; ?_; rotate_left; clear_value x; rotate_right; dsimp -zeta only [x]; clear x)
    | ((try lift_lets -underBinder); intro x; clear_value x)
    | with_reducible apply Keeps.ite ?_ ?_
    | with_reducible apply Keeps.app ?_ (keeps_coldReset ..) ?_
    | with_reducible apply Keeps.app ?_ (keeps_eventVin ..) ?_
    | exact rfl
    | with_reducible apply keeps_modPwr ?_ ?_
    | ((with_reducible apply Or.inl); exact rfl)
    | ((with_reducible apply Or.inr); simp only [Part.same, and_self, modPwr])
    | (intro _)
    | split

theorem keeps_execImageTrialTimeout s t (e : execImageTrialTimeout s = .next t) : Keeps 1152920405095218687 s t := by
  unfold execImageTrialTimeout at e
  injection e with e
  subst e
  have h := Keeps.refl 1152920405095218687 s
  repeat' first
    | with_reducible assumption
    | ((try lift_lets -underBinder); intro (x : State); refine have hx : Keeps 1152920405095218687 s x := ?_; ?_; rotate_left; clear_value x; rotate_right; dsimp -zeta only [x]; clear x)
    | ((try lift_lets -underBinder); intro x; clear_value x)
    | with_reducible apply Keeps.ite ?_ ?_
    | with_reducible apply Keeps.app ?_ (keeps_coldReset ..) ?_
    | with_reducible apply Keeps.app ?_ (keeps_setSlot ..) ?_
    | exact rfl
    | with_reducible apply keeps_modWmc ?_ ?_ ?_ ?_ ?_ ?_ ?_ ?_ ?_
    | ((with_reducible apply Or.inl); exact rfl)
    | ((with_reducible apply Or.inr); simp only [Part.same, and_self, modWmc])
    | (intro _)
    | split

theorem keeps_execBootStepComplete a0 s t (e : execBootStepComplete a0 s = .next t) : Keeps 279551937176854579 s t := by
  unfold execBootStepComplete at e
  injection e with e
  subst e
  have h := Keeps.refl 279551937176854579 s
  repeat' first
    | with_reducible assumption
    | ((try lift_lets -underBinder); intro x; clear_value x)
    | with_reducible apply Keeps.ite ?_ ?_
    | with_reducible apply Keeps.app ?_ (keeps_verifyStep ..) ?_
    | with_reducible apply Keeps.app ?_ (keeps_railStep ..) ?_
    | with_reducible apply Keeps.app ?_ (keeps_configStep ..) ?_
    | with_reducible apply Keeps.app ?_ (keeps_linkStep ..) ?_
    | with_reducible apply Keeps.app ?_ (keeps_t1Step ..) ?_
    | with_reducible apply Keeps.app ?_ (keeps_readyStep ..) ?_
    | with_reducible apply Keeps.app ?_ (keeps_replayStep ..) ?_
    | exact rfl
    | with_reducible apply keeps_modWmc ?_ ?_ ?_ ?_ ?_ ?_ ?_ ?_ ?_
    | ((with_reducible apply Or.inl); exact rfl)
    | ((with_reducible apply Or.inr); simp only [Part.same, and_self, modWmc])
    | (intro _)
    | split

theorem keeps_execHwRecordWrite s t (e : execHwRecordWrite s = .next t) : Keeps 36030996042219521 s t := by
  unfold execHwRecordWrite at e
  injection e with e
  subst e
  have h := Keeps.refl 36030996042219521 s
  repeat' first
    | with_reducible assumption
    | ((try lift_lets -underBinder); intro x; clear_value x)
    | with_reducible apply Keeps.ite ?_ ?_
    | with_reducible apply Keeps.app ?_ (keeps_bumpFree ..) ?_
    | exact rfl
    | with_reducible apply keeps_modWmc ?_ ?_ ?_ ?_ ?_ ?_ ?_ ?_ ?_
    | with_reducible apply keeps_modSec ?_ ?_ ?_ ?_
    | ((with_reducible apply Or.inl); exact rfl)
    | ((with_reducible apply Or.inr); simp only [Part.same, and_self, modSec, modWmc])
    | exact ⟨BitVec.and_self, fun k => k⟩
    | (intro _)
    | split

end Sys2Proof.Machine
end

