-- ==== Sys2Proof/Laws/State.lean ====
section
/-! SUPPORT. Each field of the state after the update of one block. -/

namespace Sys2Proof.Machine

section modWmc
variable (f : WmcSt → WmcSt) (s : State)
@[simp] theorem modWmc_pending : (modWmc f s).pending = s.pending := rfl
@[simp] theorem modWmc_free : (modWmc f s).free = s.free := rfl
@[simp] theorem modWmc_wmc : (modWmc f s).wmc = f s.wmc := rfl
@[simp] theorem modWmc_evt : (modWmc f s).evt = s.evt := rfl
@[simp] theorem modWmc_pci : (modWmc f s).pci = s.pci := rfl
@[simp] theorem modWmc_tcs : (modWmc f s).tcs = s.tcs := rfl
@[simp] theorem modWmc_mxa : (modWmc f s).mxa = s.mxa := rfl
@[simp] theorem modWmc_mem : (modWmc f s).mem = s.mem := rfl
@[simp] theorem modWmc_gab : (modWmc f s).gab = s.gab := rfl
@[simp] theorem modWmc_nvt : (modWmc f s).nvt = s.nvt := rfl
@[simp] theorem modWmc_exo : (modWmc f s).exo = s.exo := rfl
@[simp] theorem modWmc_col : (modWmc f s).col = s.col := rfl
@[simp] theorem modWmc_fap : (modWmc f s).fap = s.fap := rfl
@[simp] theorem modWmc_sec : (modWmc f s).sec = s.sec := rfl
@[simp] theorem modWmc_pwr : (modWmc f s).pwr = s.pwr := rfl
@[simp] theorem modWmc_clk : (modWmc f s).clk = s.clk := rfl
@[simp] theorem modWmc_cnt : (modWmc f s).cnt = s.cnt := rfl
end modWmc

section modEvt
variable (f : EventSt → EventSt) (s : State)
@[simp] theorem modEvt_pending : (modEvt f s).pending = s.pending := rfl
@[simp] theorem modEvt_free : (modEvt f s).free = s.free := rfl
@[simp] theorem modEvt_wmc : (modEvt f s).wmc = s.wmc := rfl
@[simp] theorem modEvt_evt : (modEvt f s).evt = f s.evt := rfl
@[simp] theorem modEvt_pci : (modEvt f s).pci = s.pci := rfl
@[simp] theorem modEvt_tcs : (modEvt f s).tcs = s.tcs := rfl
@[simp] theorem modEvt_mxa : (modEvt f s).mxa = s.mxa := rfl
@[simp] theorem modEvt_mem : (modEvt f s).mem = s.mem := rfl
@[simp] theorem modEvt_gab : (modEvt f s).gab = s.gab := rfl
@[simp] theorem modEvt_nvt : (modEvt f s).nvt = s.nvt := rfl
@[simp] theorem modEvt_exo : (modEvt f s).exo = s.exo := rfl
@[simp] theorem modEvt_col : (modEvt f s).col = s.col := rfl
@[simp] theorem modEvt_fap : (modEvt f s).fap = s.fap := rfl
@[simp] theorem modEvt_sec : (modEvt f s).sec = s.sec := rfl
@[simp] theorem modEvt_pwr : (modEvt f s).pwr = s.pwr := rfl
@[simp] theorem modEvt_clk : (modEvt f s).clk = s.clk := rfl
@[simp] theorem modEvt_cnt : (modEvt f s).cnt = s.cnt := rfl
end modEvt

section modPci
variable (f : PciSt → PciSt) (s : State)
@[simp] theorem modPci_pending : (modPci f s).pending = s.pending := rfl
@[simp] theorem modPci_free : (modPci f s).free = s.free := rfl
@[simp] theorem modPci_wmc : (modPci f s).wmc = s.wmc := rfl
@[simp] theorem modPci_evt : (modPci f s).evt = s.evt := rfl
@[simp] theorem modPci_pci : (modPci f s).pci = f s.pci := rfl
@[simp] theorem modPci_tcs : (modPci f s).tcs = s.tcs := rfl
@[simp] theorem modPci_mxa : (modPci f s).mxa = s.mxa := rfl
@[simp] theorem modPci_mem : (modPci f s).mem = s.mem := rfl
@[simp] theorem modPci_gab : (modPci f s).gab = s.gab := rfl
@[simp] theorem modPci_nvt : (modPci f s).nvt = s.nvt := rfl
@[simp] theorem modPci_exo : (modPci f s).exo = s.exo := rfl
@[simp] theorem modPci_col : (modPci f s).col = s.col := rfl
@[simp] theorem modPci_fap : (modPci f s).fap = s.fap := rfl
@[simp] theorem modPci_sec : (modPci f s).sec = s.sec := rfl
@[simp] theorem modPci_pwr : (modPci f s).pwr = s.pwr := rfl
@[simp] theorem modPci_clk : (modPci f s).clk = s.clk := rfl
@[simp] theorem modPci_cnt : (modPci f s).cnt = s.cnt := rfl
end modPci

section modTcs
variable (f : TcsSt → TcsSt) (s : State)
@[simp] theorem modTcs_pending : (modTcs f s).pending = s.pending := rfl
@[simp] theorem modTcs_free : (modTcs f s).free = s.free := rfl
@[simp] theorem modTcs_wmc : (modTcs f s).wmc = s.wmc := rfl
@[simp] theorem modTcs_evt : (modTcs f s).evt = s.evt := rfl
@[simp] theorem modTcs_pci : (modTcs f s).pci = s.pci := rfl
@[simp] theorem modTcs_tcs : (modTcs f s).tcs = f s.tcs := rfl
@[simp] theorem modTcs_mxa : (modTcs f s).mxa = s.mxa := rfl
@[simp] theorem modTcs_mem : (modTcs f s).mem = s.mem := rfl
@[simp] theorem modTcs_gab : (modTcs f s).gab = s.gab := rfl
@[simp] theorem modTcs_nvt : (modTcs f s).nvt = s.nvt := rfl
@[simp] theorem modTcs_exo : (modTcs f s).exo = s.exo := rfl
@[simp] theorem modTcs_col : (modTcs f s).col = s.col := rfl
@[simp] theorem modTcs_fap : (modTcs f s).fap = s.fap := rfl
@[simp] theorem modTcs_sec : (modTcs f s).sec = s.sec := rfl
@[simp] theorem modTcs_pwr : (modTcs f s).pwr = s.pwr := rfl
@[simp] theorem modTcs_clk : (modTcs f s).clk = s.clk := rfl
@[simp] theorem modTcs_cnt : (modTcs f s).cnt = s.cnt := rfl
end modTcs

section modMxa
variable (f : MxaSt → MxaSt) (s : State)
@[simp] theorem modMxa_pending : (modMxa f s).pending = s.pending := rfl
@[simp] theorem modMxa_free : (modMxa f s).free = s.free := rfl
@[simp] theorem modMxa_wmc : (modMxa f s).wmc = s.wmc := rfl
@[simp] theorem modMxa_evt : (modMxa f s).evt = s.evt := rfl
@[simp] theorem modMxa_pci : (modMxa f s).pci = s.pci := rfl
@[simp] theorem modMxa_tcs : (modMxa f s).tcs = s.tcs := rfl
@[simp] theorem modMxa_mxa : (modMxa f s).mxa = f s.mxa := rfl
@[simp] theorem modMxa_mem : (modMxa f s).mem = s.mem := rfl
@[simp] theorem modMxa_gab : (modMxa f s).gab = s.gab := rfl
@[simp] theorem modMxa_nvt : (modMxa f s).nvt = s.nvt := rfl
@[simp] theorem modMxa_exo : (modMxa f s).exo = s.exo := rfl
@[simp] theorem modMxa_col : (modMxa f s).col = s.col := rfl
@[simp] theorem modMxa_fap : (modMxa f s).fap = s.fap := rfl
@[simp] theorem modMxa_sec : (modMxa f s).sec = s.sec := rfl
@[simp] theorem modMxa_pwr : (modMxa f s).pwr = s.pwr := rfl
@[simp] theorem modMxa_clk : (modMxa f s).clk = s.clk := rfl
@[simp] theorem modMxa_cnt : (modMxa f s).cnt = s.cnt := rfl
end modMxa

section modMem
variable (f : MemSt → MemSt) (s : State)
@[simp] theorem modMem_pending : (modMem f s).pending = s.pending := rfl
@[simp] theorem modMem_free : (modMem f s).free = s.free := rfl
@[simp] theorem modMem_wmc : (modMem f s).wmc = s.wmc := rfl
@[simp] theorem modMem_evt : (modMem f s).evt = s.evt := rfl
@[simp] theorem modMem_pci : (modMem f s).pci = s.pci := rfl
@[simp] theorem modMem_tcs : (modMem f s).tcs = s.tcs := rfl
@[simp] theorem modMem_mxa : (modMem f s).mxa = s.mxa := rfl
@[simp] theorem modMem_mem : (modMem f s).mem = f s.mem := rfl
@[simp] theorem modMem_gab : (modMem f s).gab = s.gab := rfl
@[simp] theorem modMem_nvt : (modMem f s).nvt = s.nvt := rfl
@[simp] theorem modMem_exo : (modMem f s).exo = s.exo := rfl
@[simp] theorem modMem_col : (modMem f s).col = s.col := rfl
@[simp] theorem modMem_fap : (modMem f s).fap = s.fap := rfl
@[simp] theorem modMem_sec : (modMem f s).sec = s.sec := rfl
@[simp] theorem modMem_pwr : (modMem f s).pwr = s.pwr := rfl
@[simp] theorem modMem_clk : (modMem f s).clk = s.clk := rfl
@[simp] theorem modMem_cnt : (modMem f s).cnt = s.cnt := rfl
end modMem

section modGab
variable (f : GabSt → GabSt) (s : State)
@[simp] theorem modGab_pending : (modGab f s).pending = s.pending := rfl
@[simp] theorem modGab_free : (modGab f s).free = s.free := rfl
@[simp] theorem modGab_wmc : (modGab f s).wmc = s.wmc := rfl
@[simp] theorem modGab_evt : (modGab f s).evt = s.evt := rfl
@[simp] theorem modGab_pci : (modGab f s).pci = s.pci := rfl
@[simp] theorem modGab_tcs : (modGab f s).tcs = s.tcs := rfl
@[simp] theorem modGab_mxa : (modGab f s).mxa = s.mxa := rfl
@[simp] theorem modGab_mem : (modGab f s).mem = s.mem := rfl
@[simp] theorem modGab_gab : (modGab f s).gab = f s.gab := rfl
@[simp] theorem modGab_nvt : (modGab f s).nvt = s.nvt := rfl
@[simp] theorem modGab_exo : (modGab f s).exo = s.exo := rfl
@[simp] theorem modGab_col : (modGab f s).col = s.col := rfl
@[simp] theorem modGab_fap : (modGab f s).fap = s.fap := rfl
@[simp] theorem modGab_sec : (modGab f s).sec = s.sec := rfl
@[simp] theorem modGab_pwr : (modGab f s).pwr = s.pwr := rfl
@[simp] theorem modGab_clk : (modGab f s).clk = s.clk := rfl
@[simp] theorem modGab_cnt : (modGab f s).cnt = s.cnt := rfl
end modGab

section modNvt
variable (f : NvtSt → NvtSt) (s : State)
@[simp] theorem modNvt_pending : (modNvt f s).pending = s.pending := rfl
@[simp] theorem modNvt_free : (modNvt f s).free = s.free := rfl
@[simp] theorem modNvt_wmc : (modNvt f s).wmc = s.wmc := rfl
@[simp] theorem modNvt_evt : (modNvt f s).evt = s.evt := rfl
@[simp] theorem modNvt_pci : (modNvt f s).pci = s.pci := rfl
@[simp] theorem modNvt_tcs : (modNvt f s).tcs = s.tcs := rfl
@[simp] theorem modNvt_mxa : (modNvt f s).mxa = s.mxa := rfl
@[simp] theorem modNvt_mem : (modNvt f s).mem = s.mem := rfl
@[simp] theorem modNvt_gab : (modNvt f s).gab = s.gab := rfl
@[simp] theorem modNvt_nvt : (modNvt f s).nvt = f s.nvt := rfl
@[simp] theorem modNvt_exo : (modNvt f s).exo = s.exo := rfl
@[simp] theorem modNvt_col : (modNvt f s).col = s.col := rfl
@[simp] theorem modNvt_fap : (modNvt f s).fap = s.fap := rfl
@[simp] theorem modNvt_sec : (modNvt f s).sec = s.sec := rfl
@[simp] theorem modNvt_pwr : (modNvt f s).pwr = s.pwr := rfl
@[simp] theorem modNvt_clk : (modNvt f s).clk = s.clk := rfl
@[simp] theorem modNvt_cnt : (modNvt f s).cnt = s.cnt := rfl
end modNvt

section modCol
variable (f : ColSt → ColSt) (s : State)
@[simp] theorem modCol_pending : (modCol f s).pending = s.pending := rfl
@[simp] theorem modCol_free : (modCol f s).free = s.free := rfl
@[simp] theorem modCol_wmc : (modCol f s).wmc = s.wmc := rfl
@[simp] theorem modCol_evt : (modCol f s).evt = s.evt := rfl
@[simp] theorem modCol_pci : (modCol f s).pci = s.pci := rfl
@[simp] theorem modCol_tcs : (modCol f s).tcs = s.tcs := rfl
@[simp] theorem modCol_mxa : (modCol f s).mxa = s.mxa := rfl
@[simp] theorem modCol_mem : (modCol f s).mem = s.mem := rfl
@[simp] theorem modCol_gab : (modCol f s).gab = s.gab := rfl
@[simp] theorem modCol_nvt : (modCol f s).nvt = s.nvt := rfl
@[simp] theorem modCol_exo : (modCol f s).exo = s.exo := rfl
@[simp] theorem modCol_col : (modCol f s).col = f s.col := rfl
@[simp] theorem modCol_fap : (modCol f s).fap = s.fap := rfl
@[simp] theorem modCol_sec : (modCol f s).sec = s.sec := rfl
@[simp] theorem modCol_pwr : (modCol f s).pwr = s.pwr := rfl
@[simp] theorem modCol_clk : (modCol f s).clk = s.clk := rfl
@[simp] theorem modCol_cnt : (modCol f s).cnt = s.cnt := rfl
end modCol

section modFap
variable (f : FapSt → FapSt) (s : State)
@[simp] theorem modFap_pending : (modFap f s).pending = s.pending := rfl
@[simp] theorem modFap_free : (modFap f s).free = s.free := rfl
@[simp] theorem modFap_wmc : (modFap f s).wmc = s.wmc := rfl
@[simp] theorem modFap_evt : (modFap f s).evt = s.evt := rfl
@[simp] theorem modFap_pci : (modFap f s).pci = s.pci := rfl
@[simp] theorem modFap_tcs : (modFap f s).tcs = s.tcs := rfl
@[simp] theorem modFap_mxa : (modFap f s).mxa = s.mxa := rfl
@[simp] theorem modFap_mem : (modFap f s).mem = s.mem := rfl
@[simp] theorem modFap_gab : (modFap f s).gab = s.gab := rfl
@[simp] theorem modFap_nvt : (modFap f s).nvt = s.nvt := rfl
@[simp] theorem modFap_exo : (modFap f s).exo = s.exo := rfl
@[simp] theorem modFap_col : (modFap f s).col = s.col := rfl
@[simp] theorem modFap_fap : (modFap f s).fap = f s.fap := rfl
@[simp] theorem modFap_sec : (modFap f s).sec = s.sec := rfl
@[simp] theorem modFap_pwr : (modFap f s).pwr = s.pwr := rfl
@[simp] theorem modFap_clk : (modFap f s).clk = s.clk := rfl
@[simp] theorem modFap_cnt : (modFap f s).cnt = s.cnt := rfl
end modFap

section modSec
variable (f : SecSt → SecSt) (s : State)
@[simp] theorem modSec_pending : (modSec f s).pending = s.pending := rfl
@[simp] theorem modSec_free : (modSec f s).free = s.free := rfl
@[simp] theorem modSec_wmc : (modSec f s).wmc = s.wmc := rfl
@[simp] theorem modSec_evt : (modSec f s).evt = s.evt := rfl
@[simp] theorem modSec_pci : (modSec f s).pci = s.pci := rfl
@[simp] theorem modSec_tcs : (modSec f s).tcs = s.tcs := rfl
@[simp] theorem modSec_mxa : (modSec f s).mxa = s.mxa := rfl
@[simp] theorem modSec_mem : (modSec f s).mem = s.mem := rfl
@[simp] theorem modSec_gab : (modSec f s).gab = s.gab := rfl
@[simp] theorem modSec_nvt : (modSec f s).nvt = s.nvt := rfl
@[simp] theorem modSec_exo : (modSec f s).exo = s.exo := rfl
@[simp] theorem modSec_col : (modSec f s).col = s.col := rfl
@[simp] theorem modSec_fap : (modSec f s).fap = s.fap := rfl
@[simp] theorem modSec_sec : (modSec f s).sec = f s.sec := rfl
@[simp] theorem modSec_pwr : (modSec f s).pwr = s.pwr := rfl
@[simp] theorem modSec_clk : (modSec f s).clk = s.clk := rfl
@[simp] theorem modSec_cnt : (modSec f s).cnt = s.cnt := rfl
end modSec

section modPwr
variable (f : PwrSt → PwrSt) (s : State)
@[simp] theorem modPwr_pending : (modPwr f s).pending = s.pending := rfl
@[simp] theorem modPwr_free : (modPwr f s).free = s.free := rfl
@[simp] theorem modPwr_wmc : (modPwr f s).wmc = s.wmc := rfl
@[simp] theorem modPwr_evt : (modPwr f s).evt = s.evt := rfl
@[simp] theorem modPwr_pci : (modPwr f s).pci = s.pci := rfl
@[simp] theorem modPwr_tcs : (modPwr f s).tcs = s.tcs := rfl
@[simp] theorem modPwr_mxa : (modPwr f s).mxa = s.mxa := rfl
@[simp] theorem modPwr_mem : (modPwr f s).mem = s.mem := rfl
@[simp] theorem modPwr_gab : (modPwr f s).gab = s.gab := rfl
@[simp] theorem modPwr_nvt : (modPwr f s).nvt = s.nvt := rfl
@[simp] theorem modPwr_exo : (modPwr f s).exo = s.exo := rfl
@[simp] theorem modPwr_col : (modPwr f s).col = s.col := rfl
@[simp] theorem modPwr_fap : (modPwr f s).fap = s.fap := rfl
@[simp] theorem modPwr_sec : (modPwr f s).sec = s.sec := rfl
@[simp] theorem modPwr_pwr : (modPwr f s).pwr = f s.pwr := rfl
@[simp] theorem modPwr_clk : (modPwr f s).clk = s.clk := rfl
@[simp] theorem modPwr_cnt : (modPwr f s).cnt = s.cnt := rfl
end modPwr

section modClk
variable (f : ClkSt → ClkSt) (s : State)
@[simp] theorem modClk_pending : (modClk f s).pending = s.pending := rfl
@[simp] theorem modClk_free : (modClk f s).free = s.free := rfl
@[simp] theorem modClk_wmc : (modClk f s).wmc = s.wmc := rfl
@[simp] theorem modClk_evt : (modClk f s).evt = s.evt := rfl
@[simp] theorem modClk_pci : (modClk f s).pci = s.pci := rfl
@[simp] theorem modClk_tcs : (modClk f s).tcs = s.tcs := rfl
@[simp] theorem modClk_mxa : (modClk f s).mxa = s.mxa := rfl
@[simp] theorem modClk_mem : (modClk f s).mem = s.mem := rfl
@[simp] theorem modClk_gab : (modClk f s).gab = s.gab := rfl
@[simp] theorem modClk_nvt : (modClk f s).nvt = s.nvt := rfl
@[simp] theorem modClk_exo : (modClk f s).exo = s.exo := rfl
@[simp] theorem modClk_col : (modClk f s).col = s.col := rfl
@[simp] theorem modClk_fap : (modClk f s).fap = s.fap := rfl
@[simp] theorem modClk_sec : (modClk f s).sec = s.sec := rfl
@[simp] theorem modClk_pwr : (modClk f s).pwr = s.pwr := rfl
@[simp] theorem modClk_clk : (modClk f s).clk = f s.clk := rfl
@[simp] theorem modClk_cnt : (modClk f s).cnt = s.cnt := rfl
end modClk

section modCnt
variable (f : CntSt → CntSt) (s : State)
@[simp] theorem modCnt_pending : (modCnt f s).pending = s.pending := rfl
@[simp] theorem modCnt_free : (modCnt f s).free = s.free := rfl
@[simp] theorem modCnt_wmc : (modCnt f s).wmc = s.wmc := rfl
@[simp] theorem modCnt_evt : (modCnt f s).evt = s.evt := rfl
@[simp] theorem modCnt_pci : (modCnt f s).pci = s.pci := rfl
@[simp] theorem modCnt_tcs : (modCnt f s).tcs = s.tcs := rfl
@[simp] theorem modCnt_mxa : (modCnt f s).mxa = s.mxa := rfl
@[simp] theorem modCnt_mem : (modCnt f s).mem = s.mem := rfl
@[simp] theorem modCnt_gab : (modCnt f s).gab = s.gab := rfl
@[simp] theorem modCnt_nvt : (modCnt f s).nvt = s.nvt := rfl
@[simp] theorem modCnt_exo : (modCnt f s).exo = s.exo := rfl
@[simp] theorem modCnt_col : (modCnt f s).col = s.col := rfl
@[simp] theorem modCnt_fap : (modCnt f s).fap = s.fap := rfl
@[simp] theorem modCnt_sec : (modCnt f s).sec = s.sec := rfl
@[simp] theorem modCnt_pwr : (modCnt f s).pwr = s.pwr := rfl
@[simp] theorem modCnt_clk : (modCnt f s).clk = s.clk := rfl
@[simp] theorem modCnt_cnt : (modCnt f s).cnt = f s.cnt := rfl
end modCnt

end Sys2Proof.Machine
end

