-- ==== Sys2Proof/Laws/Ops.lean ====
section
/-! SUPPORT. What the shared updates of queues, keepers, arrays, ports and commands in flight do, each said once. -/

namespace Sys2Proof.Machine

/-! ### Frames -/

theorem sameBut_refl (ps : List Part) (s : State) : SameBut ps s s := fun p => .inr (by cases p <;> simp [Part.same])

theorem SameBut.trans {ps : List Part} {s t u : State} (h : SameBut ps s t) (k : SameBut ps t u) : SameBut ps s u := by
  intro p
  rcases h p with a | a
  · exact .inl a
  · rcases k p with b | b
    · exact .inl b
    · right; cases p <;> simp_all [Part.same]

theorem SameBut.mono {ps qs : List Part} {s t : State} (h : SameBut ps s t) (hs : ∀ p ∈ ps, p ∈ qs) : SameBut qs s t :=
  fun p => (h p).imp (hs p) id

/-! ### Queues and keepers -/

@[simp] theorem queue_setQueue_same (q : Nat) (v : Queue) (s : State) : (setQueue q v s).queue q = v := by
  simp [State.queue, setQueue]
theorem queue_setQueue_ne {q j : Nat} (v : Queue) (s : State) (h : j ≠ q) : (setQueue q v s).queue j = s.queue j := by
  simp [State.queue, setQueue, tabGet_put_ne _ _ _ h]
@[simp] theorem queue_modQueue_same (q : Nat) (f : Queue → Queue) (s : State) :
    (modQueue q f s).queue q = f (s.queue q) := queue_setQueue_same ..
theorem queue_modQueue_ne {q j : Nat} (f : Queue → Queue) (s : State) (h : j ≠ q) :
    (modQueue q f s).queue j = s.queue j := queue_setQueue_ne _ s h
@[simp] theorem keeper_setKeeper_same (k : Nat) (v : BitVec 32) (s : State) : (setKeeper k v s).keeper k = v := by
  simp [State.keeper, setKeeper]
theorem keeper_setKeeper_ne {k j : Nat} (v : BitVec 32) (s : State) (h : j ≠ k) :
    (setKeeper k v s).keeper j = s.keeper j := by
  simp [State.keeper, setKeeper, tabGet_put_ne _ _ _ h]
@[simp] theorem keeper_setQueue (q k : Nat) (v : Queue) (s : State) : (setQueue q v s).keeper k = s.keeper k := rfl
@[simp] theorem queue_setKeeper (q k : Nat) (v : BitVec 32) (s : State) : (setKeeper k v s).queue q = s.queue q := rfl
@[simp] theorem inflight_setKeeper (q : Nat) (pos : BitVec 32) (k : Nat) (v : BitVec 32) (s : State) :
    (setKeeper k v s).inflight q pos = s.inflight q pos := rfl
@[simp] theorem inflight_setQueue (q : Nat) (pos : BitVec 32) (k : Nat) (v : Queue) (s : State) :
    (setQueue k v s).inflight q pos = s.inflight q pos := rfl

theorem sameBut_setQueue (q : Nat) (v : Queue) (s : State) : SameBut [.queues] s (setQueue q v s) := by
  intro p; cases p <;> simp [Part.same, setQueue]
theorem sameBut_modQueue (q : Nat) (f : Queue → Queue) (s : State) : SameBut [.queues] s (modQueue q f s) :=
  sameBut_setQueue q _ s
theorem sameBut_setKeeper (k : Nat) (v : BitVec 32) (s : State) : SameBut [.keepers] s (setKeeper k v s) := by
  intro p; cases p <;> simp [Part.same, setKeeper]

/-! ### Commands in flight -/

/-- Updates that keep a command's queue and index find it where it was. -/
theorem find_map_flight (q : Nat) (pos : BitVec 32) (g : Inflight → Inflight)
    (hg : ∀ f, (g f).q = f.q ∧ (g f).pos = f.pos) (j : Nat) (i : BitVec 32) : ∀ l : List Inflight,
    (l.map (fun f => if f.q = q ∧ f.pos = pos then g f else f)).find? (fun f => f.q == j && f.pos == i) =
      (l.find? (fun f => f.q == j && f.pos == i)).map (fun f => if f.q = q ∧ f.pos = pos then g f else f)
  | [] => rfl
  | f :: l => by
    have e : ((if f.q = q ∧ f.pos = pos then g f else f).q == j && (if f.q = q ∧ f.pos = pos then g f else f).pos == i) =
        (f.q == j && f.pos == i) := by
      split
      · rw [(hg f).1, (hg f).2]
      · rfl
    simp only [List.map_cons, List.find?_cons, e]
    split
    · rfl
    · exact find_map_flight q pos g hg j i l

theorem inflight_pos {s : State} {q : Nat} {pos : BitVec 32} {f : Inflight} (h : s.inflight q pos = some f) :
    f.q = q ∧ f.pos = pos := by
  have := List.find?_some h
  simpa using this

theorem inflight_modInflight_same {q : Nat} {pos : BitVec 32} {g : Inflight → Inflight}
    (hg : ∀ f, (g f).q = f.q ∧ (g f).pos = f.pos) (s : State) :
    (modInflight q pos g s).inflight q pos = (s.inflight q pos).map g := by
  have := find_map_flight q pos g hg q pos s.tcs.inflight
  have e : (modInflight q pos g s).inflight q pos = _ := this
  rw [e]
  cases h : s.inflight q pos with
  | none =>
    have h' : List.find? (fun f => f.q == q && f.pos == pos) s.tcs.inflight = none := h
    rw [h']; rfl
  | some f =>
    have hp := inflight_pos h
    have h' : List.find? (fun f => f.q == q && f.pos == pos) s.tcs.inflight = some f := h
    simp [h', hp.1, hp.2]

theorem inflight_modInflight_ne {q : Nat} {pos : BitVec 32} {g : Inflight → Inflight}
    (hg : ∀ f, (g f).q = f.q ∧ (g f).pos = f.pos) (s : State) : OtherFlights q pos s (modInflight q pos g s) := by
  intro j i hne
  have := find_map_flight q pos g hg j i s.tcs.inflight
  have e : (modInflight q pos g s).inflight j i = _ := this
  rw [e]
  cases h : s.inflight j i with
  | none =>
    have h' : List.find? (fun f => f.q == j && f.pos == i) s.tcs.inflight = none := h
    rw [h']; rfl
  | some f =>
    have hp := inflight_pos h
    have h' : List.find? (fun f => f.q == j && f.pos == i) s.tcs.inflight = some f := h
    rw [h']
    simp only [Option.map_some, hp.1, hp.2, if_neg hne]

theorem sameBut_modInflight (q : Nat) (pos : BitVec 32) (g : Inflight → Inflight) (s : State) :
    SameBut [.inflight] s (modInflight q pos g s) := by
  intro p; cases p <;> simp [Part.same, modInflight]

/-- A command that is in flight has completed after markDone. -/
theorem completed_markDone {q : Nat} {pos : BitVec 32} {s : State} (h : (s.inflight q pos).isSome) :
    Completed q pos (markDone q pos s) := by
  obtain ⟨f, hf⟩ := Option.isSome_iff_exists.mp h
  have e := inflight_modInflight_same (q := q) (pos := pos) (g := fun f => { f with started := true, done := true })
    (fun _ => ⟨rfl, rfl⟩) s
  rw [hf] at e
  exact ⟨_, e, rfl, rfl⟩
theorem otherFlights_markDone (q : Nat) (pos : BitVec 32) (s : State) : OtherFlights q pos s (markDone q pos s) :=
  inflight_modInflight_ne (g := fun f => { f with started := true, done := true }) (fun _ => ⟨rfl, rfl⟩) s
theorem otherFlights_markStarted (q : Nat) (pos : BitVec 32) (s : State) : OtherFlights q pos s (markStarted q pos s) :=
  inflight_modInflight_ne (fun f => by split <;> exact ⟨rfl, rfl⟩) s
theorem inflight_markStarted {q : Nat} {pos : BitVec 32} {f : Inflight} {s : State} (h : s.inflight q pos = some f) :
    (markStarted q pos s).inflight q pos =
      some (if f.started then f else { f with started := true, since := s.now }) := by
  rw [markStarted, inflight_modInflight_same (fun f => by split <;> exact ⟨rfl, rfl⟩), h]; rfl
theorem OtherFlights.trans {q : Nat} {pos : BitVec 32} {s t u : State} (h : OtherFlights q pos s t)
    (k : OtherFlights q pos t u) : OtherFlights q pos s u := fun j i hn => (k j i hn).trans (h j i hn)

/-! ### Arrays -/

@[simp] theorem arr_modArr_same (l : Nat) (f : ArrayL → ArrayL) (s : State) : (modArr l f s).arr l = f (s.arr l) := by
  simp [State.arr, modArr]
theorem arr_modArr_ne {l j : Nat} (f : ArrayL → ArrayL) (s : State) (h : j ≠ l) : (modArr l f s).arr j = s.arr j := by
  simp [State.arr, modArr, tabGet_put_ne _ _ _ h]

/-! ### A command's turn at its engine -/

theorem gate_go {s : State} {kind : CmdWord → Bool} {q : Nat} {pos : BitVec 32}
    {reads : Inflight → State → List (Nat × Nat)} {f : Inflight} (h : s.gate kind q pos reads = .go f) :
    s.inflight q pos = some f ∧ kind f.word = true ∧ s.mayStart f (reads f s) = true ∧
      s.isLate f (reads f s) = false := by
  unfold State.gate at h
  split at h
  · cases h
  · next g hg =>
    split at h
    · cases h
    · next c =>
      split at h
      · cases h
      · next d =>
        cases h
        simp only [Bool.or_eq_true, Bool.not_eq_true', not_or, Bool.not_eq_false] at c
        exact ⟨hg, c.1, c.2, by simpa using d⟩

/-- A command whose turn has come runs its body between its start and its completion. -/
theorem runNow_go {s : State} {kind : CmdWord → Bool} {q : Nat} {pos : BitVec 32}
    {reads : Inflight → State → List (Nat × Nat)} {body : Inflight → State → State} {f : Inflight}
    (h : s.gate kind q pos reads = .go f) :
    runNow kind q pos reads body s = markDone q pos (body f (startCmd f s)) := by
  unfold runNow; rw [h]
theorem runLong_go {s : State} {kind : CmdWord → Bool} {q : Nat} {pos : BitVec 32}
    {reads : Inflight → State → List (Nat × Nat)} {body : Inflight → State → State} {f : Inflight}
    (h : s.gate kind q pos reads = .go f) :
    runLong kind q pos reads body s = body f (startCmd f s) := by
  unfold runLong; rw [h]

end Sys2Proof.Machine
end

