-- ==== Sys2Proof/WellFormed.lean ====
section
/-! DEFINITION. Well-formed commands: the bounds that the spec puts on what the outside may send and that an operand's
type does not already hold. exec is total and gives every command an effect, well-formed or not. -/

namespace Sys2Proof

/-- Bytes a read error returns lie within one 64-byte line (R229). -/
def ReadError.wellFormed : ReadError → Bool
  | .t0Uncorrectable _ _ _ d => decide (d.length ≤ 64)
  | .t1Uncorrectable _ _ _ _ _ d => decide (d.length ≤ 64)
  | .flashUncorrectable _ _ _ _ _ d => decide (d.length ≤ 4096)
  | _ => true

/-- Every error of a step's reads. -/
def errsWellFormed (l : List ReadError) : Bool := l.all ReadError.wellFormed

/-- A stream control flit names a hop of its route (R303). -/
def StreamCtl.wellFormed (c : StreamCtl) : Bool := decide (c.hop ≤ c.route.length)

/-- A chunk holds at most 64,000 bytes, of a rank below 16,384 (R304, R311). -/
def Chunk.wellFormed (c : Chunk) : Bool := decide (c.data.length ≤ 64000) && decide (c.rank < 16384)

/-- A training reports every one of a port's 18 wavelengths (R278). -/
def TrainObs.wellFormed (o : TrainObs) : Bool :=
  o.failed.isSome || (o.txEnob64.length == 18 && o.txEnob32.length == 18 && o.rxModes.length == 18 && o.rxEnob.length == 18)

/-- A measurement covers a port's 18 wavelengths (R265, R280). -/
def Measure.wellFormed (m : Measure) : Bool :=
  m.rxEnob.length == 18 && m.monL.length == 18 && m.monC.length == 18 && m.monM.length == 18 && m.monR.length == 18

/-- An agreement message is of one of the four rounds, with a group body for a group and a rack body for the rack (R327). -/
def CinchMsg.wellFormed (m : CinchMsg) : Bool :=
  decide (m.round < 4) &&
  (match m.item, m.body with
    | .rack, .reportGroup .. => false
    | .rack, .proposalGroup _ => false
    | .group .., .reportRack .. => false
    | .group .., .proposalRack _ => false
    | _, _ => true)

/-- Whether a message has the body of its kind. -/
def CinchMsg.isCall (m : CinchMsg) : Bool :=
  match m.body with
  | .call _ => true
  | _ => false

/-- What the reads of a command's step meet; a command without such reads has none (R41, R228, R229, R239). -/
def Instr.readErrors : Instr → List ReadError
  | .commandDispatch _ e | .mxMul _ _ e | .mxMac _ _ e | .mxSacc _ _ e | .mxLacc _ _ e | .vxAdd _ _ e | .vxSub _ _ e
  | .vxMul _ _ e | .vxFma _ _ e | .vxMax _ _ e | .vxMin _ _ e | .vxAbs _ _ e | .vxNeg _ _ e | .vxMov _ _ e
  | .vxSel _ _ e | .vxCeq _ _ e | .vxClt _ _ e | .vxCle _ _ e | .vxCgt _ _ e | .vxCge _ _ e | .vxCun _ _ e
  | .vxCvt _ _ e | .vxExp _ _ e | .vxLog _ _ e | .vxRcp _ _ e | .vxRsqrt _ _ e | .vxTanh _ _ e | .vxRsum _ _ e
  | .vxRsumsq _ _ e | .vxRmax _ _ e | .vxRmin _ _ e | .vxRmv _ _ e | .vxPerm _ _ e | .vxCompress _ _ e
  | .vxExpand _ _ e | .vxLd _ _ e | .vxSt _ _ e | .vxStf _ _ e | .txMove _ _ e | .txFetch _ _ e | .txSpill _ _ e
  | .txCkpt _ _ e | .txRestore _ _ e | .txGbind _ _ e | .txGflush _ _ e | .gflushWaitTimeout _ _ e
  | .gabContributionAdd _ _ _ e | .envelopeReady _ _ e | .admissionEvaluate _ e | .coAred _ _ e | .coRscat _ _ e
  | .coAgath _ _ e | .coBcast _ _ e | .coA2a _ _ e | .coA2av _ _ e | .coGbind _ _ e | .collectiveSeqStart _ _ e
  | .collectiveComplete _ _ e | .feedRequest _ e | .arrayRetire _ e | .demandMigration _ _ _ _ _ e | .patrolScrub e
  | .retentionScan _ _ e | .hostBar2Access _ _ _ e | .dmaDescriptorStart _ _ _ _ e | .dmaDescriptorComplete _ e
  | .flashProgramComplete e => e
  | _ => []

/-- The bounds of a command's other operands; the commands that are not listed are bounded by their operands' types. -/
def Instr.bounds : Instr → Bool
  | .hostBar2Access _ offset acc _ =>
    decide (offset < 2 ^ 40) &&
    (match acc with
      | .read len => decide (0 < len)
      | .write d => ! d.isEmpty
      | .poisoned _ => true)
  | .streamOpen _ c => c.wellFormed
  | .streamAck _ c => c.wellFormed
  | .streamClose _ c => c.wellFormed
  | .streamRefuse _ c => c.wellFormed
  | .chunkReceive c => c.wellFormed
  | .portColdTrain _ o => o.wellFormed
  | .exoRetrain _ o => o.wellFormed
  | .lcfReceive _ _ o => (o.map TrainObs.wellFormed).getD true
  | .txSlot _ m => (m.map Measure.wellFormed).getD true
  | .exoStepUp _ a b => a.length == 18 && b.length == 18
  | .biasCheck _ bias => bias.length == 18
  | .cinchCall m => m.wellFormed && m.isCall
  | .cinchReport m => m.wellFormed && ! m.isCall
  | .cinchPropose m => m.wellFormed && ! m.isCall
  | .cinchAccept m => m.wellFormed && ! m.isCall
  | .cinchDecide m => m.wellFormed && ! m.isCall
  | .thermalLoopSample rows _ => rows.length == 8
  | .dmaDescriptorStart _ desc data moved _ =>
    decide (moved ≤ (desc.extractLsb' 128 32).toNat) && data.length == (desc.extractLsb' 128 32).toNat
  | .noRegisterAccess _ offset => decide (offset.toNat % 8 = 0)
  | .misalignedRegisterAccess _ offset => decide (offset.toNat % 8 ≠ 0)
  | .stageData _ _ data => ! data.isEmpty
  | .firmwareDataTransfer _ _ data => ! data.isEmpty
  | _ => true

/-- Well-formedness of a command. -/
def Instr.wellFormed (i : Instr) : Bool := errsWellFormed i.readErrors && i.bounds

end Sys2Proof
end

