-- ==== Sys2Proof/Tests/Slice0.lean ====
section
/-! SUPPORT. Tests: the WellFormed smoke test, small tests from the spec's own numbers, and for every obligation with
hypotheses a theorem wit_<Name> that shows states and operands meeting them, clause by clause. -/

open Sys2Proof Sys2Proof.Machine

/- One theorem at a time, so that the file needs few threads. -/
set_option Elab.async false

namespace Sys2Proof.Tests

/-! ### Small states -/

/-- A command word from (lowest bit, value) pairs. -/
def word (fs : List (Nat × Nat)) : CmdWord := BitVec.ofNat 256 ((fs.map (fun f => f.2 * 2 ^ f.1)).sum)

/-- A module that has booted with the factory partition P0, 20 s after power-on. -/
def up : State := { State.reset with
  wmc := { WmcSt.reset with
    step := 8, resetType := 1, stage1On := true, railsOn := true, perstLow := false, active := {},
    running := some Image.shipped }
  pci := { PciSt.reset with abi := [(0, { activeMajor := 1, hostMajor := 1 })] }
  clk := { ClkSt.reset with time := 20000000000, refOk := true } }

/-- A region of one 2 MiB page of P0, floor T1. -/
def reg : Region where
  base := 0x200000
  len := 0x200000
  floor := .t1
  pin := none
  single := false
  park := false
  runahead := false
  twoVer := false
  pins := []

/-- The module with that region. -/
def mapped : State := modMem (fun m => { m with regions := [(0, [reg])] }) up

/-- A command copied from queue q at ring index 0, not started. -/
def flightAt (q : Nat) (fs : List (Nat × Nat)) : Inflight where
  q := q
  pos := 0
  word := word fs
  env := none
  seed := 0
  step := 0
  update := false
  started := false
  done := false
  late := false
  since := 0
  admitted := false
  ord := 0

/-- A command copied from queue 0. -/
def flight (fs : List (Nat × Nat)) : Inflight := flightAt 0 fs

/-- A state with the commands given in flight. -/
def fly (fs : List Inflight) (s : State) : State := modTcs (fun t => { t with inflight := fs }) s

/-- Queue 0 enabled, its ring of 64 slots at the region's base, with head, tail and the envelope it is inside. -/
def ring (head tail : Nat) (env : Option Nat) (s : State) : State :=
  setQueue 0 { base := 0x200000#52, enable := true, state := 1, head := BitVec.ofNat 32 head, tail := BitVec.ofNat 32 tail,
               env := env } s

/-- The bytes of commands from the region's base on. -/
def ringBytes (ws : List CmdWord) (s : State) : State :=
  memWrite (planAcc 0) 0x200000 ((ws.map (fun w => le 32 w.toNat)).flatten) s

/-- An envelope of P0 opened by queue 0 at ring index 0. -/
def envl (status : EnvStatus) (deadline : Nat) : Envelope :=
  { openEnvelope (flight [(0, 0x61), (48, 5), (64, 1), (96, deadline)]) 0 with status := status }

/-- A state with envelopes. -/
def withEnvs (es : List Envelope) (s : State) : State := modTcs (fun t => { t with envs := es, nextUid := 9 }) s

/-! ### Witnesses: steps, memory, events -/

theorem wit_StepRunsFrontCommand :
    ({ up with pending := [.nop 0 0, .clkRefEdge] } : State).pending = .nop 0 0 :: [.clkRefEdge] ∧
    State.reset.pending = [] := by decide +kernel

/-- Whether a step or command answers a next state. -/
def answers : Host.Outcome State Fault Refusal → Bool
  | .next _ => true
  | _ => false

theorem wit_StepsKeepMemoryCanonical :
    MemoryOk (ringBytes [word [(0, 0x61)]] mapped) ∧
    answers (step { ringBytes [word [(0, 0x61)]] mapped with pending := [.clkRefEdge] }) = true := by
  refine ⟨?_, by decide +kernel⟩
  unfold MemoryOk
  decide +kernel

theorem wit_StepsNeverUnblowAFuse : ∃ t, step State.reset = .next t := ⟨_, rfl⟩

theorem wit_CommandsKeepTheirFrame : ∃ t, exec (.keeperSetHost 0 65535 7) up = .next t := ⟨_, rfl⟩

theorem wit_TimeMovesOnlyAtReferenceEdges : up.clk.refOk = true ∧ ∃ t, exec .clkRefEdge up = .next t :=
  ⟨by decide +kernel, _, rfl⟩

theorem wit_WrittenBytesReadBack :
    (mapped.regionAt (planAcc 0).part 0x3FFFFF).isSome ∧ (mapped.regionAt (planAcc 0).part 0x200000).isSome ∧
    mapped.migrating 0 (mapped.writeSlot (planAcc 0) 0x3FFFFF) (0x3FFFFF / 65536) = false ∧ (planAcc 0).part < 8 ∧
    0x3FFFFF < 2 ^ 52 ∧ mapped.readSlot (planAcc 0) 0x3FFFFF = mapped.writeSlot (planAcc 0) 0x3FFFFF ∧
    ¬ ((planAcc 0).part = (planAcc 0).part ∧ 0x400000 = 0x3FFFFF) := by decide +kernel

theorem wit_UnmappedAccesses :
    mapped.regionAt (planAcc 0).part 0x400000 = none ∧ mapped.unmappedIn (planAcc 0).part 0x3FFFFF 2 = some 0x400000 := by
  decide +kernel

theorem wit_ResponseRingFull :
    let s := modTcs (fun t => { t with resp := [(0, { wp := 63 })] }) up
    ((s.respRing 0).wp + 1) % ringSize (s.respRing 0).sizeCode = (s.respRing 0).rp ∧
    ((up.respRing 0).wp + 1) % ringSize (up.respRing 0).sizeCode ≠ (up.respRing 0).rp := by decide +kernel

/-! ### Witnesses: queues, keepers, envelopes -/

theorem wit_DoorbellsMoveTheTail :
    let s := ring 0 1 none up
    ((64#32 - (s.queue 0).head).toNat ≤ ringSize (s.queue 0).sizeCode ∧ (64#32 - (s.queue 0).tail).toNat < 2 ^ 31) ∧
    ringSize (s.queue 0).sizeCode < (65#32 - (s.queue 0).head).toNat ∧
    2 ^ 31 ≤ (0#32 - (s.queue 0).tail).toNat := by decide +kernel

theorem wit_QueuesStartStopResumeAbort :
    ((up.queue 0).enable = false ∧ up.isReady = true ∧ (up.abi (up.ownerFn (partOfQ 0))).activeMajor ≠ 0 ∧
      up.evt.halted.getLsbD (partOfQ 0) = false) ∧
    ((modQueue 0 (fun k => { k with enable := true, state := 3 }) up).queue 0).state = 3 := by decide +kernel

theorem wit_EnablesAreRefused :
    let s1 := modWmc (fun w => { w with step := 7 }) up
    let s2 := modPci (fun p => { p with abi := [] }) up
    let s3 := modEvt (fun e => { e with halted := 1#8 }) up
    ((s1.queue 0).enable = false ∧ s1.isReady = false) ∧
    ((s2.queue 0).enable = false ∧ s2.isReady = true ∧ (s2.abi (s2.ownerFn (partOfQ 0))).activeMajor = 0) ∧
    ((s3.queue 0).enable = false ∧ s3.isReady = true ∧ (s3.abi (s3.ownerFn (partOfQ 0))).activeMajor ≠ 0 ∧
      s3.evt.halted.getLsbD (partOfQ 0) = true) ∧ ∃ t, exec (.queueEnable 0 0) s1 = .next t :=
  ⟨by decide +kernel, by decide +kernel, by decide +kernel, _, rfl⟩

theorem wit_DispatchAndCompletion :
    let s := ring 0 1 none mapped
    let so := ringBytes [word [(0, 0x61)]] s
    let f := flight [(0, 0), (9, 1), (16, 65535)]
    let g := flight [(0, 0)]
    (∀ y ∈ [s, so], mayDispatch y 0 ((keepStored (ringReader 0 0) [] y).slot 0 (y.queue 0).head) = true ∧
      y.inflight 0 (y.queue 0).head = none ∧ (y.queue 0).head = 0 ∧
      y.blocked (readsOf (ringReader 0 0) [((y.queue 0).slotDva (y.queue 0).head, 32)]) = false) ∧
    opcodeOf (so.slot 0 (so.queue 0).head) = 0x61 ∧
    ((fly [{ f with done := true }] s).inflight 0 0 = some { f with done := true } ∧ fld f.word 9 1 = 1 ∧
      (fly [{ f with done := true }] s).keeperOf (partOfQ 0) (fld f.word 16 16) = some 65535) ∧
    ((fly [{ g with done := true }] s).inflight 0 0 = some { g with done := true } ∧ fld g.word 9 1 = 0 ∧
      fld g.word 10 1 = 0) ∧
    (fly [g] s).gate (isOp 0) 0 0 noReads = .go g ∧
    (∀ op ∈ [0x01, 0x0F, 0x44, 0x4F, 0x66, 0xFF], (fly [flight [(0, op)]] s).gate
      (fun w => rejectedOp (opcodeOf w)) 0 0 noReads = .go (flight [(0, op)])) := by decide +kernel

theorem wit_KeeperCommands :
    (∀ op ∈ [0x41, 0x42, 0x43],
      let f := flight [(0, op), (48, 65535), (64, 7), (96, 9), (128, 0x200000)]
      (fly [f] mapped).keeperOf (partOfQ 0) (fld f.word 48 16) = some 65535 ∧
      (fly [f] mapped).gate (isOp op) 0 0 noReads = .go f ∧ fld f.word 128 52 ≠ 0 ∧
      (fly [f] mapped).blocked (writesOf (coreAcc f) [(fld f.word 128 52, 4)]) = false) ∧
    (let f := flight [(0, 0x43), (48, 1)]
     (fly [f] up).gate (isOp 0x43) 0 0 noReads = .go f ∧ fld f.word 128 52 = 0) ∧
    (∀ op ∈ [0x41, 0x42, 0x43], let f := flightAt 32 [(0, op), (48, 0)]
      (fly [f] up).keeperOf (partOfQ 32) (fld f.word 48 16) = none ∧ (fly [f] up).inflight 32 0 = some f ∧
      (fly [f] up).gate (isOp op) 32 0 noReads = .go f) := by decide +kernel

theorem wit_KeeperWaits :
    let f := flight [(0, 0x40), (48, 3), (64, 1), (96, 1)]
    let g := { f with started := true }
    let s := fly [f] up
    let u := setKeeper 3 1 s
    let v := setKeeper 3 1 (fly [g] up)
    (s.inflight 0 0 = some f ∧ opcodeOf f.word = 0x40 ∧ f.done = false ∧ s.inOrder f = true ∧ s.isLate f [] = false ∧
      waitIsExternal s f = false ∧ s.keeperOf (partOfQ 0) (fld f.word 48 16) = some 3 ∧ f.started = false ∧
      waitHolds (fld f.word 96 2) (s.keeper 3) (f.word.extractLsb' 64 32) = false) ∧
    (u.inflight 0 0 = some f ∧ waitIsExternal u f = false ∧ u.inOrder f = true ∧ u.isLate f [] = false ∧
      u.keeperOf (partOfQ 0) (fld f.word 48 16) = some 3 ∧
      waitHolds (fld f.word 96 2) (u.keeper 3) (f.word.extractLsb' 64 32) = true) ∧
    (v.inflight 0 0 = some g ∧ waitIsExternal v g = false ∧ v.isLate g [] = false ∧ g.started = true ∧ g.done = false ∧
      v.keeperOf (partOfQ 0) (fld g.word 48 16) = some 3 ∧
      waitHolds (fld g.word 96 2) (v.keeper 3) (g.word.extractLsb' 64 32) = true) := by decide +kernel

theorem wit_HostKeeperWrites :
    (if (0 : Func).val = 0 then some (65535#16).toNat else up.keeperOf ((0 : Func).val - 1) (65535#16).toNat) = some 65535 ∧
    (if (1 : Func).val = 0 then some (65535#16).toNat else up.keeperOf ((1 : Func).val - 1) (65535#16).toNat) = some 65535 ∧
    ((2 : Func).val ≠ 0 ∧ up.keeperOf ((2 : Func).val - 1) (0#16).toNat = none) := by decide +kernel

theorem wit_PhaseMarksAndDrains :
    let f := flight [(0, 0x60), (48, 65535)]
    let d := flight [(0, 0x65)]
    let g := { flight [(0, 0x10)] with pos := 5 }
    (fly [f] up).gate (isOp 0x60) 0 0 noReads = .go f ∧
    ((fly [d] up).inflight 0 0 = some d ∧ opcodeOf d.word = 0x65 ∧ d.done = false ∧ (fly [d] up).inOrder d = true ∧
      (fly [d] up).isLate d [] = false ∧ drained (fly [d] up) d = true) ∧
    ((fly [g, d] up).inflight 0 0 = some d ∧ (fly [g, d] up).inOrder d = true ∧ (fly [g, d] up).isLate d [] = false ∧
      drained (fly [g, d] up) d = false) := by decide +kernel

theorem wit_EnvelopeMarkers :
    let o := flight [(0, 0x61), (48, 5)]
    let j := flightAt 1 [(0, 0x62), (48, 5)]
    let c := flight [(0, 0x63), (48, 5)]
    let e (st : EnvStatus) : Envelope := { envl st 1000 with members := 3 }
    ((fly [o] up).inflight 0 0 = some o ∧ o.started = false ∧ (fly [o] up).inOrder o = true ∧ opcodeOf o.word = 0x61) ∧
    ((fly [j] up).inflight 1 0 = some j ∧ (fly [j] up).inOrder j = true ∧ opcodeOf j.word = 0x62 ∧
      joinTarget (fly [j] up) j = none) ∧
    (∀ st ∈ [EnvStatus.opening, .queued, .admitted, .unguaranteed, .skipping],
      let s := withEnvs [e st] (fly [j] up)
      s.inflight 1 0 = some j ∧ s.inOrder j = true ∧ joinTarget s j = some (e st) ∧ s.env 0 = some (e st) ∧
      (s.queue 1).head = 0) ∧
    (let s := ring 0 2 (some 0) (withEnvs [envl .admitted 1000] (fly [c] up))
     s.inflight 0 0 = some c ∧ c.started = false ∧ s.inOrder c = true ∧ opcodeOf c.word = 0x63 ∧
      (s.queue 0).env = some 0 ∧
      s.env 0 = some (envl .admitted 1000) ∧ (envl .admitted 1000).envId = c.word.extractLsb' 48 16) ∧
    (((((fly [c] up).queue 0).env).bind (fly [c] up).env).filter
      (fun e => e.envId == c.word.extractLsb' 48 16) = none) := by decide +kernel

/-- A ring with an env.open at 0, a nop at 1 and its env.close at 2. -/
def envRing : State :=
  ring 0 3 none (ringBytes [word [(0, 0x61), (48, 5), (64, 1)], word [], word [(0, 0x63), (48, 5)]] mapped)

theorem wit_AdmissionAnswers :
    let s := withEnvs [envl .opening 1000] envRing
    let q (d : Nat) : Envelope := { envl .queued d with tA := 20000000000 }
    let t (d : Nat) : State := modTcs (fun t => { t with admQueue := [(0, [0])] }) (withEnvs [q d] envRing)
    let err := ReadError.t0Uncorrectable 3 0x200000 0 [0x61]
    (s.env 0 = some (envl .opening 1000) ∧ (envl .opening 1000).part = 0 ∧ envReady s (envl .opening 1000) = true ∧
      envReady (keepStored (planAcc 0) [err] s) (envl .opening 1000) = true) ∧
    (tabGet [] (t 1000).tcs.admQueue 0 = [0] ∧ (t 1000).env 0 = some (q 1000) ∧ (q 1000).part = 0 ∧
      (t 1000).wmc.held.contains 0 = false ∧ (evaluate (t 1000) (q 1000)).reason = 0) ∧
    (tabGet [] (t 1).tcs.admQueue 0 = [0] ∧ (t 1).env 0 = some (q 1) ∧ (t 1).wmc.held.contains 0 = false ∧
      (evaluate (t 1) (q 1)).reason = 1 ∧ (q 1).onRefuse = 0) := by decide +kernel

theorem wit_ProjectionAndCompletion :
    let e : Envelope := { envl .admitted 1000 with tA := 20000000000, bound := 1000, parts := [{ q := 0, first := 0, close := some 2 }] }
    let k := { flight [(0, 0x40), (48, 3), (64, 1), (96, 1)] with env := some 0, started := true, pos := 1 }
    let z := { flight [(0, 0x12)] with env := some 0, pos := 1 }
    let s1 := withEnvs [e] (fly [k] up)
    let s2 := modMxa (fun m => { m with hw := { m.hw with offline := [0] } }) (withEnvs [e] (fly [z] up))
    let s3 := withEnvs [{ e with bound := 0 }] up
    let s4 := withEnvs [e] up
    let s5 := withEnvs [{ e with dead := true, bound := 0 }] up
    (s1.env 0 = some e ∧ e.part = 0 ∧ e.status = .admitted ∧ e.dead = false ∧ interfered s1 e = true ∧
      drawSum s1 e [.retrain 5, .switchIn] = 5) ∧
    (s2.env 0 = some e ∧ interfered s2 e = false ∧ projection s2 e 0 = none ∧ e.bound ≠ 0xFFFFFFFF) ∧
    (interfered s3 { e with bound := 0 } = false ∧ projection s3 { e with bound := 0 } 0 = some 20000002000) ∧
    (interfered s4 e = false ∧ projection s4 e 0 = some 20000002000) ∧
    (s5.env 0 = some { e with dead := true, bound := 0 } ∧
      projection s5 { e with dead := true, bound := 0 } 0 = some 20000002000) ∧
    (((e.tA + 0 * 1000 : Nat) : Rat) < 20000002000) ∧ ¬ ((e.tA + 1000 * 1000 : Nat) : Rat) < 20000002000 ∧
    (s4.env 0 = some e ∧ e.part = 0 ∧ envDone s4 e = true) := by decide +kernel

/-- A GAB entry of 300 rows and 2 columns: two bands. -/
def entry : GabEntry where
  param := 7
  ms := false
  rows := 300
  cols := 2
  group := 0
  wBase := 0x200000
  wLen := 0x10000
  msBase := 0
  wDesc := none
  unit0 := 0
  units := 1
  version := 0
  bands := []
  elems := []
  grad := {}
  wgt := []
  upd := []

/-- The mapped module with that entry bound in P0. -/
def bound : State := modGab (fun g => { g with maps := [(0, [entry])] }) mapped

theorem wit_EpochFences :
    let f := flight [(0, 0x64)]
    let g := { f with started := true }
    let ld := { flight [(0, 0x38)] with pos := 9, started := true }
    (fly [f] up).gate (isOp 0x64) 0 0 noReads = .go f ∧
    ((fly [g] up).running (isOp 0x64) 0 0 = some g ∧ fenceClear (fly [g] up) 0 = true) ∧
    ((fly [g, ld] bound).running (isOp 0x64) 0 0 = some g ∧ fenceClear (fly [g, ld] bound) 0 = false) ∧
    (∀ e ∈ tabGet [] bound.gab.maps 0, e.wLen ≠ 0 → e.version ≤ (0#32).toNat) ∧
    (let s := modGab (fun g => { g with maps := [(0, [{ entry with version := 2 }])] }) mapped
     ∀ e ∈ tabGet [] s.gab.maps 0, e.wLen ≠ 0 ∧ (1#32).toNat < e.version) := by decide +kernel

/-! ### Witnesses: arrays and vector units -/

/-- The bytes of a tensor descriptor: base, format, rows, columns, row stride. -/
def descBytes (base fmt rows cols stride : Nat) : List Byte :=
  le 64 (base + fmt * 2 ^ 52 + rows * 2 ^ 64 + cols * 2 ^ 96 + stride * 2 ^ 128)

/-- P0 with a table of two descriptors: a 4 × 4 BF16 tensor and a 300 × 300 FP32 tensor; array 0 at full current. -/
def tensors : State :=
  modArr 0 (fun a => { a with level := .full })
    (memWrite (planAcc 0) 0x200000 (descBytes 0x210000 7 4 4 8 ++ descBytes 0x220000 9 300 300 1200)
      (modWmc (fun w => { w with active := { parts := [(0, { descCount := 2, descBase := 0x200000 })] } }) mapped))

/-- A matrix command of 4 × 4 × 4 on array 0, A and B from descriptor 0, C or Cin from descriptor 1. -/
def mx (op dst : Nat) : Inflight :=
  flight [(0, op), (45, dst), (48, 4), (61, 4), (74, 4), (136, 1), (152, 1)]

theorem wit_MatrixCommandsAreChecked :
    (∀ c ∈ [0x10, 0x11, 0x12, 0x13, 0x14] ++ (List.range 11).map (fun k => 0x15 + k),
      let f := flight [(0, c), (32, 127), (104, 2)]
      let s := fly [f] tensors
      mxReason s (partOfQ 0) (mxClamp s (coreAcc f) (mxFields f.word)).1 (mxDescs s (coreAcc f) (mxClamp s (coreAcc f) (mxFields f.word)).1) ≠ 0 ∧
      opcodeOf f.word = c ∧ s.inflight 0 0 = some f ∧ s.mayStart f (mxReads f s) = true ∧
      s.isLate f (mxReads f s) = false ∧ s.blocked (mxAccs f s) = false) := by decide +kernel

theorem wit_AccumulatorTiles :
    ∀ c ∈ [0x10, 0x11, 0x12, 0x14],
      let f := mx c 1
      let s := fly [f] tensors
      let x := (mxClamp s (coreAcc f) (mxFields f.word)).1
      mxReason s (partOfQ 0) x (mxDescs s (coreAcc f) x) = 0 ∧ s.inflight 0 0 = some f ∧
      s.mayStart f (mxReads f s) = true ∧ s.isLate f (mxReads f s) = false ∧ s.blocked (mxAccs f s) = false ∧
      opcodeOf f.word = c ∧ x.dst = 1 ∧
      (c = 0x14 → ((mxDescs s (coreAcc f) x).cin.bind Desc.format) = some .fp32) ∧
      (c = 0x10 ∨ c = 0x11 → ((mxDescs s (coreAcc f) x).a.bind Desc.format) = some .bf16 ∧
        ((mxDescs s (coreAcc f) x).b.bind Desc.format) = some .bf16) := by decide +kernel

theorem wit_ProductsAndStores :
    (∀ c ∈ [(0x10, 0, 0), (0x11, 0, 0), (0x13, 0, 0), (0x10, 2, 296), (0x11, 2, 296), (0x10, 2, 297)],
      let f := if c.2.1 = 0 then mx c.1 0 else flight [(0, c.1), (45, 2), (48, 4), (61, 2), (74, 4), (136, 7), (168, c.2.2 * 2 ^ 24)]
      let s := fly [f] (modGab (fun g => { g with maps := [(0, [entry])] }) tensors)
      let x := (mxClamp s (coreAcc f) (mxFields f.word)).1
      let d := mxDescs s (coreAcc f) x
      mxReason s (partOfQ 0) x d = 0 ∧ s.inflight 0 0 = some f ∧ s.mayStart f (mxReads f s) = true ∧
      s.isLate f (mxReads f s) = false ∧ s.blocked (mxAccs f s) = false ∧ x.dst = c.2.1 ∧ opcodeOf f.word = c.1 ∧
      s.firstUnmapped (partOfQ 0) (descSpans s (partOfQ 0) x.used) = none ∧
      s.firstUnmapped (partOfQ 0) (mxSpans x d ++ mxDests x d) = none ∧
      (c.2.1 = 0 → (d.c.bind Desc.format) = some .fp32) ∧
      (c.1 ≠ 0x13 → (d.a.bind Desc.format) = some .bf16 ∧ (d.b.bind Desc.format) = some .bf16) ∧
      (c.2.1 = 2 → s.gabEntry (partOfQ 0) x.descC = some entry ∧ x.origin % 2 ^ 24 + x.n ≤ entry.cols ∧
        (x.origin / 2 ^ 24 + x.m ≤ entry.rows ↔ c.2.2 = 296))) := by decide +kernel

/-- The register-to-register vector instructions, as opcode and function. -/
def vxOps : List (Nat × Nat) :=
  (List.range 10).map (fun k => (0x20, k)) ++ (List.range 6).map (fun k => (0x21, k)) ++ [(0x22, 0)] ++
  (List.range 5).map (fun k => (0x23, k)) ++ [(0x24, 0), (0x24, 0x20), (0x24, 1), (0x24, 0x21), (0x24, 2), (0x24, 3),
    (0x24, 4), (0x24, 0x14), (0x24, 0x24), (0x24, 0x34), (0x25, 0), (0x25, 1), (0x25, 2)]

/-- A vector instruction in FP32 on an array: destination t1, sources t0. -/
def vx (op fn array : Nat) : Inflight :=
  flight [(0, op), (32, array), (40, fn), (46, 4), (68, 2048), (138, 9), (142, 9), (146, 9), (174, 0x210000)]

theorem wit_VectorInstructionsRun :
    (∀ c ∈ vxOps, let f := vx c.1 c.2 0
      let s := fly [f] tensors
      s.inflight 0 0 = some f ∧ s.mayStart f [] = true ∧ s.isLate f [] = false ∧ opcodeOf f.word = c.1 ∧
      fld f.word 40 6 = c.2 ∧ vxReason s (partOfQ 0) (vxFields f.word) = 0 ∧ (vop (vxFields f.word).dst).isTile = true ∧
      2 ≠ (vop (vxFields f.word).dst).reg ∧ 2 ≠ (vop (vxFields f.word).srcc).reg) ∧
    (∀ c ∈ vxOps, let f := vx c.1 c.2 127
      let s := fly [f] tensors
      s.inflight 0 0 = some f ∧ s.mayStart f [] = true ∧ s.isLate f [] = false ∧
      vxReason s (partOfQ 0) (vxFields f.word) = 2) ∧
    (∀ c ∈ [(0x27, 0), (0x2F, 0), (0x20, 10), (0x26, 3)], let f := vx c.1 c.2 0
      let s := fly [f] tensors
      s.inflight 0 0 = some f ∧ s.mayStart f [] = true ∧ s.isLate f [] = false ∧ vxUnlisted f.word = true) := by
  decide +kernel

theorem wit_VectorOperations :
    (∀ c ∈ vxOps, let f := vx c.1 c.2 0
      let s := fly [f] tensors
      s.inflight 0 0 = some f ∧ s.mayStart f [] = true ∧ s.isLate f [] = false ∧
      vxReason s (partOfQ 0) (vxFields f.word) = 0) ∧
    (vop (vxFields (vx 0x20 0 0).word).dst).isTile = true ∧ (vop (6 * 2048)).isTile = false := by decide +kernel

theorem wit_LanesOfOneVector :
    256 ≤ 256 ∧ (vop (vxFields (vx 0x20 0 0).word).dst).isTile = true ∧
    ((vxFields (vx 0x20 0 0).word).fmtD = 7 ∨ (vxFields (vx 0x20 0 0).word).fmtD = 8 ∨
      (vxFields (vx 0x20 0 0).word).fmtD = 9) := by decide +kernel

theorem wit_VectorLoadsAndStores :
    ∀ fn ∈ [0, 1, 2], let f := vx 0x26 fn 0
      let s := fly [f] tensors
      let x := vxFields f.word
      s.inflight 0 0 = some f ∧ vxReason s (partOfQ 0) x = 0 ∧ opcodeOf f.word = 0x26 ∧ s.isLate f [] = false ∧
      fld f.word 40 6 = fn ∧ s.mayStart f (vxLdReads f s) = true ∧ s.isLate f (vxLdReads f s) = false ∧
      s.mayStart f [] = true ∧ s.blocked (readsOf (arrayAcc f 2) (vxLdReads f s)) = false ∧
      s.blocked (vxStWrites f s) = false ∧
      s.firstUnmapped (partOfQ 0) (vxSpans x x.fmtA (vxVectors s (partOfQ 0) x (vxClamp s (partOfQ 0) x))) = none ∧
      s.unmappedIn (partOfQ 0) x.dva 1 = none := by decide +kernel

/-! ### Witnesses: tiers, checkpoints, the GAB -/

/-- A tier command: opcode, attributes, destination, source, length, address. -/
def tx (op attr dst src len dva : Nat) : Inflight :=
  flight [(0, op), (136, attr), (134, dst), (132, src), (84, len), (32, dva)]

theorem wit_TierTransfers :
    (∀ op ∈ [0x30, 0x31, 0x32, 0x33, 0x34, 0x35, 0x36, 0x37],
      let f := tx op 0 0 0 1 0x900001
      let s := fly [f] mapped
      s.inflight 0 0 = some f ∧ s.mayStart f [] = true ∧ s.isLate f [] = false ∧
      txWaits s (partOfQ 0) op (txFields f.word).dva (txFields f.word).len = false ∧
      txReason s (partOfQ 0) (txFields f.word) ≠ 0 ∧ (txFields f.word).op = op) ∧
    (∀ op ∈ [0x30, 0x31, 0x32, 0x33, 0x34, 0x35, 0x36, 0x37],
      let f := tx op 0 0 0 65536 0x200000
      let s := modMem (fun m => { m with migrations := [{ part := 0, slot := 0, bolt := 32, dst := .t2, held := [] }] }) (fly [f] mapped)
      s.inflight 0 0 = some f ∧ s.mayStart f [] = true ∧ s.isLate f [] = false ∧ (txFields f.word).op = op ∧
      txWaits s (partOfQ 0) op (txFields f.word).dva (txFields f.word).len = true) ∧
    (∀ c ∈ [(0x30, Tier.t1, Tier.t0, Tier.t1), (0x31, .t2, .t1, .t1), (0x32, .t0, .t2, .t2)],
      let code (t : Tier) : Nat := match t with | .t0 => 0 | .t1 => 1 | .t2 => 2
      let f := tx c.1 0 (code c.2.2.1) (code c.2.1) 65536 0x200000
      let r : Region := { reg with floor := c.2.2.2, single := true }
      let s := setBolt 0 0 32 (match c.2.1 with | .t0 => { t0 := some 5 } | .t1 => { t1 := some 5 } | .t2 => { t2 := some 5 }) (fly [f] (modMem (fun m => { m with regions := [(0, [r])] }) up))
      let x := txFields f.word
      s.inflight 0 0 = some f ∧ s.mayStart f [] = true ∧ s.isLate f [] = false ∧ txWaits s 0 x.op x.dva x.len = false ∧
      x.op = c.1 ∧ txReason s 0 x = 0 ∧ s.regionOf 0 x.dva x.len = some r ∧ tierOf x.src = some c.2.1 ∧
      tierOf x.dst = some c.2.2.1 ∧ x.dva = 32 * 65536 ∧ x.len = 65536 ∧ f.env = none ∧
      s.readSlot (coreAcc f) x.dva = 0 ∧ (s.bolt 0 0 32).has c.2.1 = true ∧ (s.bolt 0 0 32).has c.2.2.1 = false ∧
      ¬ (r.single = true ∧ r.pinOf 32 = some c.2.1) ∧ (∀ ch, ch < 16 → s.throttles ch = false) ∧ s.moving 0 0 = false ∧
      (c.2.2.1 = r.floor ∨ (tierRank c.2.2.1 < tierRank r.floor ∧ s.totalHeld c.2.2.1 < s.capacity c.2.2.1))) ∧
    (let f := tx 0x31 0 1 2 65536 0x200000
     let x := txFields f.word
     let s (pages : Nat) (single : Bool) (ms : List Migration) (b33 : Bolt) : State :=
       setBolt 0 0 33 b33 (setBolt 0 0 32 { t2 := some 5 } (fly [f] (modMem (fun m => { m with
         t1Pages := pages, migrations := ms, regions := [(0, [{ reg with floor := .t2, single := single }])] })
         (modWmc (fun w => { w with active := { parts := [(0, { quotaT1 := 0 })] } }) up))))
     let run (s : State) : State :=
       let u := meetErrors { coreAcc f with agent := 10 } [] (doTransfer f x) (startCmd f s)
       if u.moving 0 0 then u else markDone 0 0 u
     let all := [s 9000 false [] {}, s 0 true [] { t1 := some 4 }, s 0 false [{ part := 0, slot := 0, bolt := 33, dst := .t2, held := [] }] { t1 := some 4 }]
     (∀ y ∈ all, y.inflight 0 0 = some f ∧ y.mayStart f [] = true ∧ y.isLate f [] = false ∧
       txWaits y 0 x.op x.dva x.len = false ∧ txReason y 0 x = 0 ∧ x.op = 0x31) ∧
     (claimWaits (s 9000 false [] {}) 0 x = false ∧ homesIn (s 9000 false [] {}) (run (s 9000 false [] {})) = [] ∧
       wroteThrottled (s 9000 false [] {}) (run (s 9000 false [] {})) = false) ∧
     (claimWaits (s 0 true [] { t1 := some 4 }) 0 x = false ∧
       homesIn (s 0 true [] { t1 := some 4 }) (run (s 0 true [] { t1 := some 4 })) ≠ []) ∧
     claimWaits (s 0 false [{ part := 0, slot := 0, bolt := 33, dst := .t2, held := [] }] { t1 := some 4 }) 0 x = true) := by
  decide +kernel

theorem wit_RegionCommands :
    (∀ c ∈ [(tx 0x36 2 0 0 0x200000 0x400000), (tx 0x37 0 0 0 0x200000 0x200000), (tx 0x35 5 0 0 0x200000 0x200000),
        (tx 0x33 0 1 0 0x200000 0x200000), (tx 0x34 0 0 0 0x200000 0x200000)],
      let s := fly [c] mapped
      let x := txFields c.word
      let m := markStarted 0 0 s
      s.inflight 0 0 = some c ∧ s.mayStart c [] = true ∧ s.isLate c [] = false ∧ txWaits s 0 x.op x.dva x.len = false ∧
      txReason s 0 x = 0 ∧
      (x.op = 0x36 → homesIn s (doMap 0 x m) = [] ∧ wroteThrottled s (doMap 0 x m) = false) ∧
      (x.op = 0x33 → homesIn s (doPin 0 x m) = [] ∧ wroteThrottled s (doPin 0 x m) = false) ∧
      (x.op = 0x37 → s.regionExact 0 x.dva x.len = some reg) ∧
      (x.op = 0x33 ∨ x.op = 0x34 → s.regionOf 0 x.dva x.len = some reg ∧ reg.base % 2097152 = 0 ∧ x.dva ≤ 63 * 65536 ∧
        63 * 65536 < x.dva + x.len ∧ s.regionAt 0 (63 * 65536) = some reg ∧ tierOf x.dst = some (if x.op = 0x33 then .t1 else .t0))) := by
  decide +kernel

/-- A checkpoint of an unmapped region with no bolt that is not zero. -/
def ckpt : Ckpt := { gen := 1, keyId := 1, step := 0, tag := 0, dva := 0, len := 0, regions := [{ reg with base := 0x600000 }], bolts := [] }

/-- The module holding checkpoint 3 with that image, a command in flight and, once it has started, its restore with n
bolts placed. -/
def holding (c : Ckpt) (f : Inflight) (n : Nat) (ms : List Migration) : State :=
  modNvt (fun y => { y with
    ckpts := [(3, c)]
    commits := if f.started then [{ part := 0, slot := 3, q := 0, pos := 0, phase := 4, image := c, begun := true, bolts := n }] else [] })
    (modMem (fun m => { m with migrations := ms }) (fly [f] mapped))

/-- A bolt of a checkpoint with one byte that is not zero. -/
def ckBolt (b : Nat) : CkptBolt := { bolt := b, nonzero := true, bytes := [(7, 9#8)] }

/-- A checkpoint of the region's page that lists two bolts. -/
def ckFull : Ckpt := { ckpt with dva := 0x200000, len := 0x200000, regions := [reg], bolts := [ckBolt 32, ckBolt 33] }

theorem wit_CheckpointCommands :
    (∀ c ∈ [(0x38, 3), (0x39, 3), (0x3A, 3)], let f := tx c.1 c.2 0 0 0 0
      let s := holding ckpt f 0 []
      s.inflight 0 0 = some f ∧ s.mayStart f (ckptReads f s) = true ∧ s.isLate f (ckptReads f s) = false ∧
      s.mayStart f [] = true ∧ s.isLate f [] = false ∧ (txFields f.word).op = c.1 ∧
      ckptReason s f = 0 ∧ s.commit 0 = none ∧ s.ckpt 0 3 = some ckpt ∧ (txFields f.word).slot = 3 ∧
      homesIn s (beginRestore f (markStarted 0 0 s)) = [] ∧
      wroteThrottled s (beginRestore f (markStarted 0 0 s)) = false) ∧
    (let f := tx 0x39 3 1 0 0x200000 0x200000
     let s := holding ckFull f 0 []
     let u := beginRestore f (markStarted 0 0 s)
     s.inflight 0 0 = some f ∧ s.mayStart f [] = true ∧ s.isLate f [] = false ∧
      ckptReason s f = 0 ∧ s.commit 0 = none ∧ s.ckpt 0 3 = some ckFull ∧ ckFull.bolts ≠ [] ∧
      homesIn s u = [] ∧ wroteThrottled s u = false) ∧
    (∀ c ∈ [(0x38, 3, 65536), (0x39, 4, 0), (0x3A, 4, 0), (0x3B, 3, 0), (0x3C, 3, 0)], let f := tx c.1 c.2.1 0 0 c.2.2 0
      let s := holding ckpt f 0 []
      s.inflight 0 0 = some f ∧ s.mayStart f [] = true ∧ s.isLate f [] = false ∧ (txFields f.word).op = c.1 ∧
      ckptReason s f ≠ 0) := by decide +kernel

theorem wit_CheckpointCommands_restoring :
    ∀ n ∈ [0, 1], let f := { tx 0x39 3 1 0 0x200000 0x200000 with started := true }
      let x := txFields f.word
      let y := holding ckFull f n []
      let z := holding ckFull f n [{ part := 0, slot := 0, bolt := 32 + n, dst := .t2, held := [] }]
      let u := restoreBolt (ckptAcc f) .t1 (32 + n) (ckBolt (32 + n))
        (ftlReadPages (fun g => g.part == 0 && g.origin == 4 && g.bolt == 32 + n) y)
      (∀ w ∈ [y, z], w.inflight 0 0 = some f ∧ x.op = 0x39 ∧ f.started = true ∧ f.done = false ∧
        (w.commit 0).map (fun c => (c.slot, c.bolts, c.image)) = some (3, n, ckFull) ∧
        (restoreTargets x ckFull)[n]? = some (32 + n, ckBolt (32 + n))) ∧ tierOf x.dst = some .t1 ∧
      rangeBusy z 0 ((32 + n) * 65536) 65536 = true ∧ rangeBusy y 0 ((32 + n) * 65536) 65536 = false ∧
      homesIn y u = [] ∧ wroteThrottled y u = false ∧ reg.twoVer = false ∧
      (∀ i ∈ [0, 65535], y.regionAt 0 ((32 + n) * 65536 + i) = some reg) := by decide +kernel

/-- A command in flight and the entry bound, beside the table of descriptors. -/
def binding (f : Inflight) : State := modGab (fun g => { g with maps := [(0, [entry])] }) (fly [f] tensors)

/-- The descriptor of the 300 × 300 FP32 tensor. -/
def flushDesc : Desc where
  base := 0x220000
  fmt := 9
  blockAxis := false
  rows := 300
  cols := 300
  rowStride := 1200
  scaleBase := 0
  scaleStride := 0
  flagBase := 0
  idxPitch := 0

/-- The flush of entry 7 by the command f, once it has started. -/
def flushing (f : Inflight) (written : Bool) : Flush :=
  { q := f.q, pos := f.pos, ord := f.ord, part := 0, param := 7, desc := flushDesc, told := false, written := written }

theorem wit_GabCommands :
    (let f := flight [(0, 0x3D), (64, 0x200000), (48, 1)]
     let rd := [(fld f.word 64 52, 32 * fld f.word 48 16)]
     (binding f).inflight 0 0 = some f ∧ opcodeOf f.word = 0x3D ∧ (binding f).earlierOpen f (fun w => (gabParam w).isSome) = false ∧
      (binding f).advancing f none = false ∧
      (fly [f] tensors).mayStart f rd = true ∧ (fly [f] tensors).isLate f rd = false ∧
      (fly [f] tensors).blocked (readsOf (coreAcc f) (bindSpans f (fly [f] tensors))) = false) ∧
    (∀ c ∈ [(0, 7), (0, 8), (1, 0)], let f := flight [(0, 0x3E), (120, c.2), (47, c.1)]
     let x := flushCmd f
     (binding f).inflight 0 0 = some f ∧ opcodeOf f.word = 0x3E ∧ (binding f).mayStart f [] = true ∧ (binding f).isLate f [] = false ∧
      x.zeroAfter = (c.1 == 1) ∧ (binding f).addsBefore f (if x.zeroAfter then none else some x.param) = false ∧
      (binding f).gabEntry 0 x.param = (if c.2 = 7 then some entry else none) ∧ entry.ms = false) := by decide +kernel

theorem wit_GabCommands_flush :
    (∀ c ∈ [(7, 0, 0), (8, 0, 0), (7, 2, 0), (7, 0, 1)], let f := flight [(0, 0x3F), (120, c.1), (136, 1), (152, c.2.1), (47, c.2.2)]
     let x := flushCmd f
     let u := (descSpans (binding f) 0 [x.descD]).foldl (fun s r => touchRead (coreAcc f) false r.1 r.2 s) (markStarted 0 0 (binding f))
     (binding f).inflight 0 0 = some f ∧ opcodeOf f.word = 0x3F ∧ (binding f).mayStart f [] = true ∧
      (binding f).isLate f [] = false ∧ (binding f).flush f = none ∧ (binding f).firstUnmapped 0 (descSpans (binding f) 0 [x.descD]) = none ∧
      (binding f).blocked (readsOf (coreAcc f) (descSpans (binding f) 0 [x.descD])) = false ∧ x.expect = c.2.1 ∧
      x.zeroAfter = (c.2.2 == 1) ∧ (binding f).addsBefore f (some x.param) = false ∧
      (c.1 = 8 → (flushTarget (binding f) f x).isNone = true) ∧
      (c.1 = 7 → (flushTarget (binding f) f x).map (fun t => (t.1, t.2.2)) = some (entry, .fp32) ∧
        (flushTarget (binding f) f x).map (fun t => u.blocked (writesOf (flushAcc f) (flushDests entry t.2.1 .fp32))) = some false) ∧
      (c.2.1 = 2 → entry.unmet x.expect = some 0)) := by decide +kernel

theorem wit_GabCommands_waiting :
    (∀ c ∈ [(0, 0, true, 19990000000), (0, 1, true, 19990000000), (0, 0, false, 19990000000), (2, 0, false, 19990000000),
        (2, 0, false, 19990000001)],
      let f := { flight [(0, 0x3F), (120, 7), (136, 1), (152, c.1), (47, c.2.1)] with started := true, since := c.2.2.2 }
      let h := flushing f c.2.2.1
      let y := modGab (fun g => { g with flushes := [h] }) (binding f)
      let x := flushCmd f
      y.inflight 0 0 = some f ∧ y.running (isOp 0x3F) 0 0 = some f ∧ y.flush f = some h ∧ y.gabEntry 0 x.param = some entry ∧
      flushDesc.format = some .fp32 ∧ y.addsBefore f (some x.param) = false ∧ x.zeroAfter = (c.2.1 == 1) ∧ x.expect = c.1 ∧
      y.blocked (writesOf (flushAcc f) (flushDests entry flushDesc .fp32)) = false ∧
      (if x.expect = 0 then none else entry.unmet x.expect) = (if c.1 = 0 then none else some 0) ∧
      (f.since + 10000000 ≤ y.now ↔ c.2.2.2 = 19990000000)) ∧
    (let f := { flight [(0, 0x3F), (120, 7), (136, 1), (47, 1)] with pos := 1, started := true, ord := 1 }
     let h := flushing f true
     let y := fly [flight [(0, 0x10), (45, 2), (136, 7)], f] (modGab (fun g => { g with flushes := [h] }) bound)
     y.running (isOp 0x3F) 0 1 = some f ∧ y.flush f = some h ∧ h.written = true ∧ (flushCmd f).zeroAfter = true ∧
      y.addsBefore f (some 7) = true) := by decide +kernel

/-- A contribution of one row to both columns of row 299 of that entry: its second band. -/
def contrib (seq : Nat) (discarded : Bool) : Contribution where
  q := 0
  pos := 0
  ord := 0
  part := 0
  param := 7
  seq := seq
  k := 4
  discarded := discarded
  row0 := 299
  col0 := 0
  rows := 1
  cols := 2
  vals := [(false, 1, 0, 0), (true, 3, 1, 0)]
  todo := [1]
  since := [(1, 19990000000)]
  told := false

theorem wit_Contributions :
    let f := { mx 0x10 2 with started := true }
    let s (c : Contribution) (e : GabEntry) : State :=
      modGab (fun g => { g with maps := [(0, [e])], contribs := [c] }) (fly [f] bound)
    let m : GabEntry := { entry with ms := true, msBase := 0x200000 }
    (∀ c ∈ [contrib 0 false, contrib 0 true, contrib 1 false, contrib 32767 false, contrib 32768 false],
      ∀ e ∈ [entry, m],
      (s c e).contrib 0 0 = some c ∧ c.q = (0 : QIdx).val ∧ c.pos = 0 ∧ (s c e).gabEntry c.part c.param = some e ∧
      (keepStored (adderAcc c.part c.q c.pos) [] (s c e)).gabEntry c.part c.param = some e ∧
      (s c e).zeroPending c = false ∧ 1 ∈ c.todo ∧ 0 < c.cols ∧ c.col0 + c.cols ≤ e.cols ∧ c.todo.Nodup ∧
      (s c e).inflight 0 0 = some f ∧ c.todo.filter (fun b => b != 1) = []) ∧
    ((s (contrib 0 false) m).mem.migrations = [] ∧ bandUnmapped (s (contrib 0 false) m) (contrib 0 false) m 1 = none ∧
      m.msBase + m.headerBytes + 5 * m.rows * m.cols ≤ 2 ^ 52 ∧
      (contrib 0 false).row0 + (contrib 0 false).rows ≤ m.rows ∧
      (contrib 0 false).vals.length ≤ (contrib 0 false).rows * (contrib 0 false).cols ∧
      (∀ v, v < 2 → (299 + v / 2) / 256 = 1 ∧
        ∀ i, i < 5 → ((s (contrib 0 false) m).regionAt 0 (m.elemDva (299 + v / 2) (v % 2) + i)).isSome)) ∧
    seqAhead 0 (tabGet {} entry.bands 1).nextSeq = 0 ∧ 0 < seqAhead 1 (tabGet {} entry.bands 1).nextSeq ∧
    seqAhead 32767 (tabGet {} entry.bands 1).nextSeq < 32768 ∧ 32768 ≤ seqAhead 32768 (tabGet {} entry.bands 1).nextSeq ∧
    (s (contrib 1 false) entry).now ≤ tabGet 0 (contrib 1 false).since 1 + 10000000 ∧
    (let t := modClk (fun c => { c with time := 20000000010 }) (s (contrib 1 false) entry)
     tabGet 0 (contrib 1 false).since 1 + 10000000 < t.now) := by decide +kernel

/-! ### Witnesses: collectives, arrays, streams -/

/-- Group 3 of P0: two members on the x axis, this module rank 0, awaiting sequence number 4. -/
def grp : Group where
  part := 0
  id := 3
  p := 2
  rank := 0
  axes := [(2, 1, false)]
  csetBase := 0
  carryBase := 0
  stagingBase := 0
  stagingBytes := 1024000
  members := [0, 1]
  fp := 9
  nextSeq := 4
  done := []
  removed := []
  carry := none
  hist := []

/-- The module at node 0 with port 0 up, group 3 bound and two 2 × 2 FP32 tensors. -/
def coll : State :=
  modPort 0 (fun k => { k with state := 2 })
    (modCol (fun c => { c with coord := { valid := true }, groups := [(3, grp)] })
      (memWrite (planAcc 0) 0x200000 (descBytes 0x210000 9 2 2 8 ++ descBytes 0x220000 9 4 4 16)
        (modWmc (fun w => { w with active := { parts := [(0, { descCount := 2, descBase := 0x200000 })] } }) mapped)))

/-- A collective command of group 3 with a sequence number, reading descriptor 0 and writing descriptor 1. -/
def co (op seq deadline : Nat) : Inflight := flight [(0, op), (32, 3), (44, seq), (115, 1), (232, deadline)]

/-- That command at the engine. -/
def atEngine (f : Inflight) (running : Bool) (seq : Nat) : Coll where
  q := 0
  pos := 0
  part := 0
  group := 3
  seq := seq
  word := f.word
  running := running
  since := 20000000000
  arrived := []
  staged := []
  set := none
  feeder := none
  needFeed := false
  fed := false
  excluded := false
  frozen := false
  ownOvf := []

/-- A state with collectives at the engine. -/
def withColl (c : Coll) (s : State) : State := modCol (fun k => { k with colls := [c] }) s

theorem wit_CollectiveCommands :
    (∀ op ∈ [0x50, 0x51, 0x52, 0x53, 0x54, 0x55, 0x56], ∀ seq ∈ [3, 4, 5], let f := co op seq 0
      let s := fly [f] coll
      (s.inflight 0 0 = some f ∧ s.mayStart f (coGateReads f s) = true ∧ s.isLate f (coGateReads f s) = false ∧
        s.blocked (coAccesses f s) = false ∧ s.firstUnmapped 0 (coDescs f s) = none ∧
        s.coll 0 0 = none ∧ opcodeOf f.word = op ∧ s.node = some 0 ∧ (coClamp f.word).1.group = 3) ∧
      s.boundGroup (partOfQ 0) 3 = some grp ∧ (coClamp f.word).1.seq = seq ∧
      (seq = 3 → coReason s f (coClamp f.word).1 ≠ 0) ∧ (seq ≠ 3 → coReason s f (coClamp f.word).1 = 0) ∧
      s.col.decided = [] ∧ (∀ r, r < grp.p → s.dataRoute (partOfQ 0) 0 (grp.members.getD r 0 % 2 ^ 22) ≠ none)) ∧
    (let s := fly [co 0x50 4 0] up
     s.node = none ∧ s.inflight 0 0 = some (co 0x50 4 0)) ∧
    (∀ op ∈ [0x58, 0x5F], let f := flight [(0, op)]
      let s := fly [f] coll
      s.inflight 0 0 = some f ∧ opcodeOf f.word = op ∧ s.node ≠ none ∧ s.mayStart f [] = true ∧ s.isLate f [] = false) := by
  decide +kernel

theorem wit_CollectiveCommands_waiting :
    (∀ seq ∈ [3, 4, 5], let f := { co 0x54 seq 0 with started := true }
      let c := atEngine f false seq
      let s := withColl c (fly [f] coll)
      s.coll 0 0 = some c ∧ s.inflight 0 0 = some f ∧ c.running = false ∧ s.node ≠ none ∧
      s.boundGroup c.part c.group = some grp ∧ grp.nextSeq = 4) ∧
    (let f := { co 0x54 4 0 with started := true }
     let s := modCol (fun k => { k with groups := [] }) (withColl (atEngine f false 4) (fly [f] coll))
     s.coll 0 0 = some (atEngine f false 4) ∧ s.boundGroup 0 3 = none ∧ s.node ≠ none) ∧
    (∀ v ∈ [(0, false), (5, false), (0, true)], let f := { co 0x50 4 0 with started := true, pos := 1 }
      let c := { atEngine f false 4 with pos := 1 }
      let s := withColl c (modGab (fun g => { g with maps := [(0, [{ entry with wBase := 0x210000, version := v.1 }])] })
        (fly ((if v.2 then [{ flight [(0, 0x64)] with started := true }] else []) ++ [f]) coll))
      s.coll 0 1 = some c ∧ s.inflight 0 1 = some f ∧ c.running = false ∧ s.node = some 0 ∧
      s.boundGroup c.part c.group = some grp ∧ c.seq = grp.nextSeq ∧ s.fenceOpen c.part = v.2 ∧
      (∃ r ∈ coReads f s, s.touchesParam c.part r.1 r.2 = true) ∧ (s.isLate f (coReads f s) = true ↔ v.1 = 5) ∧
      s.blocked (readsOf (collAcc f) (coReads f s)) = false ∧ s.col.decided = [] ∧
      (∀ r, r < grp.p → s.dataRoute c.part 0 (grp.members.getD r 0 % 2 ^ 22) ≠ none)) := by decide +kernel

theorem wit_CollectivesComplete :
    let f := { co 0x50 4 0 with started := true }
    let data : List (Nat × Bool × List Byte) := [(0, true, le 16 1)]
    let c := { atEngine f true 4 with arrived := [(0, data), (1, data)] }
    let s := withColl c (fly [f] coll)
    (s.coll 0 0 = some c ∧ s.inflight 0 0 = some f ∧ s.group c.part c.group = some grp ∧ grp.part = c.part ∧
      grp.id = c.group ∧ mayFinish grp c = true ∧ mayFinish grp (atEngine f true 4) = false ∧
      s.blocked (writesOf (collAcc f) (finishSpans c f grp s)) = false) ∧
    (c.excluded = false ∧ c.needFeed = false ∧ (c.set.getD (List.range grp.p)).length = grp.p ∧ grp.csetBase = 0 ∧
      opcodeOf f.word ≠ 0x54 ∧ opcodeOf f.word ≠ 0x56 ∧
      s.firstUnmapped c.part ((collWrites s f grp c (c.set.getD (List.range grp.p))).map (fun w => (w.1, w.2.length))) = none) := by
  decide +kernel

theorem wit_OrderOfAdditions : 1 < 2 ∧ 1 < 2 ∧ 0 < 1 ∧ 1 + 1 < 3 := by decide +kernel

/-- A chunk of that group. -/
def chunk (rank index : Nat) : Chunk where
  p := 0
  group := 3
  seq := 4
  rank := rank
  index := index
  last := true
  data := [1]
  lanes := []
  conv := none
  ovf := []

theorem wit_CollectiveDataAndGroups :
    (∀ v ∈ [(false, false), (true, true), (true, false)],
      let f := { co 0x54 4 5 with started := true }
      let c := { atEngine f v.1 4 with frozen := v.2, arrived := [(1, [(0, true, [1])])] }
      let s := withColl c (fly [f] coll)
      (chunk 1 1).lanes = [] ∧ s.boundGroup 0 3 = some grp ∧ s.collOf 0 3 4 = some c ∧ s.coll c.q c.pos = some c ∧
      (chunk 1 1).rank ≠ grp.rank ∧ (∀ x ∈ c.from_ 1, x.1 ≠ 1) ∧ (∃ x ∈ c.from_ 1, x.1 = 0) ∧
      s.group c.part c.group = some grp ∧ (coFields c.word).deadline = 5 ∧ s.now < c.since + 1000 * 5) ∧
    (let s := modMxa (fun m => { m with hw := { m.hw with lanesRetired := [(2, [9])] } }) up
     9 ∈ tabGet [] s.mxa.hw.lanesRetired 2 ∧ ¬ 8 ∈ tabGet [] s.mxa.hw.lanesRetired 2) := by
  decide +kernel

theorem wit_CollectiveDataAndGroups_feed :
    up.boundGroup 0 3 = none ∧
    (let c := { atEngine { co 0x54 4 5 with started := true } true 4 with since := 19999995000 }
     c.running = true ∧ c.since + 1000 * (coFields c.word).deadline ≤ up.now) ∧
    (let f := { co 0x50 4 0 with started := true }
     let c := { atEngine f true 4 with needFeed := true }
     let s := withColl c (fly [f] coll)
     let ws := feedWrites s f (le 16 1) [3]
     s.coll 0 0 = some c ∧ s.inflight 0 0 = some f ∧ c.q = 0 ∧ c.pos = 0 ∧ c.running = true ∧
      c.needFeed = true ∧ c.fed = false ∧ c.frozen = false ∧
      s.blocked (writesOf (collAcc f) (ws.map (fun w => (w.1, w.2.length)))) = false ∧
      s.firstUnmapped c.part (ws.map (fun w => (w.1, w.2.length))) = none) := by decide +kernel

theorem wit_CollectiveDataAndGroups_groups :
    (∀ v ∈ [([4], false), ([4], true), ([5, 4], false)],
      let g := { grp with hist := v.1.map (fun n => (n, [0, 1], none)) }
      let f := { co 0x50 4 0 with started := true }
      let s := modCol (fun k => { k with
        groups := [(3, g)]
        lasts := if v.2 then [(3, atEngine f true 4, f)] else [] }) coll
      s.group 0 3 = some g ∧ groupKey 0 3 = 3 ∧ (∃ h ∈ g.hist, h.1 = 4) ∧ ((∃ h ∈ g.hist, h.1 = 5) ↔ v.1 = [5, 4]) ∧
      (s.col.lasts.find? (fun l => l.1 == 3 && l.2.1.seq == 4)).isSome = v.2 ∧
      s.blocked (readsOf (collAcc f) (feedSpans s f)) = false ∧ s.node = some 0 ∧
      s.dataRoute 0 0 (g.members.getD 1 0 % 2 ^ 22) = some ([0], false)) ∧
    (∀ n ∈ [0, 1], let f := flight [(0, 0x57), (48, n), (64, 0x200000)]
     let rd := [((coFields f.word).tableBase, 64 * (coFields f.word).count)]
     let s := fly [f] coll
     s.inflight 0 0 = some f ∧ opcodeOf f.word = 0x57 ∧ s.node ≠ none ∧ (∀ c ∈ s.col.colls, c.part ≠ partOfQ 0) ∧
      s.mayStart f rd = true ∧ s.isLate f rd = false ∧ s.blocked (readsOf (coreAcc f) (gbindSpans f s)) = false ∧
      (coFields f.word).count = n ∧ (∀ x ∈ s.col.groups, x.1 / 4096 = x.2.part)) ∧
    (let f := flight [(0, 0x57), (48, 1), (64, 0x200000)]
     let s := fly [f] (memWrite (planAcc 0) 0x200000
       (le 64 (3 + 2 * 2 ^ 64 + 2 ^ 80 + 2 ^ 84 + 2 * 2 ^ 240 + 0x300000 * 2 ^ 272 + 1024000 * 2 ^ 324)) coll)
     let y := groupOf s (coreAcc f) (unle (s.readBytes (coreAcc f) (coFields f.word).tableBase 64))
     y.id = 3 ∧ groupReason s [] y = 0) := by decide +kernel

theorem wit_ArraysChangeLevelAndAreSpared :
    (let s := fly [mx 0x12 0] (modArr 0 (fun a => { a with level := .idle }) tensors)
     (if s.mxa.windowAt = s.nowUs then s.mxa.windowUsed else 0) = 0 ∧ 0 ≤ s.dev.slewLimit * 120 ∧
      wantedLevel s 0 = some .full ∧ stepPct s (s.arr 0).level .full = 100 ∧
      0 + stepPct s (s.arr 0).level .full ≤ s.dev.slewLimit * 120) ∧
    (∀ l, l < 120 → wantedLevel up l = none) ∧
    (let s (t : Nat) : State := modArr 119 (fun a => { a with level := .floor, floorSince := t }) up
     ((s 19999980000).arr 119).level = .floor ∧ arrayWants (s 19999980000) 119 = false ∧
      ((s 19999980000).arr 119).floorSince + 20000 ≤ (s 19999980000).now ∧ arrayWants (s 19999980001) 119 = false ∧
      (s 19999980001).now < ((s 19999980001).arr 119).floorSince + 20000) ∧
    (∀ v ∈ [(0, []), (0, [1]), (0, [1, 2]), (7, [1, 2])], let s := modMxa (fun m => { m with
        colDue := [(v.1, 5)], hw := { m.hw with failedCols := [(v.1, v.2)] } }) up
      (v.1, 5) ∈ s.mxa.colDue ∧ physLive s v.1 = true ∧ ¬ 5 ∈ tabGet [] s.mxa.hw.failedCols v.1 ∧
      (v.1 ∈ s.mxa.hw.sparesFree ↔ v.1 = 7)) ∧
    (let s := modMxa (fun m => { m with retireDue := [0] }) up
     0 ∈ s.mxa.retireDue ∧ logicalOf s 0 = some 0 ∧
      spareOrder 0 s.mxa.hw.sparesFree = 7 :: [23, 39, 55, 71, 87, 103, 119] ∧ 0 < s.mxa.hw.phys.length ∧
      (modMxa (fun m => { m with hw := { m.hw with sparesFree := [] } }) s).mxa.hw.sparesFree = [] ∧
      logicalOf (modMxa (fun m => { m with hw := { m.hw with sparesFree := [] } }) s) 0 = some 0) := by decide +kernel

theorem wit_VotesAndKnownAnswers :
    (let s := modArr 0 (fun a => { a with shadow := some { q := 0, pos := 0, spare := 7 } }) up
     (s.arr 0).shadow = some { q := 0, pos := 0, spare := 7 } ∧ physLive s (s.physOf 0) = true ∧ physLive s 7 = true) := by
  decide +kernel

theorem wit_VotesAndKnownAnswers_due : katDue up 0 3 = true ∧ physLive up 0 = true := by decide +kernel

theorem wit_VotesAndKnownAnswers_notDue :
    katDue (modArr 0 (fun a => { a with level := .floor }) up) 0 3 = false := by decide +kernel

/-- The outputs of a known-answer test whose first run, second run and column find f, g and c. -/
def katObs (f g : Option (BitVec 8)) (c : Option (BitVec 16)) : KatObs where
  first := f
  second := g
  column := c
  low15 := none
  low30 := none
  bin := 3
  sig := 0

theorem wit_VotesAndKnownAnswers_obs :
    (katObs none none none).bin = 3 ∧ (katObs none none none).first = none ∧
    (katObs (some 1) (some 1) none).second ≠ none ∧ (katObs (some 1) (some 1) (some 4)).column = some 4 ∧
    (katObs (some 1) none none).first ≠ none ∧ (katObs (some 1) none none).low15 = none ∧
    (katObs (some 1) none none).low30 = none := by decide +kernel

/-- A stream of group 3 from rank 1 to this module, with a route. -/
def ctl (route : List (Fin 8)) (fp : Nat) : StreamCtl where
  tag := 5
  rev := 6
  src := endpoint 0 1
  dst := endpoint 0 0
  group := 3
  seq := 4
  chunk := 0
  fp := BitVec.ofNat 32 fp
  route := route
  hop := 0

theorem wit_StreamControlFlits :
    coll.node ≠ none ∧ coll.col.streams = [] ∧ nextHop (ctl [] 9) = none ∧ partOfEnd (ctl [] 9).dst = 0 ∧
    coll.boundGroup 0 3 = some grp ∧ grp.fp = (ctl [] 9).fp ∧ grp.fp ≠ (ctl [] 8).fp ∧
    (modCol (fun c => { c with groups := [] }) coll).boundGroup 0 3 = none ∧
    (modCol (fun c => { c with groups := [] }) coll).node ≠ none ∧
    nextHop (ctl [2] 9) = some 2 ∧ freeTag coll 2 = some 0 ∧ freeRev coll 2 = some 0 := by decide +kernel

/-- A stream in transit from port 1 to port 2. -/
def transit (waiting : Bool) : Stream where
  ctl := ctl [2] 9
  inPort := some 1
  outPort := some 2
  outTag := 0
  acked := []
  waiting := waiting

theorem wit_StreamControlFlits_transit :
    (let s := modCol (fun c => { c with streams := [transit true] }) coll
     s.node ≠ none ∧ s.col.streams.find? (fun x => x.waiting && x.inPort == some 1 && sameStream x.ctl (ctl [2] 9)) =
       some (transit true) ∧ (transit true).outPort.bind (freeTag s) ≠ none) ∧
    (let s := modCol (fun c => { c with streams := [transit false] }) coll
     let a := { ctl [] 9 with src := endpoint 0 0, dst := endpoint 0 1 }
     s.node ≠ none ∧ backStream s (some 2) a = some (transit false) ∧ (transit false).inPort = some 1 ∧
      backStream s (some 3) { a with route := [2] } = none ∧ nextHop { a with route := [2] } = some 2 ∧
      backStream s none a = none ∧ nextHop a = none ∧
      s.col.streams.find? (fun x => x.inPort == some 1 && sameStream x.ctl (ctl [2] 9)) = some (transit false)) := by
  decide +kernel

/-! ### Witnesses: ports -/

/-- The module with port 0 as given. -/
def portIs (k : PortSt) : State := modPort 0 (fun _ => k) up

/-- A flit of 250 zero bytes. -/
def flit : Flit := { cls := .collective, last := true, tag := 0, payload := List.replicate 250 0 }

theorem wit_LinkLayer :
    (∀ n ∈ [0, 1, 143], (portIs { state := 2, slotNo := n }).portUp 0 = true ∧
      (∀ f ∈ ((portIs { state := 2, slotNo := n }).port 0).ready, f.note = .none)) ∧ up.portUp 0 = false ∧
    (let f := { flit with note := .through 3 .transit }
     f.note = .through 3 .transit) ∧
    (let k : PortSt := { state := 2, slotNo := 1, ready := [flit] }
     k.replay = [] ∧ k.injHold = none ∧ k.injKind = 0 ∧ k.pickClass = some .collective) ∧
    (let f := { flit with note := .data 0 (some 4) }
     let k : PortSt := { state := 2, slotNo := 1, ready := [flit, f] }
     f ∈ k.ready ∧ f.cls = .collective ∧ f.adm = some 4 ∧ tabGet 0 k.usedByPart (f.part.getD 8) < 1) ∧
    (flit.payload.length = 250 ∧ flit.note = .none ∧ ((portIs { state := 2, rxExpect := 65535 }).port 0).rxExpect < 65536) ∧
    (let s := portIs { state := 2, lcfBad := 6 }
     s.portUp 0 = true ∧ unle ((slotBytes 0).take 252) % 2 ^ 64 ≠ 0xA5C35A3C0F9669F0 ∧ (s.port 0).lcfBad < 7) := by
  decide +kernel

theorem wit_LinkLayer_badCrc :
    ∃ x ∈ [0#2048, 1#2048 <<< 2016], (portIs { state := 2 }).portUp 0 = true ∧
      classOf (unle ((slotBytes x).take 2) / 8192) = some .collective ∧
      unle ((slotBytes x).drop 252) ≠ (crc32c (le 2 0 ++ (slotBytes x).take 252)).toNat := by
  have hb : (slotBytes (1#2048 <<< 2016)).take 252 = (slotBytes 0#2048).take 252 := by decide +kernel
  have hd : unle ((slotBytes (1#2048 <<< 2016)).drop 252) ≠ unle ((slotBytes 0#2048).drop 252) := by
    decide +kernel
  by_cases h : unle ((slotBytes 0#2048).drop 252) = (crc32c (le 2 0 ++ (slotBytes 0#2048).take 252)).toNat
  · exact ⟨1#2048 <<< 2016, by simp, by decide +kernel, by decide +kernel, by rw [hb, ← h]; exact hd⟩
  · exact ⟨0#2048, by simp, by decide +kernel, by decide +kernel, h⟩

theorem wit_LanesAndWavelengths :
    (let s := portIs { state := 2, waves := [(0, { state := 3, lane := some 0, dealt := true, mode := 3, bias := 80 })] }
     (∀ k, k < 18 → ((s.port 0).wave k).state = 3 → min ((List.replicate 18 89).getD k 0) 255 < (s.portRec 0).spareBiasPct) ∧
      ((s.port 0).wave 0).state = 3 ∧ 300 ≤ 300 ∧ s.portUp 0 = true ∧ 25 < 26) ∧
    (let s := portIs { state := 2, waves := [(0, { state := 3, lane := some 0, txMargin := 3 }), (16, { state := 1, replaces := some 0 })] }
     ((s.port 0).wave 16).replaces = some 0 ∧ ((s.port 0).wave 16).state = 1 ∧
      ((s.portRec 0).spareMarginDb : Int) + 10 ≤ 30 ∧ ((s.port 0).wave 0).txMargin + 10 ≤ 30 ∧
      (19 : Int) < (s.portRec 0).spareMarginDb) ∧
    (let s := portIs { state := 2, waves := [(0, { rxMode := 3 }), (1, { state := 4, holdBy := [1], holdAt := 19990000000 })] }
     ((s.port 0).wave 0).rxMode ≠ 0 ∧ ((s.port 0).wave 0).rxMargin ≠ -128 ∧ ((s.port 0).wave 1).state = 4 ∧
      ((s.port 0).wave 1).holdBy = [1] ∧ 5 ≤ 5 ∧ 100 ≤ 100 ∧ ((s.port 0).wave 1).dealt = false ∧
      ((s.port 0).wave 1).holdAt + 10000000 ≤ s.now ∧ beingReplaced (s.port 0) 1 = false ∧ spareLeft s 0 = true) ∧
    (let s := portIs { state := 2, waves := [(1, { state := 4, holdBy := [2], holdAt := 19990000000 }), (16, { state := 6 }), (17, { state := 6 })] }
     ((s.port 0).wave 1).state = 4 ∧ ((s.port 0).wave 1).holdBy ≠ [] ∧ ((s.port 0).wave 1).dealt = false ∧
      ((s.port 0).wave 1).holdAt + 10000000 ≤ s.now ∧ beingReplaced (s.port 0) 1 = false ∧ spareLeft s 0 = false) ∧
    (let x : Wave := { state := 3, lane := some 15, dealt := true, mode := 3, lowAt := some 19999000000 }
     let s := portIs { state := 2, waves := [(15, x), (16, { state := 6 }), (17, { state := 6 })] }
     (s.port 0).carrying.find? (fun w => w.2.lane == some 15 && w.2.state == 3) = some (15, x) ∧
      19999000000 + 1000000 ≤ s.now ∧
      beingReplaced (s.port 0) 15 = false ∧ freeSpare s 0 = none ∧ 1 < x.mode) ∧
    (∀ c ∈ [true, false],
     let s := portIs { state := 2, codeword := 512, changes := [{ kind := 3, lane := 1, wave := 1, mode := 3, point := 512, id := 0, confirmed := c }], waves := [(1, { state := 4, lane := some 1 })] }
     512 % 512 = 0 ∧ (s.port 0).codeword ≤ 512 ∧ s.portUp 0 = true ∧ ((s.port 0).wave 1).state = 4 ∧
      ((∀ c ∈ (s.port 0).changes, c.point ≤ 512 → c.confirmed = false) ↔ c = false)) := by
  decide +kernel

theorem wit_LanesAndWavelengths_changes :
    (let s := portIs { waves := [(0, { state := 5 }), (1, { state := 3, lane := some 1, dealt := true }), (2, { state := 4, lane := some 2 }), (16, { state := 2, replaces := some 1 })] }
     s.portUp 0 = false ∧ ((s.port 0).waves.map (fun w => w.1)).Nodup ∧ ((s.port 0).wave 1).dealt = true ∧
      ((s.port 0).wave 2).state = 4 ∧ ((s.port 0).wave 2).holdBy = [] ∧
      ((s.port 0).wave 0).state = 5 ∧ ((s.port 0).wave 0).state ≠ 6 ∧ ((s.port 0).wave 16).state = 2 ∧
      ((s.port 0).wave 16).replaces = some 1 ∧ 1 ≠ 16) ∧
    (let s := portIs { state := 2, waves := (List.range 5).map (fun k => (k, { state := 3, lane := some k, dealt := true })) }
     s.portUp 0 = true ∧ 5 ≤ (s.port 0).lanes ∧ ((s.port 0).waves.map (fun w => w.1)).Nodup ∧
      ((s.port 0).wave 4).dealt = true) := by decide +kernel

/-- A training that finds 7 effective bits everywhere. -/
def trained (failed : Option (Fin 6)) : TrainObs where
  failed := failed
  partnerVer := 0x12
  txEnob64 := List.replicate 18 112
  txEnob32 := List.replicate 18 112
  rxModes := List.replicate 18 3
  rxEnob := List.replicate 18 112
  monL := List.replicate 18 0
  monC := List.replicate 18 0
  monM := List.replicate 18 0
  monR := List.replicate 18 0
  farR := List.replicate 18 0
  rttNs := 100

theorem wit_PortsTrainAndGoDown :
    ((up.port 0).enable = true ∧ up.portUp 0 = false ∧ (trained (some 5)).failed = some 5 ∧ (trained none).failed = none) ∧
    (∀ o ∈ [trained none, { trained none with txEnob64 := [112, 112, 112], txEnob32 := [112, 112, 112] }],
      (((List.range 18).filter (fun k => (trainLane up 0).any (fun x => x.2 == k) &&
        chooseMode (up.portRec 0) 0x12#8 (o.txEnob64.getD k 0) (o.txEnob32.getD k 0) != 0)).length =
        if o = trained none then 16 else 3) ∧ o.failed = none) ∧
    ((up.port 0).state = 0 ∧ (up.port 0).downAt + 100000000 ≤ up.now) ∧
    (let s := portIs { state := 3, enable := false, lastLcf := 19999000000 }
     s.portUp 0 = true ∧ (s.port 0).lanes < 4 ∧ (s.port 0).enable = false ∧ (s.port 0).lastLcf + 1000000 ≤ s.now) ∧
    (let s := portIs { state := 2, lastLcf := 19999000001 }
     s.portUp 0 = true ∧ s.now < (s.port 0).lastLcf + 1000000) ∧
    (let x : Wave := { state := 3, lane := some 0, dealt := true, mode := 1 }
     let s := portIs { state := 2, version := 0x12, waves := [(0, x)] }
     s.portUp 0 = true ∧ (s.port 0).carrying = [(0, x)] ∧ x.mode < (s.portRec 0).modeMax ∧
      ((s.port 0).waves.map (fun w => w.1)).Nodup ∧
      chooseMode (s.portRec 0) (s.port 0).version ((List.replicate 18 112).getD 0 0) ((List.replicate 18 112).getD 0 0) = 3) ∧
    (let s := portIs { state := 2, waves := [(0, { state := 3, lane := some 0, dealt := true, mode := 3 })] }
     s.portUp 0 = true ∧ ∀ x ∈ (s.port 0).carrying, x.2.state = 3 → (s.portRec 0).modeMax ≤ x.2.mode) ∧
    (portIs { enable := false }).portUp 0 = false ∧ ((portIs { enable := false }).port 0).enable = false ∧
    (0#64).extractLsb' 32 16 = 0#16 ∧ (0x100000000#64).extractLsb' 32 16 ≠ 0#16 ∧ (up.port 0).injCount < 65536 ∧
    (up.port 0).injMask < 32 ∧ (up.port 0).injKind < 4 := by decide +kernel

theorem wit_PortsTrainAndGoDown_retrain :
    let s := portIs { state := 2, version := 0x12, waves := (List.range 4).map (fun k => (k, { state := 3, lane := some k, dealt := true, mode := 3 })), retry := [(9, flit)] }
    s.portUp 0 = true ∧ 4 ≤ (s.port 0).lanes ∧ ((s.port 0).waves.map (fun w => w.1)).Nodup ∧
    (trained none).failed = none ∧ (trained (some 0)).failed ≠ none ∧
    (∀ x ∈ (s.port 0).carrying, chooseMode (s.portRec 0) (s.port 0).version ((trained none).txEnob64.getD x.1 0)
      ((trained none).txEnob32.getD x.1 0) ≠ 0) := by decide +kernel

/-! ### Witnesses: agreement, counters, tiers and flash -/

/-- A round sequence of an item. -/
def roundIs (i : CinchItem) (round : Nat) (start : Nat) : Round where
  item := i
  start := start
  round := round
  cause := 4
  reports := []
  proposed := none
  accepts := []
  accepted := none
  decided := none
  deciding := true

/-- Module 1 of rack 0, with round sequences. -/
def rackWith (rs : List Round) : State :=
  modFap (fun a => { a with rounds := rs }) (modCol (fun c => { c with coord := { valid := true, x := 1 } }) up)

/-- A message. -/
def msg (i : CinchItem) (round sender : Nat) (body : CinchBody) : CinchMsg where
  item := i
  round := round
  cause := 4
  sender := sender
  fp := 8
  body := body

theorem wit_CinchRounds :
    (coll.group 0 3 = some grp ∧ grp.fp ≠ (msg (.group 0 3 4) 0 1 (.call 1)).fp ∧ coll.group 0 2 = none) ∧
    (let s := rackWith [roundIs .rack 0 20000000000]
     let r := roundIs .rack 0 20000000000
     s.roundOf .rack = some r ∧ (∀ x ∈ s.fap.rounds, x.item = .rack → x.decided = none) ∧ r.decided = none ∧
      r.proposed = none ∧ coordinates s .rack r.round = false ∧
      coordinatorOf s .rack (msg .rack 0 0 (.proposalRack default)).round = some 0 ∧ r.round ≤ 0 ∧
      isProposal (msg .rack 0 0 (.proposalRack default)).body = true ∧ takesPart s .rack = true ∧
      s.col.streams = [] ∧ s.col.colls = []) ∧
    (let s := rackWith []
     s.fap.rounds = [] ∧ takesPart s .rack = true ∧ coordinatorOf s .rack 0 = some 0 ∧ coordinates s .rack 0 = false) ∧
    takesPart up .rack = false ∧
    (let r := { roundIs .rack 1 20000000000 with proposed := some (.proposalRack default) }
     let s := rackWith [r]
     s.roundOf .rack = some r ∧ r.round = (msg .rack 1 0 .accept).round ∧ r.proposed ≠ none ∧
      (msg .rack 1 0 .accept).sender ∈ participants s .rack ∧ r.accepts.length + 1 < quorum s .rack) ∧
    (let r := { roundIs .rack 0 20000000000 with decided := some (.proposalRack default) }
     (rackWith [r]).roundOf .rack = some r ∧ r.decided = some (.proposalRack default)) ∧
    (let s := modFap (fun a => { a with suspect := true }) (rackWith [])
     s.fap.suspect = true ∧ s.node ≠ none ∧ s.fap.drainAt = none ∧ s.fap.drainState ≠ 1) ∧
    (let s := modFap (fun a => { a with drainAt := some 10000000001 }) up
     s.fap.drainAt = some 10000000001 ∧ s.now < 10000000001 + 10000000000) ∧
    (modFap (fun a => { a with drainState := 1 }) up).fap.drainState = 1 := by
  refine ⟨?_, ?_, ?_, ?_, ?_, ?_, ?_, ?_, ?_⟩ <;> decide +kernel

/-- A proposal that a group goes on without rank 1. -/
def goOn : GroupProposal := { outcome := 2, feeder := none, set := [0], removed := [1] }

theorem wit_CinchRounds_group :
    let i : CinchItem := .group 0 3 4
    let r := roundIs i 0 20000000000
    let s := modFap (fun a => { a with rounds := [r] }) coll
    let m := { msg i 0 1 (.proposalGroup goOn) with fp := 9 }
    s.group 0 3 = some grp ∧ grp.fp = m.fp ∧ s.roundOf m.item = some r ∧ r.decided = none ∧
    takesPart s m.item = true ∧ ¬ grp.rank ∈ grp.removed ∧ ¬ grp.rank ∈ goOn.removed ∧ s.collOf 0 3 4 = none := by
  decide +kernel

theorem wit_CinchRounds_times :
    (∀ t ∈ [(0, 0), (0, 599999), (0, 600000), (0, 600001), (0, 999999), (0, 1000000), (0, 1199999), (0, 1200000), (3, 4800000)],
      let r := roundIs .rack t.1 (20000000000 - t.2)
      let s := rackWith [r]
      s.roundOf .rack = some r ∧ r.decided = none ∧
      (t.2 = 0 ∨ t.2 = 599999 → s.now < r.begin_ + 600000 ∧ s.now < r.begin_ + 1000000) ∧
      (t.2 = 600000 → r.begin_ + 600000 ≤ s.now ∧ s.now < r.begin_ + 1000000) ∧
      (t.2 = 600001 → r.begin_ + 600000 < s.now) ∧
      (t.2 = 999999 → r.begin_ + 600000 ≤ s.now ∧ s.now < r.begin_ + 1000000) ∧
      (t.2 = 1000000 → r.begin_ + 1000000 ≤ s.now) ∧
      (t.2 = 1199999 → s.now < r.start + 1200000 * (r.round + 1)) ∧
      (t.2 = 1200000 → r.start + 1200000 * (r.round + 1) ≤ s.now ∧ r.round < 3) ∧
      (t.2 = 4800000 → r.start + 1200000 * (r.round + 1) ≤ s.now ∧ 3 ≤ r.round)) := by decide +kernel

theorem wit_CountersClearAndCapture :
    ((0 : Nat) < 8 ∧ (1#8).getLsbD 0 = true ∧ 256 ∈ up.stallEngines 0 ∧
      (∀ k ∈ [256, 520], ((List.range 16).map (fun j => tabGet 0 (tabGet {} up.cnt.stall k).counts j)).sum +
        (tabGet {} up.cnt.stall k).unsettled ≤ stallUnit * (tabGet {} up.cnt.stall k).elapsed k up.now)) ∧
    520 ≤ 543 ∧ 543 < 544 ∧ ¬ 300 ∈ up.stallEngines 0 ∧ 543 ∈ stallKeys ∧
    ((up.now + 10) / 1000 = up.now / 1000) ∧
    (let s := modClk (fun c => { c with time := 20000000990 }) up
     (s.now + 10) / 1000 ≠ s.now / 1000) := by decide +kernel

/-- Words of a mailbox command of P0. -/
def mbox (f : Inflight) (s : State) : State :=
  modMem (fun m => { m with mbox := (List.range 4).map (fun k => (k, BitVec.ofNat 64 (f.word.toNat / 2 ^ (64 * k) % 2 ^ 64))) }) s

theorem wit_MigrationsMailboxAndRecords :
    up.regionAt 0 (0x200000#52).toNat = none ∧ mapped.regionAt 0 (0x200000#52).toNat = some reg ∧
    (mapped.bolt 0 (mapped.curSlot 0 32) 32).isZero = true ∧
    (let s := setBolt 0 0 32 { t1 := some 5 } mapped
     (s.bolt 0 0 32).isZero = false ∧ (s.bolt 0 0 32).has .t0 = false ∧ (Tier.t0 ≠ .t2) ∧
      ¬ (Tier.t0 = .t1 ∧ (s.bolt 0 0 32).has .t0 = true) ∧ s.migrating 0 0 32 = false ∧ s.curSlot 0 32 = 0 ∧
      s.regionAt 0 (32 * 65536) = some reg ∧ (demandRoom s 0 0 32 reg .t0).map (fun x => x.1) = some .t0 ∧
      (demandRoom s 0 0 32 reg .t0).map (fun x => homesIn s x.2) = some [] ∧
      (demandRoom s 0 0 32 reg .t0).map (fun x => wroteThrottled s x.2) = some false) ∧
    (let m : Migration := { part := 0, slot := 0, bolt := 32, dst := .t0, held := [(0x200000, 7)] }
     let s := modMem (fun x => { x with migrations := [m] }) (setBolt 0 0 32 { t0 := some 5, t1 := some 5 } mapped)
     (modNvt (fun n => { n with journal := [.home 0 0 32] }) s).nvt.journal = [.home 0 0 32] ∧
      JRec.home 0 0 32 ∉ s.nvt.journal ∧ FlashWork.homeCopy 0 0 32 ∉ s.nvt.work ∧ s.curSlot 0 32 = 0 ∧ m.cmd = none ∧
      s.mem.migrations.find? (fun m => m.part == 0 && m.slot == 0 && m.bolt == 32) = some m ∧
      s.regionAt 0 (32 * 65536) = some reg) ∧
    mapped.migrating 0 0 32 = false ∧
    (191 ∈ (modMem (fun m => { m with t1Rehash := [191] }) up).mem.t1Rehash ∧ 191 ∉ up.mem.t1Rehash) ∧
    ((modWmc (fun w => { w with hwDirty := true }) up).wmc.hwDirty = true ∧ up.wmc.hwDirty = false) := by decide +kernel

theorem wit_MigrationsMailboxAndRecords_mailbox :
    (∀ c ∈ [tx 0x33 0 1 0 0x200000 0x200000, tx 0x34 0 0 0 0x200000 0x200000, tx 0x35 5 0 0 0x200000 0x200000,
        tx 0x36 2 0 0 0x200000 0x400000, tx 0x37 0 0 0 0x200000 0x200000],
      let s := mbox c mapped
      let w := mboxWord s 0
      let x := txFields w
      let v := mailboxCmd 0 x s
      s.mboxCmd 0 = none ∧ w = c.word ∧ ¬ (x.op < 0x33 ∨ 0x37 < x.op) ∧ x.op = opcodeOf c.word ∧ txReason s 0 x = 0 ∧
      txWaits s 0 x.op x.dva x.len = false ∧ homesIn s v = [] ∧ wroteThrottled s v = false) ∧
    (let c := tx 0x37 0 0 0 0x200000 0x200000
     let s := modMem (fun x => { x with migrations := [{ part := 0, slot := 0, bolt := 32, dst := .t0, held := [] }] })
        (mbox c mapped)
     let x := txFields (mboxWord s 0)
     txReason s 0 x = 0 ∧ txWaits s 0 x.op x.dva x.len = true ∧
      (runMailbox 0 (mboxWord s 0) s).mboxCmd 0 = some (mboxWord s 0)) ∧
    (let c := tx 0x33 0 1 0 0x200000 0x200000
     let s := setBolt 0 0 64 { t1 := some 4 } (setBolt 0 0 32 { t1 := some 5, t2 := some 5 } (mbox c (modMem (fun m => { m with
       t1Pages := 1
       regions := [(0, [{ reg with floor := .t2 }, { reg with base := 0x400000, floor := .t2, single := true }])] })
       (modWmc (fun w => { w with active := { parts := [(0, { quotaT1 := 1 })] } }) up))))
     let x := txFields (mboxWord s 0)
     txReason s 0 x = 0 ∧ txWaits s 0 x.op x.dva x.len = false ∧ homesIn s (mailboxCmd 0 x s) ≠ []) ∧
    (txFields (mboxWord up 0)).op < 0x33 := by decide +kernel

/-- A page of bolt 32 of P0. -/
def page : FlashPage := { part := 0, origin := 0, slot := 0, bolt := 32, quarter := 0 }

/-- Flash with the given blocks. -/
def flash (bs : Tab FBlock) : State := modNvt (fun n => { n with blocks := bs }) up

theorem wit_FlashMediaMaintenance :
    ((up.fblock 5).reads < 60000 ∧ (up.fblock 5).pages = [] ∧ (up.fblock 5).correctedPct < 70 ∧
      up.now < ((flash [(5, { at_ := 1 })]).fblock 5).at_ + 15552000000000000 ∧ (up.fblock 5).soft = []) ∧
    (let s := flash [(5, { reads := 60000, pages := [page], used := 1024, correctedPct := 70 })]
     60000 ≤ (s.fblock 5).reads ∧ relocating s 5 = false ∧ (s.fblock 5).pages ≠ [] ∧ 70 ≤ (s.fblock 5).correctedPct ∧
      gcVictim s = some 5 ∧ relocating (modNvt (fun n => { n with work := [.relocCopy page 5] }) s) 5 = true) ∧
    (let s := flash [(5, { reads := 60000, used := 1024 })]
     60000 ≤ (s.fblock 5).reads ∧ relocating s 5 = false ∧ (s.fblock 5).pages = [] ∧ (s.fblock 5).bad = false ∧
      (s.fblock 5).used ≠ 0) ∧
    (let s := flash [(5, { pages := [page], used := 1024, erases := 99 }), (21, { erases := 500 })]
     let x : Nat × FBlock := (5, { pages := [page], used := 1024, erases := 99 })
     leastErased s = some x ∧ x.2.erases + 400 < (s.fblock 21).erases ∧ (s.fblock 21).isFree = true ∧
      21 % 16 = x.1 % 16 ∧ relocating s x.1 = false ∧ s.fblock x.1 = x.2) ∧
    (let s := flash [(5, { pages := [page], used := 1024, erases := 100 }), (21, { erases := 500 })]
     let x : Nat × FBlock := (5, { pages := [page], used := 1024, erases := 100 })
     leastErased s = some x ∧ (s.fblock 21).erases ≤ x.2.erases + 400) ∧
    gcVictim up = none := by decide +kernel

/-- A commit of slot 3 of P0. -/
def commit3 : Commit where
  part := 0
  slot := 3
  q := 0
  pos := 0
  phase := 1
  image := ckpt
  begun := false
  bolts := 0

theorem wit_JournalProgramsAndThrottle :
    up.nvt.work = [] ∧ up.nvt.journal = [] ∧
    (let f := { tx 0x38 3 0 0 0 0 with started := true }
     let s (w : List FlashWork) (j : List JRec) : State :=
      modNvt (fun n => { n with work := w, journal := j, commits := [commit3] }) (fly [f] mapped)
     (∀ w ∈ [FlashWork.ckptBolts 0, .ckptDir 0], (s [w] []).nvt.work = w :: [] ∧ (s [w] []).commit 0 = some commit3 ∧
        wroteThrottled (s [w] []) (programDone w [] (modNvt (fun n => { n with work := [] }) (s [w] []))) = false) ∧
      (∀ j ∈ [JRec.begin_ 0, .dir 0, .commit 0, .released 0], (s [] [j]).nvt.journal = j :: [] ∧
        (s [] [j]).commit 0 = some commit3 ∧ (s [] [j]).inflight commit3.q commit3.pos = some f ∧ f.started = true)) ∧
    (let zero : CkptBolt := { bolt := 31, nonzero := false, bytes := [] }
     let c (l : List CkptBolt) : Commit := { commit3 with image := { ckpt with bolts := l } }
     (c [zero]).image.bolts.drop 0 = [zero] ∧
      (c [zero, ckBolt 32, ckBolt 33]).image.bolts.drop 0 = [zero] ++ ckBolt 32 :: [ckBolt 33] ∧ zero.nonzero = false ∧
      (c [zero, ckBolt 32, zero]).image.bolts.drop 0 = [zero] ++ ckBolt 32 :: [zero] ∧ (ckBolt 33).nonzero = true) ∧
    (let b : FBlock := { pages := [page, { page with quarter := 1 }], used := 1024 }
     let s := modNvt (fun n => { n with work := [.relocCopy page 5], journal := [.reloc page 5] }) (flash [(5, b)])
     s.nvt.work = .relocCopy page 5 :: [] ∧ page ∈ (s.fblock 5).pages ∧ s.nvt.journal = .reloc page 5 :: [] ∧
      (s.fblock 5).pages.erase page ≠ []) ∧
    (let s := modNvt (fun n => { n with journal := [.reloc page 5] }) (flash [(5, { pages := [page], used := 1024 })])
     s.nvt.journal = .reloc page 5 :: [] ∧ (s.fblock 5).pages.erase page = [] ∧ (s.fblock 5).bad = false ∧
      (s.fblock 5).used ≠ 0 ∧ relocating (modNvt (fun n => { n with journal := [] }) s) 5 = false) ∧
    (let m : Migration := { part := 0, slot := 0, bolt := 32, dst := .t0, held := [] }
     let s := modNvt (fun n => { n with journal := [.home 0 0 32] }) (modMem (fun x => { x with migrations := [m] }) mapped)
     s.nvt.journal = .home 0 0 32 :: [] ∧ s.regionAt 0 (32 * 65536) = some reg ∧ s.migrating 0 0 32 = true ∧
      s.migrating 0 0 33 = false ∧
      s.mem.migrations.find? (fun m => m.part == 0 && m.slot == 0 && m.bolt == 32) = some m) ∧
    ((flash [(5, { bad := true })]).fblock 5).bad = true ∧ (up.fblock 5).bad = false ∧ (up.fblock 5).softTwice = false ∧
    ((flash [(5, { soft := [1, 2] })]).fblock 5).softTwice = true ∧ 64 ≤ freeBlocks up 0 ∧ up.throttles 0 = false ∧
    5 ∈ stallCauses (stallKey (.matrix 0)) ∧ 5 ∈ stallCauses (stallKey (.dma 0)) ∧ 1 ≠ stallKey (.matrix 0) := by
  decide +kernel

/-- n blocks of channel 0 in use, and the pages that its collection has written lately. -/
def crowded (n : Nat) : State :=
  modNvt (fun x => { x with wrote := [(20000000000, 1, 9)] })
    (flash ((List.range n).map (fun i => (16 * i, { used := 1 }))))

theorem crowded_freeBlocks (n : Nat) : freeBlocks (crowded n) 0 = blocksPerChannel - n := by
  have hl : (listedOn (crowded n) 0).filter (fun x => ! x.2.isFree) =
      (List.range n).map (fun i => (16 * i, { used := 1 })) := by
    unfold listedOn
    rw [List.filter_filter]
    refine List.filter_eq_self.mpr (fun x hx => ?_)
    obtain ⟨i, -, rfl⟩ := List.mem_map.mp hx
    simp [FBlock.isFree]
  unfold freeBlocks
  rw [hl, List.length_map, List.length_range]

theorem wit_JournalProgramsAndThrottle_throttled (n : Nat) (h : blocksPerChannel = n + 63) :
    (crowded n).throttles 0 = true ∧ (crowded n).nvt.throttled = [] ∧
    (modNvt (fun x => { x with throttled := [0] }) (crowded n)).throttles 0 = true := by
  have f : freeBlocks (crowded n) 0 = 63 := by rw [crowded_freeBlocks, h]; omega
  have f2 : freeBlocks (modNvt (fun x => { x with throttled := [0] }) (crowded n)) 0 = 63 := f
  have w : (crowded n).wroteLately = (1, 9) := rfl
  have w2 : (modNvt (fun x => { x with throttled := [0] }) (crowded n)).wroteLately = (1, 9) := rfl
  exact ⟨by simp [State.throttles, f, w], rfl, by simp [State.throttles, f2, w2]⟩

theorem wit_JournalProgramsAndThrottle_blocks : blocksPerChannel = 119146 + 63 := by decide +kernel

/-! ### Witnesses: host interface -/

theorem wit_RegisterAccessForms :
    (0x0301#32).toNat % 8 ≠ 0 ∧ (0x0304#32).toNat % 8 ≠ 0 ∧ 0x0300 % 8 = 0 ∧ 0x0302 % 4 ≠ 0 ∧
    (∀ p, p < 8 → ∀ j, j < 4 → (0x04001000 + 0x40 * p + 8 * j) % 8 = 0) := by decide +kernel

theorem wit_RegistersAndHostWindow :
    ((0x18#32).toNat % 8 = 0 ∧ pfRegister (0x18#32).toNat = false) ∧
    ((1 : Func).val ≠ 0 ∧ vfRegister ((1 : Func).val - 1) (0x1000#32).toNat = some 0x03000000) ∧
    (vfRegister 0 (0x31F0#32).toNat = some 0x090011F0 ∧ vfRegister 1 (0x3000#32).toNat = some 0x09001000 ∧
      up.dmaOwner ((0x3000 - 0x3000) / 0x20) = some 0 ∧ up.dmaOwner ((0x3000 - 0x3000) / 0x20) ≠ some 1) ∧
    ((up.queue 255).enable = false ∧ (setQueue 255 { enable := true } up).queue 255 = { enable := true }) ∧
    (let s := modPci (fun p => { p with win := [(0, (0x200000#52, 0))] }) mapped
     s.unmappedIn (s.winOf 0).2 ((s.winOf 0).1 + 0) 64 = none ∧
      s.blocked (readsOf (hostAcc 0 (s.winOf 0).2) [((s.winOf 0).1 + 0, 64)]) = false ∧
      s.blocked (writesOf (hostAcc 0 (s.winOf 0).2) [((s.winOf 0).1 + 0, 64)]) = false) ∧
    (up.pci.speed = (0#3).toNat ∧ up.pci.width = (0#5).toNat ∧ ¬ (up.pci.speed = (6#3).toNat ∧ up.pci.width = (16#5).toNat)) ∧
    (up.abiBusy 0 = none ∧ (setQueue 0 { enable := true } up).abiBusy 0 = some 0) := by decide +kernel

theorem wit_MessagesAreMaskedAndMerged :
    let e (masked merged pend : Bool) (at_ : Option Nat) (off : Bool) : State := modPci (fun p => { p with
      cfg := tabMod {} p.cfg 0 (fun c => { c with functionMask := off })
      msix := tabInsert 0 { addr := 0x1000, data := 7, masked := masked, merged := merged, pendingBit := pend,
                            sentAt := at_ } [] }) up
    vectorCount 0 ≤ vectorCount 0 ∧ (0#11).toNat < vectorCount 0 ∧ 5 ∉ up.pci.badVec ∧
    5 ∈ (modPci (fun p => { p with badVec := [5] }) up).pci.badVec ∧
    (up.msixEntry 0 0).masked = true ∧ (up.pciCfg 0).functionMask = false ∧ (up.pciCfg 0).msixEnable = true ∧
    vectorCount 1 ≤ (2047#11).toNat ∧
    (∀ b ∈ [true, false], ∀ m ∈ [true, false], ∀ pb ∈ [true, false], ∀ t ∈ [none, some 19999999000, some 19999999001],
      ∀ off ∈ [true, false],
      (e b m pb t off).msixEntry 0 (0#11).toNat =
        { addr := 0x1000, data := 7, masked := b, merged := m, pendingBit := pb, sentAt := t } ∧
      (((e b m pb t off).pciCfg 0).functionMask = true ∨ ((e b m pb t off).pciCfg 0).msixEnable = false ↔ off = true)) ∧
    (19999999000 + 1000 ≤ up.now ∧ ¬ (19999999001 + 1000 ≤ up.now)) := by decide +kernel

theorem wit_DmaEnginesMoveDescriptors :
    let s (k : Dma) (s : State) : State := modPci (fun p => { p with dma := [(15, k)] }) s
    let c : DmaCur := { desc := word [(128, 4), (64, 0x200000), (177, 1), (160, 9)], data := [1, 2, 3, 4], moved := 4, status := 0 }
    ((64#32 - ((s { tail := 1 } up).dma 15).head).toNat ≤ ringSize ((s { tail := 1 } up).dma 15).sizeCode ∧
      (64#32 - ((s { tail := 1 } up).dma 15).tail).toNat < 2 ^ 31) ∧
    ringSize ((s { tail := 1 } up).dma 15).sizeCode < (65#32 - ((s { tail := 1 } up).dma 15).head).toNat ∧
    2 ^ 31 ≤ (0#32 - ((s { tail := 1 } up).dma 15).tail).toNat ∧
    State.reset.dmaOwner 15 = none ∧ up.dmaOwner 15 = some 0 ∧
    ((up.dma 15).enable = false ∧ up.isReady = true ∧ (up.abi (up.ownerFn 0)).activeMajor ≠ 0 ∧
      up.evt.halted.getLsbD 0 = false ∧ (up.dma 15).cur = none) ∧
    ((modPci (fun p => { p with abi := [] }) up).abi 0).activeMajor = 0 ∧
    (let k : Dma := { enable := true, state := 1, tail := 1 }
     let x : DmaCur := { desc := c.desc, data := ([1, 2, 3, 4] ++ List.replicate (fld c.desc 128 32) 0#8).take (fld c.desc 128 32), moved := 0, status := 0 }
     ((s k mapped).dma 15).enable = true ∧ ((s k mapped).dma 15).state = 1 ∧ ((s k mapped).dma 15).cur = none ∧
      ((s k mapped).dma 15).head ≠ ((s k mapped).dma 15).tail ∧
      (s k mapped).blocked (dmaAccess 0 15 x (min 4 (fld c.desc 128 32))) = false) ∧
    (let k : Dma := { enable := true, state := 1, tail := 1, cur := some c }
     ((s k mapped).dma 15).cur = some c ∧ fld c.desc 177 1 = 1 ∧ up.keeperOf 0 (fld c.desc 160 16) = some 9 ∧
      (∀ n ∈ [0, 4], (s k mapped).blocked (dmaAccess 0 15 c n) = false)) ∧
    (let d : DmaCur := { c with desc := word [(128, 4)] }
     fld d.desc 177 1 = 0 ∧ fld d.desc 178 1 = 0 ∧ d.moved = fld d.desc 128 32) := by
  decide +kernel

/-! ### Witnesses: resets, boot, management, power -/

theorem wit_ResetKeyAndResetPin :
    let w : BitVec 64 := 0x5253000000000001#64
    let c : BitVec 64 := 0x5253000000000002#64
    (0#64).extractLsb' 48 16 ≠ 0x5253#16 ∧ w.extractLsb' 48 16 = 0x5253#16 ∧ w.extractLsb' 0 2 = 1#2 ∧
    c.extractLsb' 48 16 = 0x5253#16 ∧ c.extractLsb' 0 2 = 2#2 ∧ up.wmc.stage1On = true ∧ up.wmc.modRstLow = false ∧
    ¬ (up.wmc.step < 8 ∧ up.wmc.resetType ≠ 3) ∧ warmIsCold up = false ∧
    warmIsCold (modWmc (fun w => { w with railsOn := false }) up) = true ∧ State.reset.wmc.stage1On = false ∧
    (modWmc (fun w => { w with modRstLow := true }) up).wmc.modRstLow = true ∧
    (modWmc (fun w => { w with step := 0xFE }) up).wmc.step = 0xFE := by decide +kernel

theorem wit_ResetsAndWhatTheyLeave :
    (State.reset.wmc.stage1On = false ∧ State.reset.wmc.present = true ∧ 4000 < 4001 ∧ State.reset.wmc.modRstLow = false) ∧
    (up.wmc.stage1On = true ∧ up.wmc.modRstLow = false ∧ ColdTrigger.wmcRst ≠ .modRstN ∧
      ¬ (up.wmc.step < 8 ∧ up.wmc.resetType ≠ 3) ∧ warmIsCold up = false ∧ up.mem.migrations = [] ∧
      up.pwr.vinLow = false ∧ up.takesFlr = true ∧ State.reset.takesFlr = false ∧ up.pci.numVfs ≤ (0 : Fin 9).val) ∧
    (let s := modWmc (fun w => { w with
        step := 7, slot := 0, nor := { w.nor with slotA := { w.nor.slotA with trial := true } } })
        (modClk (fun c => { c with time := 30000000000 }) up)
     1 ≤ s.wmc.step ∧ s.wmc.step < 8 ∧ (s.wmc.nor.imageSlot s.wmc.slot).trial = true ∧
      s.wmc.resetAt + 30000000000 ≤ s.now ∧ s.wmc.modRstLow = false) := by decide +kernel

theorem wit_HaltsAndTheDeviceFatalStop :
    (0 ∉ up.evt.haltDue ∧ up.evt.fatalDue = false ∧ up.evt.roundDue = false) ∧
    (let s := modEvt (fun e => { e with haltDue := [0] }) up
     0 ∈ s.evt.haltDue ∧ s.dmaOwner 15 = some 0 ∧ s.dmaOwner 16 ≠ some 0) ∧
    (let s := modEvt (fun e => { e with fatalDue := true }) up
     s.evt.fatalDue = true ∧ s.evt.roundDue = false ∧ s.enabled 0 = true) ∧
    (let s := modEvt (fun e => { e with roundDue := true }) up
     s.evt.fatalDue = false ∧ s.evt.roundDue = true ∧ s.node = none) ∧
    (let s := modEvt (fun e => { e with roundDue := true }) (rackWith [])
     s.evt.fatalDue = false ∧ s.evt.roundDue = true ∧ s.node = some 1) := by decide +kernel

/-- The bytes of a set of no record with set_seq 5. -/
def rawSet : List Byte :=
  le 4 0x43474B53 ++ le 1 1 ++ le 1 0 ++ le 2 0 ++ le 4 64 ++ le 4 645018966 ++ le 8 5 ++ List.replicate 40 0#8

/-- That set. -/
def set5 : ConfigSet := { setSeq := 5, parts := [], raw := rawSet }

/-- A swap armed for P0. -/
def armed (at_ : Nat) : Armed := { path := .i3c, step := 0, timeoutMs := 10000, at_ := at_, affected := [0], heldAt := none }

theorem wit_ConfigurationSetsAreStagedAndSwapped :
    let r : Reception := { path := .i3c, cells := [(3, 1#8)], length := 64, last := 10000000000 }
    let s1 := modWmc (fun w => { w with reception := some r }) up
    let s2 := modWmc (fun w => { w with shadow := some set5 }) up
    let s3 := modWmc (fun w => { w with shadow := some set5, armed := some (armed 10000000000) }) up
    (up.wmcUp = true ∧ MgmtPath.i3c ≠ .doe ∧ up.wmc.armed = none ∧ up.wmc.reception = none ∧ up.wmc.shadow = none) ∧
    (s1.wmc.reception = some r ∧ r.path = .i3c ∧ r.path ≠ .pcie ∧ r.length ≤ 16384 ∧ r.last + 10000000000 ≤ s1.now) ∧
    ({ r with length := 16385 } : Reception).length > 16384 ∧ up.now < ({ r with last := 10000000001 } : Reception).last + 10000000000 ∧
    (s2.wmc.shadow = some set5 ∧ s2.wmc.armed = none ∧ 600000 ≤ 600000 ∧ 0 ∈ affectedBy s2 set5 ∧
      (∀ i, i < 32 → (s2.queue (32 * 0 + i)).enable = false)) ∧
    (s3.wmc.armed = some (armed 10000000000) ∧ s3.wmc.shadow = some set5 ∧
      (armed 10000000000).at_ + (armed 10000000000).timeoutMs * 1000000 ≤ s3.now ∧
      s3.now < (armed 10000000001).at_ + (armed 10000000001).timeoutMs * 1000000 ∧
      (∃ p ∈ (armed 10000000000).affected, p ∉ s3.wmc.held)) ∧
    (let s := modWmc (fun w => { w with held := [0] }) s3
     (∀ p ∈ (armed 10000000000).affected, p ∈ s.wmc.held ∧ busyPart s p = false) ∧
      (∀ d, d < 16 → s.wmc.active.dmaOwner d = set5.dmaOwner d ∨ (s.dma d).enable = false) ∧
      stagedReason s set5.raw = 0 ∧ stagedReason s [] ≠ 0) ∧
    (let s := modWmc (fun w => { w with commitDue := some 1, nor := { w.nor with
        cfg0 := some { set := {}, committed := false }, cfg1 := some { set := set5, committed := false } } }) up
     s.wmc.commitDue ≠ none ∧ s.wmc.nor.cfg0 = some { set := {}, committed := false } ∧
      ({} : ConfigSet).setSeq = s.wmc.active.setSeq ∧ s.wmc.nor.cfg1 = some { set := set5, committed := false } ∧
      set5.setSeq ≠ s.wmc.active.setSeq) ∧ up.wmc.commitDue = none ∧
    (modCol (fun c => { c with coord := { valid := true, spare := true } }) up).col.coord.spare = true := by decide +kernel

theorem wit_ManagementAndSecurityMessages :
    let u : FwUpdate := { path := .i3c, slot := 1, cells := [], length := 0, verified := false }
    let s1 := modWmc (fun w => { w with update := some u }) up
    (up.wmcUp = true ∧ up.wmc.update = none ∧ s1.wmc.update = some u ∧ u.path = .i3c ∧ u.verified = false ∧
      ({ u with verified := true } : FwUpdate).verified = true) ∧
    verifyReason s1 (imageOf ((List.range u.length).map (fun i => tabGet 0#8 u.cells i))) ≠ 0 ∧
    verifyReason up Image.shipped = 0 ∧ sensorKnown 1 = true ∧ sensorKnown 0 = false ∧
    up.sec.trngFail = false ∧ (modSec (fun x => { x with trngFail := true }) up).sec.trngFail = true ∧
    (keyInUse up 0 = true ∧ keyInUse up 7 = false ∧ ckptRunning up 7 = false) := by decide +kernel

theorem wit_PowerClocksAndBoot :
    let row (k : RowClk) : State := modPwr (fun w => { w with rows := [(7, k)] }) up
    (35 < 36 ∧ ((row {}).rowClk 7).stretch = false ∧ ((row { stretch := true }).rowClk 7).stretch = true ∧
      ((row { ramp := some 19999998000, thermal := 2 }).rowClk 7).ramp = some 19999998000 ∧
      19999998000 + 2000 ≤ up.now ∧ up.now < 19999998001 + 2000 ∧ (up.rowClk 7).ramp = none) ∧
    (up.pwr.coolant = false ∧
      (modPwr (fun w => { w with coolant := true, sPower := 4, coolantOkAt := some 10000000000 }) up).pwr.coolant = true ∧
      10000000000 + 10000000000 ≤ up.now) ∧
    (2 ≤ (0x18#8).toNat ∧ (0x18#8).toNat ≤ 0x18) ∧
    (dieOf (0x3C#16).toNat = some (0, 400, 440) ∧ (440 : Int) ≤ (440#32).toInt ∧ up.wmc.railsOn = true) ∧
    (sensorKnown (0x0304#16).toNat = true ∧ dieOf (0x0201#16).toNat = none ∧ 0x0201#16 ≠ 0x0304#16 ∧
      sensorKnown (0x0201#16).toNat = true) ∧
    ((portIs { state := 2 }).portUp 0 = true ∧ (up.port 0).enable = true ∧ (up.port 0).state = 0) ∧
    (up.evt.fatal = false ∧ up.evt.fatalDue = false ∧ up.wmc.stage1On = true ∧ up.wmc.modRstLow = false) ∧
    (slotResult up 0 = 0 ∧ slotResult up 1 ≠ 0 ∧
      (let s := modWmc (fun w => { w with slot := 1 }) up
       slotResult s s.wmc.slot ≠ 0 ∧ slotResult s (1 - s.wmc.slot) = 0) ∧
      (let s := modWmc (fun w => { w with nor := { w.nor with slotA := w.nor.slotB } }) up
       slotResult s 0 ≠ 0 ∧ slotResult s 1 ≠ 0)) ∧
    (let s := modWmc (fun w => { w with step := 4, nor := { w.nor with cfg1 := some { set := { setSeq := 2 }, committed := true } } }) up
     s.wmc.step = 4 ∧ bootSets s = { setSeq := 2 } :: [] ∧ bootReason (applyT1Records s) { setSeq := 2 } = 0) ∧
    bootSets up = [] := by decide +kernel


/-! ### Every check of WellFormed refuses an ill-formed term -/

/-- A read error that returns more bytes than its line. -/
def longLine : ReadError := .t0Uncorrectable 0 0 0 (List.replicate 65 0)
/-- A chunk of the given bytes and rank. -/
def bareChunk (n rank : Nat) : Chunk :=
  { p := 0, group := 1, seq := 0, rank := rank, index := 0, last := true, data := List.replicate n 0, lanes := [],
    conv := none, ovf := [] }
/-- A training that reports n wavelengths. -/
def obs (n : Nat) : TrainObs :=
  { failed := none, partnerVer := 1, txEnob64 := List.replicate n 80, txEnob32 := List.replicate n 80,
    rxModes := List.replicate n 2, rxEnob := List.replicate n 80, monL := [], monC := [], monM := [], monR := [],
    farR := [], rttNs := 20 }
/-- A control flit at hop 2 of a route of one edge. -/
def pastRoute : StreamCtl :=
  { tag := 0, rev := 0, src := 0, dst := 1, group := 1, seq := 0, chunk := 0, fp := 0, route := [0], hop := 2 }
/-- A call of the rack in a round. -/
def rackCall (round : Nat) : CinchMsg :=
  { item := .rack, round := round, cause := 1, sender := 0, fp := 0, body := .call 0 }

theorem test_ill_formed_reads :
    Instr.wellFormed (.mxMul 0 0 [longLine]) = false ∧
    Instr.wellFormed (.patrolScrub [.t1Uncorrectable 0 0 0 0 0 (List.replicate 65 0)]) = false ∧
    Instr.wellFormed (.patrolScrub [.t0Uncorrectable 0 0 0 (List.replicate 64 0)]) = true := by decide
theorem test_ill_formed_flash_read :
    ReadError.wellFormed (.flashUncorrectable 0 0 0 0 0 (List.replicate 4097 0)) = false := by decide +kernel
theorem test_ill_formed_bar2 :
    Instr.wellFormed (.hostBar2Access 0 (2 ^ 40) (.read 4) []) = false ∧
    Instr.wellFormed (.hostBar2Access 0 0 (.read 0) []) = false ∧
    Instr.wellFormed (.hostBar2Access 0 0 (.write []) []) = false ∧
    Instr.wellFormed (.hostBar2Access 0 0 (.write [0]) []) = true := by decide
theorem test_ill_formed_streams :
    Instr.wellFormed (.streamOpen none pastRoute) = false ∧ Instr.wellFormed (.streamAck none pastRoute) = false ∧
    Instr.wellFormed (.streamClose none pastRoute) = false ∧ Instr.wellFormed (.streamRefuse none pastRoute) = false ∧
    Instr.wellFormed (.streamOpen none { pastRoute with hop := 1 }) = true := by decide
theorem test_ill_formed_chunk :
    Instr.wellFormed (.chunkReceive (bareChunk 64001 0)) = false ∧ Instr.wellFormed (.chunkReceive (bareChunk 8 16384)) = false ∧
    Instr.wellFormed (.chunkReceive (bareChunk 8 16383)) = true := by decide +kernel
theorem test_ill_formed_training :
    Instr.wellFormed (.portColdTrain 0 (obs 17)) = false ∧ Instr.wellFormed (.exoRetrain 0 (obs 17)) = false ∧
    Instr.wellFormed (.portColdTrain 0 (obs 18)) = true ∧
    Instr.wellFormed (.exoStepUp 0 [1] (List.replicate 18 1)) = false ∧
    Instr.wellFormed (.txSlot 0 (some { rxEnob := [], monL := [], monC := [], monM := [], monR := [] })) = false ∧
    Instr.wellFormed (.lcfReceive 0 0 (some (obs 17))) = false ∧ Instr.wellFormed (.biasCheck 0 [100]) = false := by decide
theorem test_ill_formed_messages :
    Instr.wellFormed (.cinchCall (rackCall 4)) = false ∧ Instr.wellFormed (.cinchCall (rackCall 3)) = true ∧
    Instr.wellFormed (.cinchReport (rackCall 0)) = false ∧
    Instr.wellFormed (.cinchReport { rackCall 0 with body := .reportGroup 0 none none [] }) = false ∧
    Instr.wellFormed (.cinchPropose { rackCall 0 with body := .proposalRack default }) = true ∧
    Instr.wellFormed (.cinchDecide { rackCall 0 with item := .group 0 1 0, body := .proposalRack default }) = false := by
  decide
theorem test_ill_formed_host :
    Instr.wellFormed (.dmaDescriptorStart 0 (BitVec.ofNat 256 (4 * 2 ^ 128)) [0, 0, 0, 0] 5 []) = false ∧
    Instr.wellFormed (.dmaDescriptorStart 0 (BitVec.ofNat 256 (4 * 2 ^ 128)) [0] 1 []) = false ∧
    Instr.wellFormed (.dmaDescriptorStart 0 (BitVec.ofNat 256 (4 * 2 ^ 128)) [0, 0, 0, 0] 4 []) = true ∧
    Instr.wellFormed (.noRegisterAccess 0 4) = false ∧ Instr.wellFormed (.misalignedRegisterAccess 0 8) = false := by
  decide
theorem test_ill_formed_management :
    Instr.wellFormed (.stageData .i3c 0 []) = false ∧ Instr.wellFormed (.firmwareDataTransfer .i3c 0 []) = false ∧
    Instr.wellFormed (.thermalLoopSample [500] 500) = false := by decide

/-! ### Numbers of the spec -/

/-- The table gives its rows no bits, so no word spells a command. -/
theorem test_no_word (n w : Nat) : decodeTableWord n w = none := rfl

/-- The table "FA40 examples" of 01_number_formats.md (R22). -/
theorem test_fa40_examples :
    toFa40 (ofFp32 0x3F800000#32) = 0x3F80000000#40 ∧ toFa40 (ofFp32 0x40490FDB#32) = 0x40490FDB00#40 ∧
    toFa40 (ofFp32 0xFFC12345#32) = 0x7FC0000000#40 ∧
    le 5 (toFa40 (ofFp32 0x40490FDB#32)).toNat = [0x00, 0xDB, 0x0F, 0x49, 0x40] := by decide +kernel

/-- The FP32 values 5.0, 13.0, 2.9, −0.3, 0.8 and +0 of "Worked block: cloud-mask logits to FP4". -/
def logits : List FVal := [0x40A00000#32, 0x41500000#32, 0x4039999A#32, 0xBE99999A#32, 0x3F4CCCCD#32, 0x00000000#32].map ofFp32

/-- The worked FP4 block (R20, R21): scale 0x80, codes 4, 7, 3, 8, 1, 0. -/
theorem test_fp4_block :
    deriveScale .fp4 logits = (0x80#8, false) ∧
    logits.map (fun v => (encodeElem .fp4 0x80#8 .rne v).1) = [0x4, 0x7, 0x3, 0x8, 0x1, 0x0] := by decide +kernel

/-- "Generator reference vector, all inputs zero" (R32), and element 0 of the block rounded with it (R30). -/
theorem test_generator :
    srWord 0 0 0 0 = 0x37B84604#32 ∧ (encodeElem .fp4 0x80#8 (.sr (srWord 0 0 0 0)) (ofFp32 0x40A00000#32)).1 = 0x4 := by
  decide +kernel

/-- Saturation of R25: 500 into E4M3 is 448 (code 0x7E), an infinity into E4M3 also, into E5M2 it stays infinite. -/
theorem test_saturation :
    encodeFmt .e4m3 (roundTo .e4m3 .rne (.fin false 500 0)).1 = 0x7E ∧
    encodeFmt .e4m3 (roundTo .e4m3 .rne (.inf true)).1 = 0xFE ∧
    encodeFmt .e5m2 (roundTo .e5m2 .rne (.inf false)).1 = 0x7C := by decide +kernel

/-- The contributions of element (17, 300) of the worked gradient of 04_backward_pass.md: 2.5, code 0x40_2000_0000. -/
theorem test_gab_sum :
    ([0x3F400000#32, 0xBE400000#32, 0x3FC00000#32, 0x3EE00000#32].map ofFp32).foldl
      (fun acc v => toFa40 ((ofFa40 acc).add v)) 0#40 = 0x4020000000#40 := by decide +kernel

/-- The worked admission: 120 passes of 512 rows, 63,059 array cycles are 35,033 ns, 64,386 are 35,770 ns (R62, R187). -/
theorem test_worked_cost :
    (foldBlocks 0 1024 5120).length = 40 ∧ ((foldBlocks 0 1024 5120).map (blockCycles 0 768 .c8 .e4m3 .e4m3)).sum = 61440 ∧
    cyclesNs 63059 = 35033 ∧ cyclesNs 64386 = 35770 := by decide +kernel

/-- 5120 × 768 and 768 × 5120 entries of 19_worked_training_step.md: 192 + 19,660,800 and 64 + 19,660,800 bytes (R109). -/
theorem test_entry_bytes :
    entryBytes 5120 768 = 192 + 19660800 ∧ entryBytes 768 5120 = 64 + 19660800 ∧ entryBytes 704 768 = 2703424 := by decide

/-- The links of R265: at 4.63 effective bits PAM6 has its 3.0 dB, at 3.72 bits PAM4 at 64 GBd has them and PAM6 not. -/
theorem test_margins :
    marginOk 74 4 = true ∧ marginOk 59 3 = true ∧ marginOk 59 4 = false := by decide

/-- e and 1/2 to the last bit of FP32 (R144). -/
theorem test_special_functions :
    toFp32 (vExp (.fin false 1 0)) = 0x402DF854#32 ∧ toFp32 (vLog (.fin false 2 0)) = 0x3F317218#32 ∧
    toFp32 (vRsqrt (.fin false 4 0)) = 0x3F000000#32 ∧ toFp32 (vRcp (.fin false 3 0)) = 0x3EAAAAAB#32 := by decide +kernel

/-- CRC-32C of the ASCII digits 1 to 9, the check value of the polynomial that R267 names; SHAKE256 of no bytes (FIPS 202). -/
theorem test_digests :
    crc32c [0x31, 0x32, 0x33, 0x34, 0x35, 0x36, 0x37, 0x38, 0x39] = 0xE3069283#32 ∧
    (shake512 []).take 8 = [0x46, 0xB9, 0xDD, 0x2B, 0x0B, 0xA8, 0x8D, 0x13] := by decide +kernel

end Sys2Proof.Tests
end

section
/-! PROOFS. The register maps and the host window (R8–R10, R357–R363): each register of the maps read and written once,
then the obligations O51 and O52. -/

namespace Sys2Proof.Machine

/-! ### Frames of operations -/

/-- A part outside the set of an operation stands as before. -/
theorem Keeps.same {m : Nat} {s t : State} {p : Part} (k : Keeps m s t) (h : m.testBit p.ctorIdx = false) :
    p.same s t :=
  (k.frame p).resolve_left (by simp [h])

theorem sameBut_eventD (code sev : Nat) (data : List Byte) (s : State) : SameBut eventParts s (eventD code sev data s) :=
  (keeps_eventD code sev data s).sameBut (by intro p; cases p <;> decide)

theorem noteErrors_nil (agent : Nat) (s : State) : noteErrors agent [] s = s := rfl

theorem meetErrors_nil (a : Acc) (body : State → State) (s : State) : meetErrors a [] body s = body s := rfl

theorem overlay_nil (p dva : Nat) (data : List Byte) : overlay p [] dva data = data := rfl

theorem whenReached_free {l : List Access} {body : State → State} {s : State} (h : s.blocked l = false) :
    whenReached l body s = body s := by
  simp [whenReached, h]

/-! ### Offsets of a grid -/

/-- An offset that is not a multiple of 8 is in no grid whose origin, step and displacements are. -/
theorem atGrid_misaligned {o lo step n : Nat} {regs : List Nat} (hn : o % 8 ≠ 0)
    (ha : lo % 8 = 0 ∧ step % 8 = 0 ∧ ∀ r ∈ regs, r % 8 = 0) : atGrid o lo step n regs = false := by
  obtain ⟨hlo, hstep, hregs⟩ := ha
  refine Bool.eq_false_iff.mpr (fun hg => ?_)
  simp only [atGrid, Bool.and_eq_true, decide_eq_true_eq, List.contains_iff_mem] at hg
  obtain ⟨⟨hle, -⟩, hmem⟩ := hg
  have hr : (o - lo) % step % 8 = 0 := hregs _ hmem
  rw [Nat.mod_mod_of_dvd _ (Nat.dvd_of_mod_eq_zero hstep)] at hr
  omega

theorem ne_of_misaligned {o c : Nat} (hn : o % 8 ≠ 0) (hc : c % 8 = 0) : o ≠ c := by
  omega

theorem beq_misaligned {o c : Nat} (hn : o % 8 ≠ 0) (hc : c % 8 = 0) : (o == c) = false :=
  beq_false_of_ne (ne_of_misaligned hn hc)

/-- A member of a grid, by its place and its displacement. -/
theorem atGrid_cases {o lo step n : Nat} {regs : List Nat} (hg : atGrid o lo step n regs = true) :
    ∃ k r, k < n ∧ r ∈ regs ∧ o = lo + step * k + r := by
  simp only [atGrid, Bool.and_eq_true, decide_eq_true_eq, List.contains_iff_mem] at hg
  obtain ⟨⟨hle, hk⟩, hr⟩ := hg
  exact ⟨_, _, hk, hr, by have := Nat.div_add_mod (o - lo) step; omega⟩

theorem atGrid_intro {o lo step n k r : Nat} {regs : List Nat} (ho : o = lo + step * k + r) (hk : k < n)
    (hr : r ∈ regs) (hlt : r < step) : atGrid o lo step n regs = true := by
  have e : o - lo = step * k + r := by omega
  have hd : (step * k + r) / step = k := by
    rw [Nat.mul_add_div (by omega), Nat.div_eq_of_lt hlt, Nat.add_zero]
  have hm : (step * k + r) % step = r := by rw [Nat.mul_add_mod, Nat.mod_eq_of_lt hlt]
  simp only [atGrid, e, hd, hm, Bool.and_eq_true, decide_eq_true_eq, List.contains_iff_mem]
  exact ⟨⟨by omega, hk⟩, hr⟩

/-! ### The registers of PF BAR0 -/

/-- No register of the PF lies at an offset that is not a multiple of 8 (R8). -/
theorem pfRegister_misaligned {off : Nat} (h : off % 8 ≠ 0) : pfRegister off = false := by
  have hBlock : off % 0x01000000 % 8 ≠ 0 := by omega
  have hPort : off % 0x01000000 % 0x1000 % 8 ≠ 0 := by omega
  unfold pfRegister
  simp only
  split <;> simp (disch := decide) only [atGrid_misaligned hBlock, beq_misaligned hBlock, atGrid_misaligned hPort,
    Bool.or_false, Bool.and_false]

/-- Every register lies at a multiple of 8 (R8). -/
theorem pfRegister_aligned {off : Nat} (h : pfRegister off = true) : off % 8 = 0 :=
  Decidable.byContradiction fun hn => Bool.false_ne_true ((pfRegister_misaligned hn).symm.trans h)

/-- No register of a VF's map lies at an offset that is not a multiple of 8 (R8). -/
theorem vfRegister_misaligned {o : Nat} (h : o % 8 ≠ 0) (n : Nat) : vfRegister n o = none := by
  simp (disch := decide) only [vfRegister, atGrid_misaligned h, ne_of_misaligned h, or_self, Bool.false_eq_true, if_false]

theorem vfRegister_aligned {n o r : Nat} (h : vfRegister n o = some r) : o % 8 = 0 :=
  Decidable.byContradiction fun hn => Option.some_ne_none r (h.symm.trans (vfRegister_misaligned hn n))

/-- The registers of the TCS block. -/
theorem pfRegister_tcs {off o : Nat} (e : off = 0x03000000 + o) (ho : o < 0x01000000) : pfRegister off =
    (atGrid o 0 0x20 256 [0, 8, 0x10] || atGrid o 0x2000 0x10 8 [0, 8] || atGrid o 0x2100 8 8 [0] ||
      atGrid o 0x00100000 8 65536 [0]) := by
  have hb : off / 0x01000000 = 3 := by omega
  have hm : off % 0x01000000 = o := by omega
  simp only [pfRegister, hb, hm]

/-- The mailbox registers of the MEM block (R204). -/
theorem pfRegister_mailbox {off o : Nat} (e : off = 0x04000000 + o) (ho : o < 0x01000000)
    (h : atGrid o 0x1000 0x40 8 [0, 8, 16, 24, 32] = true) : pfRegister off = true := by
  have hb : off / 0x01000000 = 4 := by omega
  have hm : off % 0x01000000 = o := by omega
  simp only [pfRegister, hb, hm, h, Bool.or_true, Bool.true_or]

/-- The ABI and window registers of the functions and the registers of the DMA engines (R363, R367, R373). -/
theorem pfRegister_pci {off o : Nat} (e : off = 0x09000000 + o) (ho : o < 0x01000000)
    (h : (atGrid o 0x0100 8 9 [0] || atGrid o 0x0200 8 9 [0] || atGrid o 0x1000 0x20 16 [0, 8, 0x10]) = true) :
    pfRegister off = true := by
  have hb : off / 0x01000000 = 9 := by omega
  have hm : off % 0x01000000 = o := by omega
  simp only [Bool.or_eq_true] at h
  rcases h with (h | h) | h <;> simp only [pfRegister, hb, hm, h, Bool.or_true, Bool.true_or]

/-- The counters of the partitions (R439). -/
theorem pfRegister_partCnt {off o : Nat} (e : off = 0x0E000000 + o) (ho : o < 0x01000000)
    (h : atGrid o 0x0100 0x40 8 [0, 8, 16, 24, 32, 40] = true) : pfRegister off = true := by
  have hb : off / 0x01000000 = 14 := by omega
  have hm : off % 0x01000000 = o := by omega
  simp only [pfRegister, hb, hm, h, Bool.or_true, Bool.true_or]

theorem pfRegister_queue {off q reg : Nat} (e : off = 0x03000000 + 0x20 * q + reg) (hq : q < 256)
    (hr : reg ∈ [0, 8, 0x10]) : pfRegister off = true := by
  have hlt : reg < 0x20 := by simp only [List.mem_cons, List.not_mem_nil, or_false] at hr; omega
  have hg : atGrid (0x20 * q + reg) 0 0x20 256 [0, 8, 0x10] = true := atGrid_intro (by omega) hq hr hlt
  simp only [pfRegister_tcs (off := off) (o := 0x20 * q + reg) (by omega) (by omega), hg, Bool.true_or]

/-- The PF counterpart of a VF register is a register of PF BAR0 (R359). -/
theorem pfRegister_of_vfRegister {n o r : Nat} (hn : n < 8) (h : vfRegister n o = some r) : pfRegister r = true := by
  unfold vfRegister at h
  split at h
  next _ =>
    replace h := Option.some.inj h
    have hg : atGrid (0x0100 + 8 * (n + 1)) 0x0100 8 9 [0] = true :=
      atGrid_intro (k := n + 1) (r := 0) rfl (by omega) (by simp) (by omega)
    exact pfRegister_pci (o := 0x0100 + 8 * (n + 1)) (by omega) (by omega) (by simp only [hg, Bool.true_or])
  split at h
  next _ =>
    replace h := Option.some.inj h
    have hg : atGrid (0x0200 + 8 * (n + 1)) 0x0200 8 9 [0] = true :=
      atGrid_intro (k := n + 1) (r := 0) rfl (by omega) (by simp) (by omega)
    exact pfRegister_pci (o := 0x0200 + 8 * (n + 1)) (by omega) (by omega)
      (by simp only [hg, Bool.or_true, Bool.true_or])
  split at h
  next hQueue =>
    replace h := Option.some.inj h
    obtain ⟨k, reg, hk, hr, rfl⟩ := atGrid_cases hQueue
    exact pfRegister_queue (q := 32 * n + k) (by omega) (by omega) hr
  split at h
  next hResp =>
    replace h := Option.some.inj h
    have hg : atGrid (0x2000 + 0x10 * n + (o - 0x2000)) 0x2000 0x10 8 [0, 8] = true :=
      atGrid_intro rfl hn (by simp only [List.mem_cons, List.not_mem_nil, or_false]; omega) (by omega)
    simp only [pfRegister_tcs (off := r) (o := 0x2000 + 0x10 * n + (o - 0x2000)) (by omega) (by omega), hg, Bool.or_true,
      Bool.true_or]
  split at h
  next _ =>
    replace h := Option.some.inj h
    have hg : atGrid (0x2100 + 8 * n) 0x2100 8 8 [0] = true := atGrid_intro (r := 0) rfl hn (by simp) (by omega)
    simp only [pfRegister_tcs (off := r) (o := 0x2100 + 8 * n) (by omega) (by omega), hg, Bool.or_true, Bool.true_or]
  split at h
  next hMail =>
    replace h := Option.some.inj h
    obtain ⟨k, reg, hk, hr, rfl⟩ := atGrid_cases hMail
    have hreg : reg = 0 := by simpa using hr
    exact pfRegister_mailbox (o := 0x1000 + 0x40 * n + 8 * k) (by omega) (by omega)
      (atGrid_intro rfl hn (by simp only [List.mem_cons, List.not_mem_nil, or_false]; omega) (by omega))
  split at h
  next hCnt =>
    replace h := Option.some.inj h
    exact pfRegister_partCnt (o := 0x0100 + 0x40 * n + (0x18 + (o - 0x2080))) (by omega) (by omega)
      (atGrid_intro rfl hn (by simp only [List.mem_cons, List.not_mem_nil, or_false]; omega) (by omega))
  split at h
  next hDma =>
    replace h := Option.some.inj h
    obtain ⟨k, reg, hk, hr, rfl⟩ := atGrid_cases hDma
    have hlt : reg < 0x20 := by simp only [List.mem_cons, List.not_mem_nil, or_false] at hr; omega
    have hg : atGrid (0x1000 + 0x20 * k + reg) 0x1000 0x20 16 [0, 8, 0x10] = true := atGrid_intro rfl hk hr hlt
    exact pfRegister_pci (o := 0x1000 + 0x20 * k + reg) (by omega) (by omega) (by simp only [hg, Bool.or_true])
  split at h
  next hKick =>
    replace h := Option.some.inj h
    obtain ⟨k, reg, hk, hr, rfl⟩ := atGrid_cases hKick
    have hreg : reg = 0 := by simpa using hr
    exact pfRegister_queue (q := 32 * n + k) (reg := 0x10) (by omega) (by omega) (by simp)
  cases h

/-- PF BAR0 ends below 2^32 (R357). -/
theorem pfRegister_lt {off : Nat} (h : pfRegister off = true) : off < 2 ^ 32 := by
  unfold pfRegister at h
  simp only at h
  split at h
  case h_15 => cases h
  all_goals omega

/-! ### Register accesses -/

theorem exec_registerWrite (fn : Func) (off : BitVec 32) (half : RegHalf) (v : BitVec 64) (s : State) :
    exec (.registerWrite fn off half v) s = execRegisterWrite fn off half v s := rfl

theorem exec_registerWrite_misaligned {off : BitVec 32} (h : off.toNat % 8 ≠ 0) (fn : Func) (half : RegHalf)
    (v : BitVec 64) (s : State) :
    exec (.registerWrite fn off half v) s = .next (misaligned fn off.toNat s) := by
  simp only [exec_registerWrite, execRegisterWrite, if_pos h]

/-- A write of the PF to a register (R8). -/
theorem exec_registerWrite_pf {off : Nat} (h : pfRegister off = true) (half : RegHalf) (v : BitVec 64) (s : State) :
    exec (.registerWrite 0 (BitVec.ofNat 32 off) half v) s = .next (writePf off half v s) := by
  have e : (BitVec.ofNat 32 off).toNat = off := Nat.mod_eq_of_lt (pfRegister_lt h)
  simp [exec_registerWrite, execRegisterWrite, e, pfRegister_aligned h, h]

/-- An aligned write of the PF where no register lies (R357). -/
theorem exec_registerWrite_noRegister {off : BitVec 32} (ha : off.toNat % 8 = 0) (h : pfRegister off.toNat = false)
    (half : RegHalf) (v : BitVec 64) (s : State) :
    exec (.registerWrite 0 off half v) s = .next (noRegister 0 off.toNat s) := by
  simp [exec_registerWrite, execRegisterWrite, ha, h]

/-- A write of a VF to a register of its map (R359). -/
theorem exec_registerWrite_vf {fn : Func} {off : BitVec 32} {o : Nat} (hf : fn.val ≠ 0)
    (h : vfRegister (fn.val - 1) off.toNat = some o) (half : RegHalf) (v : BitVec 64) (s : State) :
    exec (.registerWrite fn off half v) s = .next
      (if 0x3000 ≤ off.toNat ∧ off.toNat < 0x3200 ∧ s.dmaOwner ((off.toNat - 0x3000) / 0x20) ≠ some (fn.val - 1) then s
        else writePf o half v s) := by
  simp only [exec_registerWrite, execRegisterWrite, vfRegister_aligned h, ne_eq, not_true_eq_false, if_false,
    if_neg hf, h]

theorem readReg_pf (s : State) (off : Nat) : s.readReg 0 off = s.readPf off := by simp [State.readReg]

theorem readPf_noRegister {off : Nat} (h : pfRegister off = false) (s : State) : s.readPf off = 0 := by
  simp [State.readPf, h]

/-- What a register of a VF's map reads as (R359). -/
theorem readReg_vf {n off o : Nat} (hn : n ≠ 0) (h : vfRegister (n - 1) off = some o) (s : State) :
    s.readReg n off =
      if 0x3000 ≤ off ∧ off < 0x3200 ∧ s.dmaOwner ((off - 0x3000) / 0x20) ≠ some (n - 1) then 0 else s.readPf o := by
  simp only [State.readReg, if_neg hn, h]

/-- No function reads a register at an offset that is not a multiple of 8 (R8). -/
theorem readReg_misaligned {off : Nat} (h : off % 8 ≠ 0) (fn : Nat) (s : State) : s.readReg fn off = 0 := by
  have hp : pfRegister off = false := pfRegister_misaligned h
  have hv : vfRegister (fn - 1) off = none := vfRegister_misaligned h (fn - 1)
  have h5 : off ≠ 0x5000 := by omega
  by_cases hf : fn = 0
  · simp only [hf, readReg_pf, readPf_noRegister hp]
  · simp [State.readReg, hf, hv, h, h5]

/-! ### The registers of a queue and of a mailbox -/

theorem writePf_queue {off q reg : Nat} (e : off = 0x03000000 + 0x20 * q + reg) (hq : q < 256) (hr : reg < 0x20)
    (half : RegHalf) (v : BitVec 64) (s : State) : writePf off half v s = writeQueueReg q reg half v s := by
  have hb : off / 0x01000000 = 3 := by omega
  have hm : off % 0x01000000 = 0x20 * q + reg := by omega
  have hd : (0x20 * q + reg) / 0x20 = q := by omega
  have hr' : (0x20 * q + reg) % 0x20 = reg := by omega
  simp only [writePf, hb, hm, hd, hr', if_pos (show 0x20 * q + reg < 0x2000 by omega)]

theorem writePf_mail {off p j : Nat} (e : off = 0x04001000 + 0x40 * p + 8 * j) (hp : p < 8) (hj : j < 4)
    (half : RegHalf) (v : BitVec 64) (s : State) : writePf off half v s = writeMailReg p j half v s := by
  have hb : off / 0x01000000 = 4 := by omega
  have hd : (off % 0x01000000 - 0x1000) / 0x40 = p := by omega
  have hr : off % 0x01000000 % 0x40 / 8 = j := by omega
  have hc : 0x1000 ≤ off % 0x01000000 ∧ off % 0x01000000 < 0x1200 ∧ off % 0x01000000 % 0x40 < 0x20 := by omega
  simp only [writePf, hb, hd, hr, if_pos hc]

/-- The offset of an argument register of a mailbox (R204). -/
theorem pfRegister_mail {off p j : Nat} (e : off = 0x04001000 + 0x40 * p + 8 * j) (hp : p < 8) (hj : j < 4) :
    pfRegister off = true :=
  pfRegister_mailbox (o := 0x1000 + 0x40 * p + 8 * j) (by omega) (by omega)
    (atGrid_intro rfl hp (by simp only [List.mem_cons, List.not_mem_nil, or_false]; omega) (by omega))

theorem readPf_mail {off p j : Nat} (e : off = 0x04001000 + 0x40 * p + 8 * j) (hp : p < 8) (hj : j < 4) (s : State) :
    s.readPf off = tabGet 0 s.mem.mbox (4 * p + j) := by
  obtain ⟨o, ho, hm⟩ : ∃ o, off % 0x01000000 = o ∧ o = 0x1000 + 0x40 * p + 8 * j := ⟨_, rfl, by omega⟩
  have hb : off / 0x01000000 = 4 := by omega
  have hd : (o - 0x1000) / 0x40 = p := by omega
  have hr : o % 0x40 / 8 = j := by omega
  have h0 : o ≠ 0 := by omega
  simp only [State.readPf, pfRegister_mail e hp hj, hb, ho, State.readMem, h0, hd, hr, if_pos hj,
    if_pos (show o < 0x2000 by omega), if_neg (show ¬ o < 0x80 by omega), if_neg (show ¬ o < 0xC0 by omega),
    if_neg (show ¬ o < 0x200 by omega), if_neg (show ¬ o < 0x240 by omega), if_neg (show ¬ o < 0x318 by omega),
    Bool.not_true, Bool.false_eq_true, if_false]

theorem mbox_writeMailReg_same (p j : Nat) (half : RegHalf) (v : BitVec 64) (s : State) :
    tabGet 0 (writeMailReg p j half v s).mem.mbox (4 * p + j) =
      mergeHalf (tabGet 0 s.mem.mbox (4 * p + j)) half v := by
  simp [writeMailReg]

theorem mbox_writeMailReg_ne {p j k : Nat} (h : k ≠ 4 * p + j) (half : RegHalf) (v : BitVec 64) (s : State) :
    tabGet 0 (writeMailReg p j half v s).mem.mbox k = tabGet 0 s.mem.mbox k := by
  simp [writeMailReg, tabGet_put_ne _ _ _ h]

theorem sameBut_writeMailReg (p j : Nat) (half : RegHalf) (v : BitVec 64) (s : State) :
    SameBut [.mailbox] s (writeMailReg p j half v s) :=
  (keeps_writeMailReg p j half v s).sameBut (by intro p; cases p <;> decide)

/-! ### Halves of a register (R8) -/

theorem mergeHalf_low (old v : BitVec 64) :
    (mergeHalf old .low v).extractLsb' 0 32 = v.extractLsb' 0 32 ∧
    (mergeHalf old .low v).extractLsb' 32 32 = old.extractLsb' 32 32 :=
  ⟨BitVec.extractLsb'_append_eq_right, BitVec.extractLsb'_append_eq_left⟩

theorem mergeHalf_high (old v : BitVec 64) :
    (mergeHalf old .high v).extractLsb' 32 32 = v.extractLsb' 0 32 ∧
    (mergeHalf old .high v).extractLsb' 0 32 = old.extractLsb' 0 32 :=
  ⟨BitVec.extractLsb'_append_eq_left, BitVec.extractLsb'_append_eq_right⟩

theorem readBar0_full {off : Nat} (h : off % 8 = 0) (fn : Nat) (s : State) :
    s.readBar0 fn off 64 = s.readReg fn off := by
  simp [State.readBar0, h]

theorem readBar0_low {off : Nat} (h : off % 8 = 0) (fn : Nat) (s : State) :
    (s.readBar0 fn off 32).toNat = (s.readReg fn off).toNat % 2 ^ 32 := by
  have hSize : ¬ ((32 : Nat) = 64 ∧ off % 8 = 0) := by omega
  rw [State.readBar0, if_neg hSize, if_pos ⟨rfl, h⟩, BitVec.toNat_setWidth, BitVec.extractLsb'_toNat, Nat.shiftRight_zero]
  exact Nat.mod_eq_of_lt (by omega)

theorem readBar0_high {off : Nat} (h : off % 8 = 0) (fn : Nat) (s : State) :
    (s.readBar0 fn (off + 4) 32).toNat = (s.readReg fn off).toNat / 2 ^ 32 := by
  have hSize : ¬ ((32 : Nat) = 64 ∧ (off + 4) % 8 = 0) := by omega
  have hLow : ¬ ((32 : Nat) = 32 ∧ (off + 4) % 8 = 0) := by omega
  have hReg : (s.readReg fn off).toNat < 2 ^ 64 := (s.readReg fn off).isLt
  rw [State.readBar0, if_neg hSize, if_neg hLow, if_pos ⟨rfl, by omega⟩, Nat.add_sub_cancel, BitVec.toNat_setWidth,
    BitVec.extractLsb'_toNat, Nat.shiftRight_eq_div_pow]
  omega

/-- An access that is neither of 64 bits at a multiple of 8 nor of 32 bits at a multiple of 4 reads as zero. -/
theorem readBar0_other {off bits : Nat} (h : off % 4 ≠ 0 ∨ (bits ≠ 32 ∧ (bits ≠ 64 ∨ off % 8 ≠ 0))) (fn : Nat)
    (s : State) : s.readBar0 fn off bits = 0 := by
  have h64 : ¬ (bits = 64 ∧ off % 8 = 0) := by omega
  have hlow : ¬ (bits = 32 ∧ off % 8 = 0) := by omega
  have hhigh : ¬ (bits = 32 ∧ off % 8 = 4) := by omega
  simp only [State.readBar0, if_neg h64, if_neg hlow, if_neg hhigh]

/-! ### O51 -/

/-- Event 0x0901 is the whole effect of a misaligned access, in every form it may reach the model (R8). -/
theorem misaligned_access (fn : Func) (off : BitVec 32) (s : State) :
    exec (.misalignedRegisterAccess fn off) s = .next (eventD 0x0901 1 (le 1 fn ++ le 4 off.toNat) s) ∧
    (off.toNat % 8 ≠ 0 → s.readReg fn off.toNat = 0 ∧
      ∀ half v, exec (.registerWrite fn off half v) s = .next (eventD 0x0901 1 (le 1 fn ++ le 4 off.toNat) s)) :=
  ⟨rfl, fun h => ⟨readReg_misaligned h fn s, fun half v => exec_registerWrite_misaligned h fn half v s⟩⟩

/-- A write of an argument register of a mailbox merges the half written, and touches no other register (R8, R204). -/
theorem exec_registerWrite_mail {off p j : Nat} (e : off = 0x04001000 + 0x40 * p + 8 * j) (hp : p < 8) (hj : j < 4)
    (half : RegHalf) (v : BitVec 64) (s : State) :
    ∃ t, exec (.registerWrite 0 (BitVec.ofNat 32 off) half v) s = .next t ∧
      t.readReg 0 off = mergeHalf (s.readReg 0 off) half v ∧
      (∀ k, k ≠ 4 * p + j → tabGet 0 t.mem.mbox k = tabGet 0 s.mem.mbox k) ∧ SameBut [.mailbox] s t := by
  refine ⟨writeMailReg p j half v s, ?_, ?_, fun k hk => mbox_writeMailReg_ne hk half v s,
    sameBut_writeMailReg p j half v s⟩
  · rw [exec_registerWrite_pf (pfRegister_mail e hp hj), writePf_mail e hp hj]
  · simp only [readReg_pf, readPf_mail e hp hj, mbox_writeMailReg_same]

/-- Settles O51: an access outside the two forms of R8 is event 0x0901 alone, because no register of either map lies at
an offset that is not a multiple of 8; a full or half write is `mergeHalf`, a read of a half its bits. -/
theorem registerAccessForms : Obligations.RegisterAccessForms := by
  refine ⟨fun fn off s => ?_, fun fn off s h => ⟨readBar0_full h fn s, readBar0_low h fn s, readBar0_high h fn s⟩,
    fun fn off bits s h => readBar0_other h fn s, fun old v => ?_, fun p j half v s => ?_⟩
  · obtain ⟨hRow, hWrite⟩ := misaligned_access fn off s
    exact ⟨hRow, hWrite, sameBut_eventD _ _ _ s⟩
  · obtain ⟨hll, hlh⟩ := mergeHalf_low old v
    obtain ⟨hhh, hhl⟩ := mergeHalf_high old v
    exact ⟨rfl, hll, hlh, hhh, hhl⟩
  · exact exec_registerWrite_mail rfl p.isLt j.isLt half v s

/-! ### Where no register lies, and the map of a VF (R357, R359) -/

theorem exec_noRegisterAccess (fn : Func) (off : BitVec 32) (s : State) :
    exec (.noRegisterAccess fn off) s = .next (eventD 0x0902 1 (le 1 fn ++ le 4 off.toNat) s) := rfl

/-- A write of a VF acts as the PF's write of the counterpart, but at an engine of another partition (R359, R367). -/
theorem vf_register_access {fn : Func} {off : BitVec 32} {o : Nat} (hf : fn.val ≠ 0)
    (h : vfRegister (fn.val - 1) off.toNat = some o) (s : State) :
    let foreign : Prop := 0x3000 ≤ off.toNat ∧ off.toNat < 0x3200 ∧
      s.dmaOwner ((off.toNat - 0x3000) / 0x20) ≠ some (fn.val - 1)
    (¬ foreign → s.readReg fn off.toNat = s.readReg 0 o ∧ ∀ half v,
      exec (.registerWrite fn off half v) s = exec (.registerWrite 0 (BitVec.ofNat 32 o) half v) s) ∧
    (foreign → s.readReg fn off.toNat = 0 ∧ ∀ half v, exec (.registerWrite fn off half v) s = .next s) := by
  intro foreign
  have hp : pfRegister o = true := pfRegister_of_vfRegister (by omega) h
  constructor
  · intro hOwn
    refine ⟨by rw [readReg_vf hf h, if_neg hOwn, readReg_pf], fun half v => ?_⟩
    rw [exec_registerWrite_vf hf h, if_neg hOwn, exec_registerWrite_pf hp]
  · intro hForeign
    refine ⟨by rw [readReg_vf hf h, if_pos hForeign], fun half v => ?_⟩
    rw [exec_registerWrite_vf hf h, if_pos hForeign]

/-! ### Queue registers (R165) -/

theorem exec_registerWrite_queue {off q reg : Nat} (e : off = 0x03000000 + 0x20 * q + reg) (hq : q < 256)
    (hr : reg ∈ [0, 8, 0x10]) (half : RegHalf) (v : BitVec 64) (s : State) :
    exec (.registerWrite 0 (BitVec.ofNat 32 off) half v) s = .next (writeQueueReg q reg half v s) := by
  have hlt : reg < 0x20 := by simp only [List.mem_cons, List.not_mem_nil, or_false] at hr; omega
  rw [exec_registerWrite_pf (pfRegister_queue e hq hr), writePf_queue e hq hlt]

theorem writeQueueReg_base_disabled {q : Nat} {s : State} (h : (s.queue q).enable = false) (v : BitVec 64) :
    writeQueueReg q 0 .full v s = setQueue q { s.queue q with base := dvaBase v } s := by
  simp [writeQueueReg, h, mergeHalf]

theorem writeQueueReg_base_enabled {q : Nat} {s : State} (h : (s.queue q).enable = true) (v : BitVec 64) :
    writeQueueReg q 0 .full v s = s := by
  simp [writeQueueReg, h]

/-- What a full write of TCS_Qn_CTL leaves in the queue. -/
def Queue.withCtl (k : Queue) (v : BitVec 64) : Queue :=
  { k with vector := (v.extractLsb' 10 11).toNat, sizeCode := newSize k.enable k.sizeCode v }

theorem writeQueueReg_ctl (q : Nat) (v : BitVec 64) (s : State) :
    writeQueueReg q 8 .full v s = revector q .full (setQueue q ((s.queue q).withCtl v) s) := rfl

theorem newSize_eq (locked : Bool) (old : Nat) (w : BitVec 64) :
    newSize locked old w =
      if locked = true ∨ 11 ≤ (w.extractLsb' 0 4).toNat then old else (w.extractLsb' 0 4).toNat := by
  simp [newSize]

@[simp] theorem queue_revector (q source : Nat) (half : RegHalf) (s : State) :
    (revector source half s).queue q = s.queue q := by
  unfold revector; split <;> rfl

theorem not_mem_badVec_revector (source : Nat) (s : State) : source ∉ (revector source .full s).pci.badVec := by
  simp [revector, touchesLow]

/-! ### The link (R350), ABI offers (R373) -/

theorem exec_linkChange_same {speed : BitVec 3} {width : BitVec 5} {s : State} (hs : s.pci.speed = speed.toNat)
    (hw : s.pci.width = width.toNat) (flit : Bool) :
    exec (.linkChange speed width flit) s = .next (modPci (fun p => { p with flit := flit }) s) :=
  congrArg Host.Outcome.next (if_pos ⟨hs, hw⟩)

/-- PCI_LINK after a change of speed or width. -/
def linkTo (speed : BitVec 3) (width : BitVec 5) (flit : Bool) (s : State) : State :=
  modPci (fun p => { p with speed := speed.toNat, width := width.toNat, flit := flit,
                            changes := satAdd 16 p.changes 1 }) s

theorem exec_linkChange_new {speed : BitVec 3} {width : BitVec 5} {s : State}
    (h : ¬ (s.pci.speed = speed.toNat ∧ s.pci.width = width.toNat)) (flit : Bool) :
    exec (.linkChange speed width flit) s = .next (eventD 0x0905 1
      (le 1 s.pci.speed ++ le 1 s.pci.width ++ le 1 speed.toNat ++ le 1 width.toNat ++ le 1 (if flit then 1 else 0))
      (linkTo speed width flit s)) :=
  congrArg Host.Outcome.next (if_neg h)

/-- The registers of an ABI offer that is taken (R373). -/
def Abi.offered (major minor : Byte) : Abi where
  activeMajor := if 1 ≤ major.toNat then 1 else 0
  activeMinor := 0
  hostMajor := major.toNat
  hostMinor := minor.toNat

theorem exec_pciAbiOffer_taken {fn : Func} {s : State} (h : s.abiBusy fn = none) (major minor : Byte) :
    exec (.pciAbiOffer fn major minor) s =
      .next (modPci (fun p => { p with abi := tabPut {} p.abi fn (Abi.offered major minor) }) s) := by
  change execPciAbiOffer fn major minor s = _
  simp only [execPciAbiOffer, h, Abi.offered]

theorem exec_pciAbiOffer_busy {fn : Func} {p : Nat} {s : State} (h : s.abiBusy fn = some p) (major minor : Byte) :
    exec (.pciAbiOffer fn major minor) s =
      .next (eventAbi fn (if fn.val = 0 then none else some p) (abiOffset fn) s) := by
  change execPciAbiOffer fn major minor s = _
  simp only [execPciAbiOffer, h]

/-! ### The BAR2 window (R361–R363) -/

/-- A poisoned write is noted for AER, discarded and recorded (R363). -/
theorem exec_bar2_poisoned (fn : Func) (off : Nat) (d : List Byte) (errs : List ReadError) (s : State) :
    exec (.hostBar2Access fn off (.poisoned d) errs) s =
      .next (eventD 0x0907 1 (le 1 fn.val ++ le 1 2 ++ le 8 off)
        (modPci (fun p => { p with cfg := tabMod {} p.cfg 0 (fun c => { c with poisoned := some fn.val }) }) s)) := rfl

/-- What a read of a range of a partition leaves whose bolts are within reach: the data for the host, the placements, and
the events of what the read met. -/
def windowRead (a : Acc) (p dva len : Nat) (errs : List ReadError) (s : State) : State :=
  noteErrors 7 errs (eventUnmapped a (s.unmappedIn p dva len)
    (modPci (fun x => { x with bar2Data := overlay p errs dva (s.readBytes a dva len) }) (touchRead a false dva len s)))

/-- What a write of bytes to a partition leaves whose bolts are within reach. -/
def windowWrite (a : Acc) (p dva : Nat) (data : List Byte) (errs : List ReadError) (s : State) : State :=
  meetErrors a errs (fun s => eventUnmapped a (s.unmappedIn p dva data.length) (memWrite a dva data s)) s

theorem windowWrite_noErrors (a : Acc) (p dva : Nat) (data : List Byte) (s : State) :
    windowWrite a p dva data [] s = eventUnmapped a (s.unmappedIn p dva data.length) (memWrite a dva data s) :=
  meetErrors_nil a _ s

theorem exec_bar2_read {fn : Func} {off len : Nat} {s : State}
    (h : s.blocked (readsOf (hostAcc fn (s.winOf fn).2) [((s.winOf fn).1 + off, len)]) = false)
    (errs : List ReadError) :
    exec (.hostBar2Access fn off (.read len) errs) s =
      .next (windowRead (hostAcc fn (s.winOf fn).2) (s.winOf fn).2 ((s.winOf fn).1 + off) len errs s) :=
  congrArg Host.Outcome.next (whenReached_free h)

theorem exec_bar2_write {fn : Func} {off : Nat} {data : List Byte} {s : State}
    (h : s.blocked (writesOf (hostAcc fn (s.winOf fn).2) [((s.winOf fn).1 + off, data.length)]) = false)
    (errs : List ReadError) :
    exec (.hostBar2Access fn off (.write data) errs) s =
      .next (windowWrite (hostAcc fn (s.winOf fn).2) (s.winOf fn).2 ((s.winOf fn).1 + off) data errs s) :=
  congrArg Host.Outcome.next (whenReached_free h)

theorem sameBut_bar2 {fn : Func} {off : Nat} {acc : Bar2Access} {errs : List ReadError} {s t : State}
    (e : exec (.hostBar2Access fn off acc errs) s = .next t) :
    SameBut (partsOf (.hostBar2Access fn off acc errs)) s t := by
  have hParts : partsOf (.hostBar2Access fn off acc errs) = partsOf (.hostBar2Access 0 0 (.read 0) []) := rfl
  rw [hParts]
  exact (keeps_execHostBar2Access fn off acc errs s t e).sameBut (by intro p; cases p <;> decide)

/-- The events that follow a read leave the data it returned. -/
theorem bar2Data_windowRead (a : Acc) (p dva len : Nat) (errs : List ReadError) (s : State) :
    (windowRead a p dva len errs s).pci.bar2Data = overlay p errs dva (s.readBytes a dva len) := by
  have hUnmapped := (keeps_eventUnmapped a (s.unmappedIn p dva len)
    (modPci (fun x => { x with bar2Data := overlay p errs dva (s.readBytes a dva len) })
      (touchRead a false dva len s))).same (p := .bar2) (by decide)
  exact (hUnmapped.trans ((keeps_noteErrors 7 errs _).same (p := .bar2) (by decide))).symm

/-- A read without errors of a range that lies in regions. -/
theorem windowRead_mapped {p dva len : Nat} {s : State} (h : s.unmappedIn p dva len = none) (a : Acc) :
    windowRead a p dva len [] s =
      modPci (fun x => { x with bar2Data := s.readBytes a dva len }) (touchRead a false dva len s) := by
  simp only [windowRead, noteErrors_nil, h, overlay_nil, eventUnmapped]

theorem bytes_touchRead (a : Acc) (ra : Bool) (dva len : Nat) (s : State) :
    (touchRead a ra dva len s).mem.bytes = s.mem.bytes :=
  ((keeps_touchRead a ra dva len s).same (p := .bytes) (by decide)).symm

theorem sameBut_bar2Data (data : List Byte) (s : State) :
    SameBut [.bar2] s (modPci (fun p => { p with bar2Data := data }) s) := by
  intro p; cases p <;> simp [Part.same]

/-- Such a read moves bolts, and leaves everything else but the data returned. -/
theorem sameBut_windowRead_mapped {p dva len : Nat} {s : State} (h : s.unmappedIn p dva len = none) (a : Acc) :
    SameBut [.bar2, .bolts, .flash, .runAhead, .journal] s (windowRead a p dva len [] s) := by
  have hTouch : SameBut [.bar2, .bolts, .flash, .runAhead, .journal] s (touchRead a false dva len s) :=
    (keeps_touchRead a false dva len s).sameBut (by intro p; cases p <;> decide)
  rw [windowRead_mapped h]
  exact hTouch.trans ((sameBut_bar2Data _ _).mono (by simp))

/-! ### Read pointers (R134, R194, R451) -/

theorem respRing_setResp_same (p : Nat) (r : RespRing) (s : State) : (setResp p r s).respRing p = r := by
  simp [State.respRing, setResp]

theorem respRing_setResp_ne {p j : Nat} (h : j ≠ p) (r : RespRing) (s : State) :
    (setResp p r s).respRing j = s.respRing j := by
  simp [State.respRing, setResp, tabGet_put_ne _ _ _ h]

theorem sameBut_setResp (p : Nat) (r : RespRing) (s : State) : SameBut [.response] s (setResp p r s) := by
  intro p; cases p <;> simp [Part.same, setResp]

/-! ### The clauses of O52 -/

/-- The queue's base and control registers (R165). -/
theorem queue_register_writes (q : QIdx) (v : BitVec 64) (s : State) :
    ((s.queue q).enable = false → ∃ t,
      exec (.registerWrite 0 (BitVec.ofNat 32 (0x03000000 + 0x20 * q.val)) .full v) s = .next t ∧ OtherQueues q s t ∧
      t.queue q = { s.queue q with base := v.extractLsb' 12 40 ++ 0#12 } ∧ SameBut [.queues] s t) ∧
    ((s.queue q).enable = true →
      exec (.registerWrite 0 (BitVec.ofNat 32 (0x03000000 + 0x20 * q.val)) .full v) s = .next s) ∧
    (∃ t, exec (.registerWrite 0 (BitVec.ofNat 32 (0x03000008 + 0x20 * q.val)) .full v) s = .next t ∧
      OtherQueues q s t ∧ q.val ∉ t.pci.badVec ∧
      t.queue q = { s.queue q with
        vector := (v.extractLsb' 10 11).toNat
        sizeCode := if (s.queue q).enable = true ∨ 11 ≤ (v.extractLsb' 0 4).toNat then (s.queue q).sizeCode
          else (v.extractLsb' 0 4).toNat } ∧ SameBut [.queues, .messages] s t) := by
  have hBase := exec_registerWrite_queue (off := 0x03000000 + 0x20 * q.val) (reg := 0) rfl q.isLt (by simp) .full v s
  have hCtl := exec_registerWrite_queue (off := 0x03000008 + 0x20 * q.val) (reg := 8) (by omega) q.isLt (by simp)
    .full v s
  refine ⟨fun h => ?_, fun h => ?_, ?_⟩
  · rw [writeQueueReg_base_disabled h] at hBase
    exact ⟨_, hBase, fun j hj => queue_setQueue_ne _ s hj, queue_setQueue_same .., sameBut_setQueue _ _ s⟩
  · rw [hBase, writeQueueReg_base_enabled h]
  · rw [writeQueueReg_ctl] at hCtl
    refine ⟨_, hCtl, fun j hj => ?_, not_mem_badVec_revector _ _, ?_, ?_⟩
    · rw [queue_revector, queue_setQueue_ne _ s hj]
    · rw [queue_revector, queue_setQueue_same, Queue.withCtl, newSize_eq]
    · exact (keeps_writeQueueReg q 8 .full v s).sameBut (by intro p; cases p <;> decide)

theorem bar2_window (fn : Func) (off : Nat) (s : State) :
    let p := (s.winOf fn).2
    let dva := (s.winOf fn).1 + off
    let a := hostAcc fn p
    (∀ len errs, s.blocked (readsOf a [(dva, len)]) = false → ∃ t, exec (.hostBar2Access fn off (.read len) errs) s = .next t ∧
      t.pci.bar2Data = overlay p errs dva (s.readBytes a dva len) ∧
      SameBut (partsOf (.hostBar2Access fn off (.read len) errs)) s t ∧
      (errs = [] → t.pci.bar2Data = s.readBytes a dva len ∧
        (s.unmappedIn p dva len = none → t.mem.bytes = s.mem.bytes ∧
          SameBut [.bar2, .bolts, .flash, .runAhead, .journal] s t))) ∧
    (∀ data errs, s.blocked (writesOf a [(dva, data.length)]) = false →
      ∃ t, exec (.hostBar2Access fn off (.write data) errs) s = .next t ∧
      SameBut (partsOf (.hostBar2Access fn off (.write data) errs)) s t ∧
      (errs = [] → t = eventUnmapped a (s.unmappedIn p dva data.length) (memWrite a dva data s))) := by
  intro p dva a
  refine ⟨fun len errs h => ?_, fun data errs h => ?_⟩
  · have e := exec_bar2_read h errs
    refine ⟨_, e, bar2Data_windowRead a p dva len errs s, sameBut_bar2 e, ?_⟩
    rintro rfl
    refine ⟨bar2Data_windowRead a p dva len [] s, fun hm => ⟨?_, sameBut_windowRead_mapped hm a⟩⟩
    rw [windowRead_mapped hm]
    exact bytes_touchRead a false dva len s
  · have e := exec_bar2_write h errs
    refine ⟨_, e, sameBut_bar2 e, ?_⟩
    rintro rfl
    exact windowWrite_noErrors a p dva data s

theorem sameBut_linkTo (speed : BitVec 3) (width : BitVec 5) (flit : Bool) (s : State) :
    SameBut [.link] s (linkTo speed width flit s) := by
  intro p; cases p <;> simp [Part.same, linkTo]

theorem link_changes (speed : BitVec 3) (width : BitVec 5) (flit : Bool) (s : State) :
    (s.pci.speed = speed.toNat → s.pci.width = width.toNat → ∃ t, exec (.linkChange speed width flit) s = .next t ∧
      t.pci = { s.pci with flit := flit } ∧ SameBut [.link] s t) ∧
    (¬ (s.pci.speed = speed.toNat ∧ s.pci.width = width.toNat) → ∃ t, exec (.linkChange speed width flit) s = .next t ∧
      t.pci.speed = speed.toNat ∧ t.pci.width = width.toNat ∧ t.pci.flit = flit ∧
      t.pci.changes = satAdd 16 s.pci.changes 1 ∧ SameBut (eventParts ++ [.link]) s t ∧
      t = eventD 0x0905 1 (le 1 s.pci.speed ++ le 1 s.pci.width ++ le 1 speed.toNat ++ le 1 width.toNat ++
          le 1 (if flit then 1 else 0)) (linkTo speed width flit s)) := by
  refine ⟨fun hs hw => ⟨_, exec_linkChange_same hs hw flit, rfl, ?_⟩, fun h => ?_⟩
  · intro p; cases p <;> simp [Part.same]
  · refine ⟨_, exec_linkChange_new h flit, ?_⟩
    generalize le 1 s.pci.speed ++ le 1 s.pci.width ++ le 1 speed.toNat ++ le 1 width.toNat ++
      le 1 (if flit then 1 else 0) = data
    obtain ⟨hSpeed, hWidth, hFlit, hChanges, -⟩ :=
      (keeps_eventD 0x0905 1 data (linkTo speed width flit s)).same (p := .link) (by decide)
    exact ⟨hSpeed.symm, hWidth.symm, hFlit.symm, hChanges.symm,
      ((sameBut_linkTo speed width flit s).mono (by simp)).trans
        ((sameBut_eventD _ _ _ _).mono (fun _ hp => List.mem_append_left _ hp)), rfl⟩

theorem abi_offers (fn : Func) (major minor : Byte) (s : State) :
    (s.abiBusy fn = none → ∃ t, exec (.pciAbiOffer fn major minor) s = .next t ∧
      t.abi fn = Abi.offered major minor ∧ (∀ k, k ≠ fn.val → t.abi k = s.abi k) ∧ SameBut [.functions] s t) ∧
    (∀ p, s.abiBusy fn = some p → ∃ t, exec (.pciAbiOffer fn major minor) s = .next t ∧
      t = eventAbi fn (if fn.val = 0 then none else some p) (abiOffset fn) s ∧ t.pci.abi = s.pci.abi) := by
  refine ⟨fun h => ⟨_, exec_pciAbiOffer_taken h major minor, ?_, fun k hk => ?_, ?_⟩,
    fun p h => ⟨_, exec_pciAbiOffer_busy h major minor, rfl, ?_⟩⟩
  · simp [State.abi]
  · simp [State.abi, tabGet_put_ne _ _ _ hk]
  · intro p; cases p <;> simp [Part.same]
  · exact ((keeps_eventAbi fn (if fn.val = 0 then none else some p) (abiOffset fn) s).same (p := .functions)
      (by decide)).1.symm

theorem read_pointer_writes (p : Sys2Proof.Part) (s : State) :
    (∀ rp : BitVec 16, ∃ t, exec (.respRpWrite p rp) s = .next t ∧
      t.respRing p = { s.respRing p with rp := rp.toNat % ringSize (s.respRing p).sizeCode } ∧
      (∀ j, j ≠ p.val → t.respRing j = s.respRing j) ∧ SameBut [.response] s t) ∧
    (∀ rp : BitVec 32, ∃ t, exec (.normRpWrite p rp) s = .next t ∧
      tabGet {} t.cnt.norm p = { tabGet {} s.cnt.norm p with
        rp := if (s.part p).normRingRecords = 0 then 0 else rp.toNat % (s.part p).normRingRecords } ∧
      (∀ j, j ≠ p.val → tabGet {} t.cnt.norm j = tabGet {} s.cnt.norm j) ∧ SameBut [.normRings] s t) ∧
    (∀ rp : BitVec 16, ∃ t, exec (.evtRpWrite rp) s = .next t ∧
      t.evt = { s.evt with pfRp := rp.toNat % ringSize s.evt.pfSize } ∧ SameBut [.eventRing] s t) := by
  refine ⟨fun rp => ⟨_, rfl, respRing_setResp_same .., fun j hj => respRing_setResp_ne hj _ s, sameBut_setResp _ _ s⟩,
    fun rp => ⟨_, rfl, ?_, fun j hj => ?_, ?_⟩, fun rp => ⟨_, rfl, rfl, ?_⟩⟩
  · simp
  · simp [tabGet_mod_ne _ _ _ hj]
  · intro q; cases q <;> simp [Part.same]
  · intro q; cases q <;> simp [Part.same]

/-- Settles O52: every VF register has a counterpart that is a register of the PF's map, so a VF's write is the PF's;
what a write merges, a BAR2 access moves and an offer answers follows from the operations' own lemmas. -/
theorem registersAndHostWindow : Obligations.RegistersAndHostWindow := by
  refine ⟨fun fn off s => ⟨exec_noRegisterAccess fn off s, fun ha h => ⟨?_, fun half v => ?_⟩,
      fun o hf h => vf_register_access hf h s⟩, queue_register_writes,
    fun fn off s => ⟨fun d errs => exec_bar2_poisoned fn off d errs s, bar2_window fn off s⟩,
    link_changes, abi_offers, read_pointer_writes⟩
  · rw [readReg_pf, readPf_noRegister h]
  · exact exec_registerWrite_noRegister ha h half v s

end Sys2Proof.Machine
end

section
/-! PROOFS. Matrix commands that a check of R60 rejects: what the checks read is untouched by the start of the command,
and the rejection writes no array; then the obligation O24. -/

namespace Sys2Proof.Machine

/-! ### Frames from a set of parts -/

theorem mem_everyPart (p : Part) : p ∈ allBut [] := by cases p <;> decide

/-- The frame of an operation in a list of parts, which evaluation compares with the operation's set. -/
theorem Keeps.sameBut_of_bits {ps : List Part} {m : Nat} {s t : State} (k : Keeps m s t)
    (h : ∀ p ∈ allBut [], m.testBit p.ctorIdx = true → p ∈ ps) : SameBut ps s t :=
  k.sameBut fun p => h p (mem_everyPart p)

/-! ### A command's turn -/

theorem gate_eq_go {s : State} {kind : CmdWord → Bool} {q : Nat} {pos : BitVec 32}
    {reads : Inflight → State → List (Nat × Nat)} {f : Inflight} (hf : s.inflight q pos = some f)
    (hk : kind f.word = true) (hm : s.mayStart f (reads f s) = true) (hl : s.isLate f (reads f s) = false) :
    s.gate kind q pos reads = .go f := by
  simp [State.gate, hf, hk, hm, hl]

theorem runLongAt_go {s : State} {kind : CmdWord → Bool} {q : Nat} {pos : BitVec 32}
    {reads : Inflight → State → List (Nat × Nat)} {accs : Inflight → State → List Access}
    {body : Inflight → State → State} {f : Inflight} (h : s.gate kind q pos reads = .go f)
    (hb : s.blocked (accs f s) = false) : runLongAt kind q pos reads accs body s = body f (startCmd f s) := by
  rw [runLongAt, h]
  exact whenReached_free hb

/-! ### The start of a command -/

/-- The start of a command marks it and may raise its array's level, and does nothing else. -/
theorem startCmd_eq (f : Inflight) (s : State) :
    ∃ tcs arrays, startCmd f s = { s with tcs := tcs, mxa := { s.mxa with arrays := arrays } } := by
  unfold startCmd
  split
  · exact ⟨_, _, rfl⟩
  · exact ⟨_, _, rfl⟩

theorem arr_startCmd (f : Inflight) (s : State) (l : Nat) :
    (startCmd f s).arr l = s.arr l ∨ (startCmd f s).arr l = { s.arr l with level := .full, request := none } := by
  unfold startCmd
  split
  · next k _ =>
    by_cases h : l = k
    · subst h; exact .inr (arr_modArr_same ..)
    · exact .inl (arr_modArr_ne _ _ h)
  · exact .inl rfl

theorem otherFlights_startCmd (f : Inflight) (s : State) : OtherFlights f.q f.pos s (startCmd f s) := by
  unfold startCmd
  split
  · exact otherFlights_markStarted f.q f.pos s
  · exact otherFlights_markStarted f.q f.pos s

theorem inflight_startCmd_isSome {f : Inflight} {s : State} (h : s.inflight f.q f.pos = some f) :
    ((startCmd f s).inflight f.q f.pos).isSome := by
  have e : (startCmd f s).inflight f.q f.pos = (markStarted f.q f.pos s).inflight f.q f.pos := by
    unfold startCmd; split <;> rfl
  rw [e, inflight_markStarted h]; rfl

@[simp] theorem arr_markDone (q : Nat) (pos : BitVec 32) (s : State) (l : Nat) : (markDone q pos s).arr l = s.arr l :=
  rfl

/-! The checks of a matrix command read the configuration, the region maps, memory and the repair records, which its
start leaves alone. -/

theorem mxClamp_startCmd (f : Inflight) (a : Acc) (x : MxCmd) (s : State) :
    mxClamp (startCmd f s) a x = mxClamp s a x := by
  obtain ⟨_, _, h⟩ := startCmd_eq f s
  rw [h]; rfl

theorem mxDescs_startCmd (f : Inflight) (a : Acc) (x : MxCmd) (s : State) :
    mxDescs (startCmd f s) a x = mxDescs s a x := by
  obtain ⟨_, _, h⟩ := startCmd_eq f s
  rw [h]; rfl

theorem mxReason_startCmd (f : Inflight) (p : Nat) (x : MxCmd) (d : MxDescs) (s : State) :
    mxReason (startCmd f s) p x d = mxReason s p x d := by
  obtain ⟨_, _, h⟩ := startCmd_eq f s
  rw [h]; rfl

theorem descSpans_startCmd (f : Inflight) (p : Nat) (used : List Nat) (s : State) :
    descSpans (startCmd f s) p used = descSpans s p used := by
  obtain ⟨_, _, h⟩ := startCmd_eq f s
  rw [h]; rfl

theorem eventCmdUnmapped_startCmd (f g : Inflight) (agent : Nat) (descs data : List (Nat × Nat)) (s t : State) :
    eventCmdUnmapped f agent descs data (startCmd g s) t = eventCmdUnmapped f agent descs data s t := by
  obtain ⟨_, _, h⟩ := startCmd_eq g s
  rw [h]; rfl

/-! ### Rejection -/

/-- What a rejected matrix command leaves before it completes: its clamps counted, the descriptors of its later checks
placed and an unmapped one recorded, and event 0x0103 (R33, R60, R206, R210). -/
def mxRejected (f : Inflight) (x : MxCmd) (ids : List Nat) (r : Nat) (s : State) : State :=
  let ds := descSpans s (partOfQ f.q) x.used
  let u := clampPart (partOfQ f.q) ids (startCmd f s)
  mxReject f r (if 4 < r then eventCmdUnmapped f 1 ds [] s (touchSpans (coreAcc f) ds u) else u)

theorem mxRun_rejected {f : Inflight} {x : MxCmd} {ids : List Nat} {r : Nat} {s : State}
    (hx : mxClamp s (coreAcc f) (mxFields f.word) = (x, ids))
    (hr : mxReason s (partOfQ f.q) x (mxDescs s (coreAcc f) x) = r) (h : r ≠ 0) (errs : List ReadError)
    (body : Inflight → MxCmd → MxDescs → State → State) :
    mxRun errs body f (startCmd f s) = markDone f.q f.pos (mxRejected f x ids r s) := by
  simp only [mxRun, mxRejected, mxClamp_startCmd, mxDescs_startCmd, mxReason_startCmd, descSpans_startCmd,
    eventCmdUnmapped_startCmd, hx, hr, if_pos h]

/-- The set of parts that a rejection touches after the start: those of an event, and the clamp counters. -/
def mxRejectBits : Nat := 1353719858 + 35184372088832

/-- From its start on, a rejected command counts clamps, places descriptors and records events. -/
theorem keeps_mxRejected (f : Inflight) (x : MxCmd) (ids : List Nat) (r : Nat) (s : State) :
    Keeps mxRejectBits (startCmd f s) (mxRejected f x ids r s) := by
  have hClamp : Keeps mxRejectBits (startCmd f s) (clampPart (partOfQ f.q) ids (startCmd f s)) :=
    (keeps_clampPart ..).weaken (by decide)
  refine (keeps_mxReject ..).app (by decide) (Keeps.ite ?_ hClamp)
  exact (keeps_eventCmdUnmapped ..).app (by decide) ((keeps_touchSpans ..).app (by decide) hClamp)

theorem arr_mxRejected (f : Inflight) (x : MxCmd) (ids : List Nat) (r : Nat) (s : State) (l : Nat) :
    (mxRejected f x ids r s).arr l = (startCmd f s).arr l := by
  have h : (startCmd f s).mxa.arrays = (mxRejected f x ids r s).mxa.arrays :=
    (keeps_mxRejected f x ids r s).same (p := .arrays) (by decide)
  simp only [State.arr, h]

theorem inflight_mxRejected (f : Inflight) (x : MxCmd) (ids : List Nat) (r : Nat) (s : State) (q : Nat)
    (pos : BitVec 32) : (mxRejected f x ids r s).inflight q pos = (startCmd f s).inflight q pos := by
  have h := ((keeps_mxRejected f x ids r s).same (p := .inflight) (by decide)).1
  simp only [State.inflight, h]

/-! ### O24 -/

/-- The matrix rows with the opcodes that they take (R55); 0x15 to 0x1F go through the row of mx.mul. -/
def matrixRows (q : QIdx) (pos : BitVec 32) (errs : List ReadError) : List (Instr × Nat) :=
  [(Instr.mxMul q pos errs, 0x10), (.mxMac q pos errs, 0x11), (.mxZacc q pos, 0x12), (.mxSacc q pos errs, 0x13),
    (.mxLacc q pos errs, 0x14)] ++ (List.range 11).map (fun k => (Instr.mxMul q pos errs, 0x15 + k))

/-- Every matrix row is the shared run of a matrix command, for commands of its opcode. -/
theorem exec_matrixRow {q : QIdx} {pos : BitVec 32} {errs : List ReadError} {c : Instr × Nat}
    (hc : c ∈ matrixRows q pos errs) {w : CmdWord} (hw : opcodeOf w = c.2) :
    ∃ kind es body, kind w = true ∧
      ∀ s, exec c.1 s = .next (runLongAt kind q pos mxReads mxAccs (mxRun es body) s) := by
  simp only [matrixRows, List.mem_append, List.mem_cons, List.not_mem_nil, or_false, List.mem_map,
    List.mem_range] at hc
  rcases hc with (rfl | rfl | rfl | rfl | rfl) | ⟨k, hk, rfl⟩
  · exact ⟨_, _, _, by simp [hw], fun s => rfl⟩
  · exact ⟨isOp 0x11, _, _, by simp [isOp, hw], fun s => rfl⟩
  · exact ⟨isOp 0x12, _, _, by simp [isOp, hw], fun s => rfl⟩
  · exact ⟨isOp 0x13, _, _, by simp [isOp, hw], fun s => rfl⟩
  · exact ⟨isOp 0x14, _, _, by simp [isOp, hw], fun s => rfl⟩
  · exact ⟨_, _, _, by simp [hw]; omega, fun s => rfl⟩

/-- A rejected command completes with its arrays as its start left them, whatever array it names (R60). -/
theorem rejected_completes {f : Inflight} {s : State} (hf : s.inflight f.q f.pos = some f) (x : MxCmd)
    (ids : List Nat) (r : Nat) : Completed f.q f.pos (markDone f.q f.pos (mxRejected f x ids r s)) ∧
      OtherFlights f.q f.pos s (markDone f.q f.pos (mxRejected f x ids r s)) ∧
      (∀ l, (markDone f.q f.pos (mxRejected f x ids r s)).arr l = s.arr l ∨
        (markDone f.q f.pos (mxRejected f x ids r s)).arr l = { s.arr l with level := .full, request := none }) := by
  refine ⟨completed_markDone ?_, fun j i hji => ?_, fun l => ?_⟩
  · rw [inflight_mxRejected]
    exact inflight_startCmd_isSome hf
  · rw [otherFlights_markDone f.q f.pos _ j i hji, inflight_mxRejected, otherFlights_startCmd f s j i hji]
  · rw [arr_markDone, arr_mxRejected]
    exact arr_startCmd f s l

theorem sameBut_rejected (f : Inflight) (x : MxCmd) (ids : List Nat) (r : Nat) (s : State) :
    SameBut (eventParts ++ [.inflight, .arrays, .clampCounters]) s (markDone f.q f.pos (mxRejected f x ids r s)) := by
  have hAll : Keeps (mxRejectBits + 69632) s (mxRejected f x ids r s) :=
    (keeps_mxRejected f x ids r s).app (by decide) ((keeps_startCmd f s).weaken (by decide))
  exact ((keeps_markDone f.q f.pos _).app (by decide) hAll).sameBut_of_bits (by decide)

/-- Settles O24: no check reads what the start of a command changes, so a command whose reason is not 0 takes the branch
of rejection, whose operations leave every array as the start left it. -/
theorem matrixCommandsAreChecked : Obligations.MatrixCommandsAreChecked := by
  rintro ⟨q, hq⟩ pos errs f x ids r s hx hr hne c hc hop hf hMay hLate hFree
  obtain ⟨kind, es, body, hk, hExec⟩ := exec_matrixRow hc hop
  obtain ⟨rfl, rfl⟩ : f.q = q ∧ f.pos = pos := inflight_pos hf
  have hRun := runLongAt_go (body := mxRun es body) (gate_eq_go hf hk hMay hLate) hFree
  rw [mxRun_rejected hx.symm hr.symm hne] at hRun
  obtain ⟨hDone, hOthers, hArrays⟩ := rejected_completes hf x ids r
  exact ⟨_, (hExec s).trans (congrArg Host.Outcome.next hRun), hDone, hOthers, hArrays, rfl,
    sameBut_rejected f x ids r s⟩

end Sys2Proof.Machine
end

section
/-! PROOFS. Counters, stall blocks and the reference edge (R35, R102, R129, R194, R323, R425, R428–R438), then the
obligation O47. -/

namespace Sys2Proof.Machine

/-! ### Clears -/

/-- A clamp of the same cycle is the first one after the clear (R35). -/
theorem hit_empty (id : Nat) : ({} : Clamp).hit id = { lastId := id, count := 1 } := by
  simp [Clamp.hit, satAdd]

/-- A write of a table is read at its key, and nowhere else. -/
theorem tabPut_writes_one {α : Type} [DecidableEq α] (d : α) (t : Tab α) (k : Nat) (v : α) :
    tabGet d (tabPut d t k v) k = v ∧ ∀ j, j ≠ k → tabGet d (tabPut d t k v) j = tabGet d t j :=
  ⟨tabGet_put_same d t k v, fun _ h => tabGet_put_ne d t v h⟩

/-! ### Sums over the slots of a block -/

/-- What the 16 slots of a block hold together, in 1/1024 of a cycle. -/
def slotSum (c : Tab Nat) : Nat := ((List.range 16).map (fun j => tabGet 0 c j)).sum

/-- Raising one value of a list of distinct keys raises the sum by as much. -/
theorem sum_map_raise {f g : Nat → Nat} {j n : Nat} (hj : g j = f j + n) (hne : ∀ i, i ≠ j → g i = f i) :
    ∀ {l : List Nat}, l.Nodup → j ∈ l → (l.map g).sum = (l.map f).sum + n
  | a :: l, hl, h => by
    obtain ⟨ha, hl⟩ := List.nodup_cons.mp hl
    simp only [List.map_cons, List.sum_cons]
    by_cases e : j = a
    · subst e
      have hRest : l.map g = l.map f := List.map_congr_left fun i hi => hne i fun h => ha (h ▸ hi)
      rw [hRest, hj]
      omega
    · have hRest := sum_map_raise hj hne hl ((List.mem_cons.mp h).resolve_left e)
      rw [hne a (Ne.symm e), hRest]
      omega

theorem slotSum_add {j : Nat} (hj : j < 16) (n : Nat) (c : Tab Nat) :
    slotSum (tabMod 0 c j (fun m => m + n)) = slotSum c + n :=
  sum_map_raise (f := fun i => tabGet 0 c i) (g := fun i => tabGet 0 (tabMod 0 c j (fun m => m + n)) i)
    (tabGet_mod_same 0 c j _) (fun _ h => tabGet_mod_ne 0 c _ h) List.nodup_range (List.mem_range.mpr hj)

/-- The unsettled cycles are dealt out in full. -/
theorem slotSum_stallSplit (base : Nat) : ∀ {l : List Nat} (rem : Nat) (c : Tab Nat), l ≠ [] → (∀ j ∈ l, j < 16) →
    slotSum (stallSplit base l rem c) = slotSum c + rem
  | [], _, _, h, _ => absurd rfl h
  | [j], rem, c, _, h => slotSum_add (h j (by simp)) rem c
  | j :: k :: r, rem, c, _, h => by
    have hv : (Config.freeWord base j).toNat % (rem + 1) < rem + 1 := Nat.mod_lt _ (by omega)
    rw [stallSplit, slotSum_stallSplit base _ _ (by simp) (fun i hi => h i (List.mem_cons_of_mem _ hi)),
      slotSum_add (h j (by simp))]
    · omega
    · simp

theorem openCauses_lt {k j : Nat} (h : j ∈ openCauses k) : j < 16 := by
  have hAll : ∀ l ∈ [[1, 2, 5, 7, 8, 9, 10], [1, 2, 5, 7, 8, 9], [2, 3, 7], [4, 5, 6, 7], [6, 7], [5, 6, 7]],
      ∀ i ∈ l, i < 16 := by decide
  refine hAll (stallCauses k) ?_ j (List.mem_filter.mp h).1
  unfold stallCauses
  repeat' split
  all_goals decide

/-! ### What a capture holds -/

theorem sum_set_raise (n : Nat) : ∀ (l : List Nat) (i : Nat), i < l.length →
    (l.set i (l.getD i 0 + n)).sum = l.sum + n
  | [], _, h => absurd h (by simp)
  | a :: l, 0, _ => by simp; omega
  | a :: l, i + 1, h => by
    have := sum_set_raise n l i (by simpa using h)
    simp only [List.set_cons_succ, List.getD_cons_succ, List.sum_cons, this]
    omega

/-- Putting a value in the place of one of a list of distinct keys adds at most that value to the sum. -/
theorem sum_map_replace_le (f : Nat → Nat) (a x : Nat) : ∀ {l : List Nat}, l.Nodup →
    (l.map (fun j => if j = a then x else f j)).sum ≤ x + (l.map f).sum
  | [], _ => by simp
  | j :: l, h => by
    obtain ⟨hj, hl⟩ := List.nodup_cons.mp h
    simp only [List.map_cons, List.sum_cons]
    by_cases e : j = a
    · subst e
      have hRest : l.map (fun i => if i = j then x else f i) = l.map f :=
        List.map_congr_left fun i hi => if_neg fun (e : i = j) => hj (e ▸ hi)
      rw [if_pos rfl, hRest]
      omega
    · have hRest := sum_map_replace_le f a x hl
      rw [if_neg e]
      omega

theorem sum_map_div_mul_le (f : Nat → Nat) (u : Nat) : ∀ l : List Nat,
    (l.map (fun j => f j / u)).sum * u ≤ (l.map f).sum
  | [] => by simp
  | j :: l => by
    have hHead : f j / u * u ≤ f j := Nat.div_mul_le_self ..
    have hRest := sum_map_div_mul_le f u l
    simp only [List.map_cons, List.sum_cons, Nat.add_mul]
    omega

/-- Whole cycles of the slots, idle apart, are no more than the whole cycles of their sum. -/
theorem sum_wholeCycles_le (c : Tab Nat) (idle : Nat) :
    ((List.range 16).map (fun j => if j = 11 then idle else tabGet 0 c j / stallUnit)).sum ≤
      idle + slotSum c / stallUnit := by
  have hWhole : ((List.range 16).map (fun j => tabGet 0 c j / stallUnit)).sum ≤ slotSum c / stallUnit :=
    (Nat.le_div_iff_mul_le (by decide)).mpr (sum_map_div_mul_le ..)
  exact Nat.le_trans (sum_map_replace_le _ 11 idle List.nodup_range) (Nat.add_le_add_left hWhole idle)

theorem length_block (t : Stall) (e : Nat) : (t.block e).length = 16 := by simp [Stall.block]

/-- A captured block accounts for every cycle since its clear (R431). -/
theorem sum_block {t : Stall} {e : Nat} (h : slotSum t.counts ≤ stallUnit * e) : (t.block e).sum = e := by
  let v := (List.range 16).map (fun j => if j = 11 then e - (slotSum t.counts + stallUnit - 1) / stallUnit
    else tabGet 0 t.counts j / stallUnit)
  have hv : v.sum ≤ e := by
    have hSum : v.sum ≤ _ := sum_wholeCycles_le t.counts _
    simp only [stallUnit] at hSum h
    omega
  calc (t.block e).sum = v.sum + (e - v.sum) := sum_set_raise _ v 1 (by simp [v])
    _ = e := by omega

/-! ### The snapshot -/

/-- A block whose unsettled cycles are settled for good. -/
def Stall.settled (t : Stall) (base k : Nat) : Stall :=
  { t with counts := stallSplit base (0 :: openCauses k) t.unsettled t.counts, unsettled := 0 }

theorem slotSum_settled (t : Stall) (base k : Nat) :
    slotSum (t.settled base k).counts = slotSum t.counts + t.unsettled :=
  slotSum_stallSplit base _ _ (by simp) (fun j hj => by
    rcases List.mem_cons.mp hj with rfl | hj
    · omega
    · exact openCauses_lt hj)

theorem unsettled_settled (t : Stall) (base k : Nat) : (t.settled base k).unsettled = 0 := rfl

theorem clearedAt_settled (t : Stall) (base k : Nat) : (t.settled base k).clearedAt = t.clearedAt := rfl

/-- The live counts of an engine. -/
def State.stall (s : State) (k : Nat) : Stall := tabGet {} s.cnt.stall k

theorem stall_snapOne_same (s : State) (k : Nat) : (snapOne s k).stall k = (s.stall k).settled s.free k := by
  simp [State.stall, snapOne, bumpFree, Stall.settled]

theorem stall_snapOne_ne {k j : Nat} (h : j ≠ k) (s : State) : (snapOne s k).stall j = s.stall j := by
  simp [State.stall, snapOne, bumpFree, tabGet_put_ne _ _ _ h]

theorem snap_snapOne_same (s : State) (k : Nat) : tabGet [] (snapOne s k).cnt.snap k =
    ((s.stall k).settled s.free k).block ((s.stall k).elapsed k s.now) := by
  simp [State.stall, snapOne, bumpFree, Stall.settled, Stall.elapsed]

theorem snap_snapOne_ne {k j : Nat} (h : j ≠ k) (s : State) :
    tabGet [] (snapOne s k).cnt.snap j = tabGet [] s.cnt.snap j := by
  simp [snapOne, bumpFree, tabGet_put_ne _ _ _ h]

theorem now_snapOne (s : State) (k : Nat) : (snapOne s k).now = s.now := rfl

theorem clearedAt_snapOne (s : State) (a k : Nat) : ((snapOne s a).stall k).clearedAt = (s.stall k).clearedAt := by
  by_cases h : k = a
  · subst h; rw [stall_snapOne_same, clearedAt_settled]
  · rw [stall_snapOne_ne h]

theorem elapsed_snapOne (s : State) (a k now : Nat) :
    ((snapOne s a).stall k).elapsed k now = (s.stall k).elapsed k now := by
  simp only [Stall.elapsed, clearedAt_snapOne]

/-- A block counts no more than the cycles since its clear. -/
def State.StallFits (s : State) (k : Nat) : Prop :=
  slotSum (s.stall k).counts + (s.stall k).unsettled ≤ stallUnit * (s.stall k).elapsed k s.now

theorem stallFits_snapOne {s : State} {k : Nat} (h : s.StallFits k) (a : Nat) : (snapOne s a).StallFits k := by
  unfold State.StallFits
  rw [elapsed_snapOne, now_snapOne]
  by_cases e : k = a
  · subst e
    rw [stall_snapOne_same, slotSum_settled, unsettled_settled, Nat.add_zero]
    exact h
  · rw [stall_snapOne_ne e]
    exact h

/-- A snapshot in `t` holds the cycles of an engine that passed in `s` since its clear, all of them settled. -/
def StallCaptured (s t : State) (k : Nat) : Prop :=
  (tabGet [] t.cnt.snap k).length = 16 ∧ (tabGet [] t.cnt.snap k).sum = (s.stall k).elapsed k s.now ∧
    (t.stall k).clearedAt = (s.stall k).clearedAt ∧ (t.stall k).unsettled = 0

theorem stallCaptured_snapOne {s : State} {k : Nat} (h : s.StallFits k) : StallCaptured s (snapOne s k) k := by
  refine ⟨?_, ?_, clearedAt_snapOne s k k, by rw [stall_snapOne_same, unsettled_settled]⟩
  · rw [snap_snapOne_same, length_block]
  · rw [snap_snapOne_same, sum_block (by rw [slotSum_settled]; exact h)]

/-- A capture after that of another engine, or of the same one, holds the cycles that passed before it. -/
theorem StallCaptured.of_snapOne {s t : State} {a k : Nat} (h : StallCaptured (snapOne s a) t k) :
    StallCaptured s t k := by
  obtain ⟨hLen, hSum, hClear, hSettled⟩ := h
  rw [elapsed_snapOne, now_snapOne] at hSum
  rw [clearedAt_snapOne] at hClear
  exact ⟨hLen, hSum, hClear, hSettled⟩

theorem snapAll_of_not_mem {k : Nat} : ∀ {l : List Nat} (s : State), k ∉ l →
    tabGet [] (l.foldl snapOne s).cnt.snap k = tabGet [] s.cnt.snap k ∧ (l.foldl snapOne s).stall k = s.stall k
  | [], _, _ => ⟨rfl, rfl⟩
  | a :: l, s, h => by
    obtain ⟨ha, hl⟩ : k ≠ a ∧ k ∉ l := by simpa using h
    obtain ⟨hSnap, hStall⟩ := snapAll_of_not_mem (snapOne s a) hl
    exact ⟨hSnap.trans (snap_snapOne_ne ha s), hStall.trans (stall_snapOne_ne ha s)⟩

/-- An engine named more than once is captured anew with the same total. -/
theorem snapAll_of_mem {k : Nat} {l : List Nat} {s : State} (h : k ∈ l) (hFits : s.StallFits k) :
    StallCaptured s (l.foldl snapOne s) k := by
  induction l generalizing s with
  | nil => exact absurd h List.not_mem_nil
  | cons a l ih =>
    rw [List.foldl_cons]
    by_cases hl : k ∈ l
    · exact (ih hl (stallFits_snapOne hFits a)).of_snapOne
    · obtain rfl : k = a := (List.mem_cons.mp h).resolve_right hl
      obtain ⟨hSnap, hStall⟩ := snapAll_of_not_mem (snapOne s k) hl
      have hOne := stallCaptured_snapOne hFits
      unfold StallCaptured at hOne ⊢
      rwa [hSnap, hStall]

/-- The engines that a snapshot captures: those of the named partitions and, on request, the shared ones (R431). -/
def State.snapEngines (s : State) (parts : Byte) (shared : Bool) : List Nat :=
  ((allParts.filter (fun p => parts.getLsbD p)).map (fun p => s.stallEngines p)).flatten ++
    (if shared then (List.range 24).map (fun i => 520 + i) else [])

theorem mem_snapEngines {s : State} {parts : Byte} {shared : Bool} {k : Nat} :
    k ∈ s.snapEngines parts shared ↔ (∃ p, p < 8 ∧ parts.getLsbD p = true ∧ k ∈ s.stallEngines p) ∨
      (shared = true ∧ 520 ≤ k ∧ k < 544) := by
  have hOwn : k ∈ ((allParts.filter (fun p => parts.getLsbD p)).map (fun p => s.stallEngines p)).flatten ↔
      ∃ p, p < 8 ∧ parts.getLsbD p = true ∧ k ∈ s.stallEngines p := by
    simp only [List.mem_flatten, List.mem_map, List.mem_filter, allParts, List.mem_range]
    constructor
    · rintro ⟨_, ⟨p, ⟨hp, hBit⟩, rfl⟩, hk⟩
      exact ⟨p, hp, hBit, hk⟩
    · rintro ⟨p, hp, hBit, hk⟩
      exact ⟨_, ⟨p, ⟨hp, hBit⟩, rfl⟩, hk⟩
  have hShared : k ∈ (if shared then (List.range 24).map (fun i => 520 + i) else []) ↔
      shared = true ∧ 520 ≤ k ∧ k < 544 := by
    cases shared
    · simp only [Bool.false_eq_true, if_false, List.not_mem_nil, false_and]
    · simp only [if_true, List.mem_map, List.mem_range, true_and]
      constructor
      · rintro ⟨i, hi, rfl⟩
        omega
      · exact fun h => ⟨k - 520, by omega⟩
  rw [State.snapEngines, List.mem_append, hOwn, hShared]

theorem exec_cntSnap (parts : Byte) (shared : Bool) (s : State) :
    exec (.cntSnap parts shared) s =
      .next (modCnt (fun c => { c with snapTime := s.now }) ((s.snapEngines parts shared).foldl snapOne s)) := rfl

/-! ### The reference edge -/

/-- Applies a function of its own to the block of each engine of a list. -/
def modStalls (g : Nat → Stall → Stall) (l : List Nat) (s : State) : State :=
  l.foldl (fun u k => modCnt (fun c => { c with stall := tabMod {} c.stall k (g k) }) u) s

theorem modStalls_eq (g : Nat → Stall → Stall) : ∀ (l : List Nat) (s : State),
    ∃ st, modStalls g l s = modCnt (fun c => { c with stall := st }) s
  | [], s => ⟨s.cnt.stall, rfl⟩
  | _ :: l, s => by
    obtain ⟨st, h⟩ := modStalls_eq g l (modCnt _ s)
    exact ⟨st, h⟩

theorem stall_modStalls (g : Nat → Stall → Stall) (k : Nat) : ∀ {l : List Nat} (s : State), l.Nodup →
    (modStalls g l s).stall k = if k ∈ l then g k (s.stall k) else s.stall k
  | [], _, _ => by simp [modStalls]
  | a :: l, s, h => by
    obtain ⟨ha, hl⟩ := List.nodup_cons.mp h
    have ih := stall_modStalls g k (modCnt (fun c => { c with stall := tabMod {} c.stall a (g a) }) s) hl
    rw [show modStalls g (a :: l) s = modStalls g l _ from rfl, ih]
    by_cases e : k = a
    · subst e; simp [ha, State.stall]
    · simp [e, State.stall, tabGet_mod_ne _ _ _ e]

theorem nodup_shifted (b n : Nat) : ((List.range n).map (fun i => b + i)).Nodup :=
  List.pairwise_map.mpr (List.nodup_range.imp fun h e => h (Nat.add_left_cancel e))

theorem nodup_stallKeys : stallKeys.Nodup := by
  refine List.nodup_append.mpr ⟨List.nodup_append.mpr ⟨List.nodup_range, nodup_shifted 128 120, ?_⟩,
    nodup_shifted 256 288, ?_⟩
  · intro a ha b hb
    rw [List.mem_range] at ha
    obtain ⟨i, -, rfl⟩ := List.mem_map.mp hb
    omega
  · intro a ha b hb
    obtain ⟨i, -, rfl⟩ := List.mem_map.mp hb
    rcases List.mem_append.mp ha with ha | ha
    · rw [List.mem_range] at ha
      omega
    · obtain ⟨l, hl, rfl⟩ := List.mem_map.mp ha
      rw [List.mem_range] at hl
      omega

/-- The block of an engine over whose cycles the state stands, the last of them at its present time. -/
def countedTo (was : Nat) (s : State) (k : Nat) (t : Stall) : Stall :=
  t.count (t.elapsed k s.now - t.elapsed k was) (lostPart s k) (stallSlot s k)

theorem countStalls_eq (was : Nat) (s : State) : countStalls was s =
    modStalls (countedTo was s) (stallKeys.filter (fun k => stallSlot s k != 11 || lostPart s k != 0)) s := rfl

theorem stall_countStalls {k : Nat} (h : k ∈ stallKeys) (was : Nat) (s : State) :
    (countStalls was s).stall k =
      if stallSlot s k = 11 ∧ lostPart s k = 0 then s.stall k else countedTo was s k (s.stall k) := by
  have hMem : k ∈ stallKeys.filter (fun k => stallSlot s k != 11 || lostPart s k != 0) ↔
      ¬ (stallSlot s k = 11 ∧ lostPart s k = 0) := by
    simp only [List.mem_filter, h, true_and, Bool.or_eq_true, bne_iff_ne, ne_eq,
      Decidable.not_and_iff_not_or_not]
  rw [countStalls_eq, stall_modStalls _ k s (List.Pairwise.filter _ nodup_stallKeys)]
  by_cases e : stallSlot s k = 11 ∧ lostPart s k = 0
  · rw [if_pos e, if_neg (fun hk => hMem.mp hk e)]
  · rw [if_neg e, if_pos (hMem.mpr e)]

/-- Time 10 ns on, with the cycles of those 10 ns counted. -/
def refEdge (s : State) : State := countStalls s.now (modClk (fun c => { c with time := c.time + 10 }) s)

/-- An edge, but for what a microsecond boundary adds, changes the time and the stall blocks. -/
theorem refEdge_eq (s : State) : ∃ st, refEdge s =
    modCnt (fun c => { c with stall := st }) (modClk (fun c => { c with time := c.time + 10 }) s) := by
  rw [refEdge, countStalls_eq]
  exact modStalls_eq _ _ _

theorem time_refEdge (s : State) : (refEdge s).clk.time = s.clk.time + 10 := by
  obtain ⟨st, h⟩ := refEdge_eq s
  rw [h]; rfl

/-- What a microsecond boundary adds for the arrays in fill and the rows in excess (R425, R438). -/
def usBoundary (filling rows : Nat) (s : State) : State :=
  modPwr (fun w => { w with excessUs := satAdd 20 w.excessUs rows })
    (modCnt (fun c => { c with fillUs := satAdd 40 c.fillUs filling }) s)

theorem exec_clkRefEdge (s : State) : exec .clkRefEdge s = .next (
    if (s.now + 10) / 1000 = s.now / 1000 then refEdge s
    else usBoundary s.filling (s.pwr.rows.filter (fun r => r.2.excess (s.now + 10))).length (refEdge s)) := by
  change execClkRefEdge s = _
  have hUs : (refEdge s).nowUs = (s.now + 10) / 1000 := by rw [State.nowUs, time_refEdge]; rfl
  have hNow : (refEdge s).now = s.now + 10 := time_refEdge s
  rw [← hUs, ← hNow]
  rfl

/-! ### O47 -/

/-- Each clear of a partition's register empties that partition's entry alone (R35, R102, R129, R194, R323, R437). -/
theorem partition_clears (p : Sys2Proof.Part) (s : State) :
    (∃ t, exec (.cntAccClear p) s = .next t ∧ tabGet {} t.cnt.acc p = {} ∧
      (∀ j, j ≠ p.val → tabGet {} t.cnt.acc j = tabGet {} s.cnt.acc j) ∧ SameBut [.accCounters] s t) ∧
    (∃ t, exec (.cntLateClear p) s = .next t ∧ tabGet {} t.cnt.late p = {} ∧
      (∀ j, j ≠ p.val → tabGet {} t.cnt.late j = tabGet {} s.cnt.late j) ∧ SameBut [.lateCounters] s t) ∧
    (∃ t, exec (.cntSelvClear p) s = .next t ∧ tabGet {} t.cnt.selv p = {} ∧
      (∀ j, j ≠ p.val → tabGet {} t.cnt.selv j = tabGet {} s.cnt.selv j) ∧ SameBut [.selvCounters] s t) ∧
    (∃ t, exec (.tcsAdmCntClear p) s = .next t ∧ tabGet {} t.tcs.admCnt p = {} ∧
      (∀ j, j ≠ p.val → tabGet {} t.tcs.admCnt j = tabGet {} s.tcs.admCnt j) ∧ SameBut [.admission] s t) ∧
    (∃ t, exec (.colCntClear p) s = .next t ∧ tabGet {} t.col.cnt p = {} ∧
      (∀ j, j ≠ p.val → tabGet {} t.col.cnt j = tabGet {} s.col.cnt j) ∧ SameBut [.colCounters] s t) ∧
    (∃ t, exec (.memRaClear p) s = .next t ∧ tabGet 0 t.mem.raFetched p = 0 ∧ tabGet 0 t.mem.raDiscarded p = 0 ∧
      (∀ j, j ≠ p.val → tabGet 0 t.mem.raFetched j = tabGet 0 s.mem.raFetched j ∧
        tabGet 0 t.mem.raDiscarded j = tabGet 0 s.mem.raDiscarded j) ∧ SameBut [.runAhead] s t) ∧
    (∃ t, exec (.cntClampClear (some p) none) s = .next t ∧ tabGet {} t.cnt.clamp p = {} ∧
      t.cnt.clampDev = s.cnt.clampDev ∧ (∀ j, j ≠ p.val → tabGet {} t.cnt.clamp j = tabGet {} s.cnt.clamp j) ∧
      SameBut [.clampCounters] s t) ∧
    (∀ id : Byte, ∃ t, exec (.cntClampClear (some p) (some id)) s = .next t ∧
      tabGet {} t.cnt.clamp p = { lastId := id.toNat, count := 1 } ∧ t.cnt.clampDev = s.cnt.clampDev ∧
      (∀ j, j ≠ p.val → tabGet {} t.cnt.clamp j = tabGet {} s.cnt.clamp j) ∧ SameBut [.clampCounters] s t) := by
  refine ⟨?acc, ?late, ?selv, ?adm, ?col, ?ra, ?clamp, fun id => ?clampHit⟩
  case acc =>
    obtain ⟨hKey, hOther⟩ := tabPut_writes_one {} s.cnt.acc p.val {}
    exact ⟨_, rfl, hKey, hOther,
      (keeps_execCntAccClear p s _ rfl).sameBut_of_bits (by decide)⟩
  case late =>
    obtain ⟨hKey, hOther⟩ := tabPut_writes_one {} s.cnt.late p.val {}
    exact ⟨_, rfl, hKey, hOther,
      (keeps_execCntLateClear p s _ rfl).sameBut_of_bits (by decide)⟩
  case selv =>
    obtain ⟨hKey, hOther⟩ := tabPut_writes_one {} s.cnt.selv p.val {}
    exact ⟨_, rfl, hKey, hOther,
      (keeps_execCntSelvClear p s _ rfl).sameBut_of_bits (by decide)⟩
  case adm =>
    obtain ⟨hKey, hOther⟩ := tabPut_writes_one {} s.tcs.admCnt p.val {}
    exact ⟨_, rfl, hKey, hOther,
      (keeps_execTcsAdmCntClear p s _ rfl).sameBut_of_bits (by decide)⟩
  case col =>
    obtain ⟨hKey, hOther⟩ := tabPut_writes_one {} s.col.cnt p.val {}
    exact ⟨_, rfl, hKey, hOther,
      (keeps_execColCntClear p s _ rfl).sameBut_of_bits (by decide)⟩
  case ra =>
    obtain ⟨hFetched, hOtherF⟩ := tabPut_writes_one 0 s.mem.raFetched p.val 0
    obtain ⟨hDiscarded, hOtherD⟩ := tabPut_writes_one 0 s.mem.raDiscarded p.val 0
    exact ⟨_, rfl, hFetched, hDiscarded, fun j hj => ⟨hOtherF j hj, hOtherD j hj⟩,
      (keeps_execMemRaClear p s _ rfl).sameBut_of_bits (by decide)⟩
  case clamp =>
    obtain ⟨hKey, hOther⟩ := tabPut_writes_one {} s.cnt.clamp p.val {}
    exact ⟨_, rfl, hKey, rfl, hOther, (keeps_execCntClampClear (some p) none s _ rfl).sameBut_of_bits (by decide)⟩
  case clampHit =>
    obtain ⟨hKey, hOther⟩ := tabPut_writes_one {} s.cnt.clamp p.val (({} : Clamp).hit id.toNat)
    exact ⟨_, rfl, hKey.trans (hit_empty _), rfl, hOther,
      (keeps_execCntClampClear (some p) (some id) s _ rfl).sameBut_of_bits (by decide)⟩

/-- The clears of the device's registers and of a stall block (R35, R425, R430, R438). -/
theorem device_clears (s : State) :
    (∃ t, exec (.cntClampClear none none) s = .next t ∧ t.cnt.clampDev = {} ∧ t.cnt.clamp = s.cnt.clamp ∧
      SameBut [.clampCounters] s t) ∧
    (∀ id : Byte, ∃ t, exec (.cntClampClear none (some id)) s = .next t ∧
      t.cnt.clampDev = { lastId := id.toNat, count := 1 } ∧ t.cnt.clamp = s.cnt.clamp ∧ SameBut [.clampCounters] s t) ∧
    (∃ t, exec .pwrCntClear s = .next t ∧ t.pwr = { s.pwr with stretches := 0, excessUs := 0, capEpisodes := 0 } ∧
      SameBut [.power] s t) ∧
    (∃ t, exec .cntFillClear s = .next t ∧ t.cnt.fillPeriods = 0 ∧ t.cnt.fillUs = 0 ∧ SameBut [.fillCounter] s t) ∧
    (∃ t, exec .nvtGcClear s = .next t ∧ t.nvt = { s.nvt with throttleUs := 0, episodes := 0 } ∧
      SameBut [.collection] s t) ∧
    (∀ e : StallEngine, ∃ t, exec (.cntStallClear e) s = .next t ∧
      tabGet {} t.cnt.stall (stallKey e) = { clearedAt := s.now, counts := [] } ∧ t.cnt.snap = s.cnt.snap ∧
      (∀ k, k ≠ stallKey e → tabGet {} t.cnt.stall k = tabGet {} s.cnt.stall k) ∧ SameBut [.stallCounters] s t) := by
  refine ⟨?clamp, fun id => ?clampHit, ?pwr, ?fill, ?gc, fun e => ?stall⟩
  case clamp =>
    exact ⟨_, rfl, rfl, rfl, (keeps_execCntClampClear none none s _ rfl).sameBut_of_bits (by decide)⟩
  case clampHit =>
    exact ⟨_, rfl, hit_empty _, rfl, (keeps_execCntClampClear none (some id) s _ rfl).sameBut_of_bits (by decide)⟩
  case pwr => exact ⟨_, rfl, rfl, (keeps_execPwrCntClear s _ rfl).sameBut_of_bits (by decide)⟩
  case fill => exact ⟨_, rfl, rfl, rfl, (keeps_execCntFillClear s _ rfl).sameBut_of_bits (by decide)⟩
  case gc => exact ⟨_, rfl, rfl, (keeps_execNvtGcClear s _ rfl).sameBut_of_bits (by decide)⟩
  case stall =>
    obtain ⟨hKey, hOther⟩ := tabPut_writes_one {} s.cnt.stall (stallKey e) { clearedAt := s.now, counts := [] }
    exact ⟨_, rfl, hKey, rfl, hOther, (keeps_execCntStallClear e s _ rfl).sameBut_of_bits (by decide)⟩

theorem snapshot_covers (parts : Byte) (shared : Bool) (s : State) :
    ∃ t, exec (.cntSnap parts shared) s = .next t ∧ t.cnt.snapTime = s.now ∧ SameBut [.free, .stallCounters] s t ∧
      (∀ k, k ∈ s.snapEngines parts shared → s.StallFits k → StallCaptured s t k) ∧
      (∀ k, k ∉ s.snapEngines parts shared → tabGet [] t.cnt.snap k = tabGet [] s.cnt.snap k ∧ t.stall k = s.stall k) :=
  ⟨_, exec_cntSnap parts shared s, rfl, (keeps_execCntSnap parts shared s _ rfl).sameBut_of_bits (by decide),
    fun _ hk hFits => snapAll_of_mem hk hFits, fun _ hk => snapAll_of_not_mem s hk⟩

/-- Every edge counts its 10 ns in each engine's block, where the engine stands at the edge (R431). -/
theorem refEdge_counts (s : State) : ∃ t, exec .clkRefEdge s = .next t ∧ t.cnt.snap = s.cnt.snap ∧
    ∀ k, t.stall k = (refEdge s).stall k := by
  obtain ⟨st, hEdge⟩ := refEdge_eq s
  have hSnap : (refEdge s).cnt.snap = s.cnt.snap := by rw [hEdge]; rfl
  refine ⟨_, exec_clkRefEdge s, ?_⟩
  split
  · exact ⟨hSnap, fun _ => rfl⟩
  · exact ⟨hSnap, fun _ => rfl⟩

theorem refEdge_inside {s : State} (h : (s.now + 10) / 1000 = s.now / 1000) :
    ∃ t, exec .clkRefEdge s = .next t ∧ t.clk.time = s.clk.time + 10 ∧ SameBut [.time, .stallCounters] s t := by
  refine ⟨refEdge s, by rw [exec_clkRefEdge, if_pos h], time_refEdge s, ?_⟩
  obtain ⟨st, hEdge⟩ := refEdge_eq s
  rw [hEdge]
  intro p; cases p <;> simp [Part.same]

theorem refEdge_boundary {s : State} (h : (s.now + 10) / 1000 ≠ s.now / 1000) :
    ∃ t, exec .clkRefEdge s = .next t ∧ t.clk.time = s.clk.time + 10 ∧
      t.cnt.fillUs = satAdd 40 s.cnt.fillUs s.filling ∧ t.cnt.fillPeriods = s.cnt.fillPeriods ∧
      t.pwr = { s.pwr with
        excessUs := satAdd 20 s.pwr.excessUs (s.pwr.rows.filter (fun r => r.2.excess (s.now + 10))).length } ∧
      SameBut [.power, .time, .stallCounters, .fillCounter] s t := by
  refine ⟨_, by rw [exec_clkRefEdge, if_neg h], ?_⟩
  obtain ⟨st, hEdge⟩ := refEdge_eq s
  rw [hEdge]
  refine ⟨rfl, rfl, rfl, rfl, ?_⟩
  intro p; cases p <;> simp [Part.same, usBoundary]

/-- Settles O47: a clear writes one entry; a capture deals out the unsettled cycles in full and counts what is left as
idle, so that its slots add up to the elapsed cycles; an edge counts each engine's block once, the blocks being
distinct. -/
theorem countersClearAndCapture : Obligations.CountersClearAndCapture := by
  refine ⟨partition_clears, device_clears, fun parts shared s => ?_,
    fun s => ⟨?_, refEdge_inside, refEdge_boundary⟩⟩
  · obtain ⟨t, e, hTime, hParts, hTaken, hOther⟩ := snapshot_covers parts shared s
    exact ⟨t, e, hTime, hParts, fun k hk => hTaken k (mem_snapEngines.mpr hk),
      fun k hk => hOther k (fun hm => hk (mem_snapEngines.mp hm))⟩
  · rintro u rfl
    obtain ⟨t, e, hSnap, hStall⟩ := refEdge_counts s
    exact ⟨t, e, hSnap, fun k hk => (hStall k).trans (stall_countStalls hk s.now _)⟩

end Sys2Proof.Machine
end

section
/-! PROOFS. What the queues, keepers, commands in flight and envelopes read as over a frame and after an update: the
layer under the obligations on command streams (O11 to O22). -/

namespace Sys2Proof.Machine

/-! ### Frames in sequence -/

/-- A set of parts lies within its union with another. -/
theorem sub_union (a b : Nat) : (Nat.land a (a ||| b) == a) = true := by
  have h : a &&& (a ||| b) = a := Nat.eq_of_testBit_eq fun i => by
    simp only [Nat.testBit_and, Nat.testBit_or]
    cases a.testBit i <;> rfl
  simpa using h

/-- Two operations in sequence touch at most the parts of both. -/
theorem Keeps.next {a b : Nat} {s t u : State} (h : Keeps a s t) (k : Keeps b t u) : Keeps (a ||| b) s u :=
  k.app (Nat.or_comm b a ▸ sub_union b a) (h.weaken (sub_union a b))

/-! ### Reads over a frame

Bits 10 to 15 of a set of parts stand for the queues, keepers, commands in flight, response rings, admission counters and
envelopes, bit 44 for CNT_TIME. -/

section
variable {m : Nat} {s t : State} (k : Keeps m s t)
include k

theorem Keeps.queue_eq (q : Nat) (h : m.testBit 10 = false := by decide) : t.queue q = s.queue q := by
  have e : s.tcs.queues = t.tcs.queues := k.same (p := .queues) h
  simp only [State.queue, e]

theorem Keeps.keeper_eq (j : Nat) (h : m.testBit 11 = false := by decide) : t.keeper j = s.keeper j := by
  have e : s.tcs.keepers = t.tcs.keepers := k.same (p := .keepers) h
  simp only [State.keeper, e]

theorem Keeps.inflight_eq (q : Nat) (pos : BitVec 32) (h : m.testBit 12 = false := by decide) :
    t.inflight q pos = s.inflight q pos := by
  obtain ⟨e, -⟩ : s.tcs.inflight = t.tcs.inflight ∧ _ := k.same (p := .inflight) h
  simp only [State.inflight, e]

theorem Keeps.respRing_eq (p : Nat) (h : m.testBit 13 = false := by decide) : t.respRing p = s.respRing p := by
  have e : s.tcs.resp = t.tcs.resp := k.same (p := .response) h
  simp only [State.respRing, e]

theorem Keeps.admCnt_eq (h : m.testBit 14 = false := by decide) : t.tcs.admCnt = s.tcs.admCnt :=
  (k.same (p := .admission) h).symm

theorem Keeps.admQueue_eq (h : m.testBit 15 = false := by decide) : t.tcs.admQueue = s.tcs.admQueue := by
  obtain ⟨-, e, -⟩ := k.same (p := .envelopes) h
  exact e.symm

theorem Keeps.admSeq_eq (h : m.testBit 15 = false := by decide) : t.tcs.admSeq = s.tcs.admSeq := by
  obtain ⟨-, -, -, e⟩ := k.same (p := .envelopes) h
  exact e.symm

theorem Keeps.env_eq (uid : Nat) (h : m.testBit 15 = false := by decide) : t.env uid = s.env uid := by
  obtain ⟨e, -⟩ : s.tcs.envs = t.tcs.envs ∧ _ := k.same (p := .envelopes) h
  simp only [State.env, e]

theorem Keeps.now_eq (h : m.testBit 44 = false := by decide) : t.now = s.now :=
  (k.same (p := .time) h).symm

theorem Keeps.otherQueues (q : Nat) (h : m.testBit 10 = false := by decide) : OtherQueues q s t :=
  fun j _ => k.queue_eq j h

theorem Keeps.otherFlights (q : Nat) (pos : BitVec 32) (h : m.testBit 12 = false := by decide) :
    OtherFlights q pos s t := fun j i _ => k.inflight_eq j i h

end

theorem OtherQueues.trans {q : Nat} {s t u : State} (h : OtherQueues q s t) (k : OtherQueues q t u) :
    OtherQueues q s u := fun j hj => (k j hj).trans (h j hj)

theorem OtherKeepers.trans {k : Nat} {s t u : State} (h : OtherKeepers k s t) (h' : OtherKeepers k t u) :
    OtherKeepers k s u := fun j hj => (h' j hj).trans (h j hj)

theorem otherQueues_modQueue (q : Nat) (f : Queue → Queue) (s : State) : OtherQueues q s (modQueue q f s) :=
  fun _ hj => queue_modQueue_ne f s hj

theorem otherKeepers_setKeeper (k : Nat) (v : BitVec 32) (s : State) : OtherKeepers k s (setKeeper k v s) :=
  fun _ hj => keeper_setKeeper_ne v s hj

/-! ### Commands in flight -/

/-- A command completes after operations that leave the commands in flight alone. -/
theorem completes_after {q : Nat} {pos : BitVec 32} {f : Inflight} {m : Nat} {s t : State}
    (hf : s.inflight q pos = some f) (k : Keeps m s t) (h : m.testBit 12 = false := by decide) :
    Completed q pos (markDone q pos t) ∧ OtherFlights q pos s (markDone q pos t) :=
  ⟨completed_markDone (by simp [k.inflight_eq q pos h, hf]),
    (k.otherFlights q pos h).trans (otherFlights_markDone q pos t)⟩

/-- A command completes after its start and operations that leave the commands in flight alone. -/
theorem completes_after_start {q : Nat} {pos : BitVec 32} {f : Inflight} {m : Nat} {s t : State}
    (hf : s.inflight q pos = some f) (k : Keeps m (markStarted q pos s) t) (h : m.testBit 12 = false := by decide) :
    Completed q pos (markDone q pos t) ∧ OtherFlights q pos s (markDone q pos t) := by
  obtain ⟨hDone, hOthers⟩ := completes_after (inflight_markStarted hf) k h
  exact ⟨hDone, (otherFlights_markStarted q pos s).trans hOthers⟩

theorem inflight_dropMarker_same (q : Nat) (pos : BitVec 32) (s : State) :
    (dropMarker q pos s).inflight q pos = none := by
  simp only [State.inflight, dropMarker, modTcs_tcs, List.find?_eq_none, List.mem_filter]
  rintro f ⟨-, hf⟩
  simpa only [Bool.not_eq_true', Bool.not_eq_true] using hf

theorem otherFlights_dropMarker (q : Nat) (pos : BitVec 32) (s : State) :
    OtherFlights q pos s (dropMarker q pos s) := by
  intro j i hne
  have hKept : ∀ f : Inflight, (f.q == j && f.pos == i) = true → (! (f.q == q && f.pos == pos)) = true := by
    intro f hf
    simp only [Bool.and_eq_true, beq_iff_eq] at hf
    obtain ⟨rfl, rfl⟩ := hf
    simpa only [Bool.not_eq_true', Bool.and_eq_false_iff, beq_eq_false_iff_ne, ne_eq,
      Decidable.not_and_iff_or_not] using hne
  simp only [State.inflight, dropMarker, modTcs_tcs, List.find?_filter]
  congr 1
  funext f
  cases hf : (f.q == j && f.pos == i) with
  | false => simp
  | true => simpa using hKept f hf

/-! ### The start of a control core's command -/

theorem arrayOf_eq_none {w : CmdWord} (h : opcodeOf w < 0x10 ∨ 0x26 < opcodeOf w) : arrayOf w = none := by
  simp only [arrayOf, ite_eq_right_iff, Bool.or_eq_true, Bool.and_eq_true, decide_eq_true_eq]
  omega

theorem startCmd_of_noArray {f : Inflight} (h : arrayOf f.word = none) (s : State) :
    startCmd f s = markStarted f.q f.pos s := by
  simp [startCmd, h]

/-- A control core's command whose turn has come runs its body between its marks. -/
theorem runNow_core {s : State} {kind : CmdWord → Bool} {q : Nat} {pos : BitVec 32}
    {reads : Inflight → State → List (Nat × Nat)} {f : Inflight} (h : s.gate kind q pos reads = .go f)
    (hw : opcodeOf f.word < 0x10 ∨ 0x26 < opcodeOf f.word) (body : Inflight → State → State) :
    runNow kind q pos reads body s = markDone q pos (body f (markStarted q pos s)) := by
  obtain ⟨hf, -, -, -⟩ := gate_go h
  obtain ⟨rfl, rfl⟩ := inflight_pos hf
  rw [runNow_go h, startCmd_of_noArray (arrayOf_eq_none hw)]

/-! ### Envelopes -/

theorem env_uid {s : State} {uid : Nat} {e : Envelope} (h : s.env uid = some e) : e.uid = uid := by
  simpa using List.find?_some h

/-- An update of one envelope that keeps its number, as every envelope reads after it. -/
theorem env_modEnv {uid : Nat} {g : Envelope → Envelope} (hg : ∀ e, (g e).uid = e.uid) (j : Nat) (s : State) :
    (modEnv uid g s).env j = (s.env j).map (fun e => if e.uid = uid then g e else e) := by
  have hp : ((fun e : Envelope => e.uid == j) ∘ fun e => if e.uid = uid then g e else e) = fun e => e.uid == j := by
    funext e
    simp only [Function.comp_apply]
    split
    · rw [hg]
    · rfl
  simp only [State.env, modEnv, modTcs_tcs, List.find?_map, hp]

theorem env_modEnv_same {uid : Nat} {g : Envelope → Envelope} {e : Envelope} {s : State} (h : s.env uid = some e)
    (hg : ∀ e, (g e).uid = e.uid) : (modEnv uid g s).env uid = some (g e) := by
  simp [env_modEnv hg, h, env_uid h]

theorem env_modEnv_ne {uid j : Nat} {g : Envelope → Envelope} (hj : j ≠ uid) (hg : ∀ e, (g e).uid = e.uid) (s : State) :
    (modEnv uid g s).env j = s.env j := by
  rw [env_modEnv hg]
  cases h : s.env j with
  | none => rfl
  | some e => simp [env_uid h, hj]

end Sys2Proof.Machine
end

section
/-! PROOFS. Response rings, doorbells and the life of a queue (R163–R165, R173, R183, R193, R450): the obligations O11
to O13. -/

namespace Sys2Proof.Machine

/-! ### O11: response rings (R193, R450) -/

/-- A ring that has one free slot left is full. -/
theorem putResp_full {p : Nat} {s : State}
    (h : ((s.respRing p).wp + 1) % ringSize (s.respRing p).sizeCode = (s.respRing p).rp) (r : List Byte) :
    putResp p r s = (setResp p { s.respRing p with dropped := satAdd 16 (s.respRing p).dropped 1 } s, false, none) := by
  simp only [putResp, if_pos h]

theorem putResp_room {p : Nat} {s : State}
    (h : ((s.respRing p).wp + 1) % ringSize (s.respRing p).sizeCode ≠ (s.respRing p).rp) (r : List Byte) :
    putResp p r s =
      (memWrite (ringAcc p) ((s.respRing p).base.toNat + 32 * (s.respRing p).wp) r
        (setResp p { s.respRing p with wp := ((s.respRing p).wp + 1) % ringSize (s.respRing p).sizeCode } s), true,
        s.unmappedIn p ((s.respRing p).base.toNat + 32 * (s.respRing p).wp) 32) := by
  simp only [putResp, if_neg h]

/-- Settles O11: a full ring takes the branch that only counts; the bytes of a record written leave the ring's registers
alone. -/
theorem responseRingFull : Obligations.ResponseRingFull := by
  intro p r s
  constructor
  · intro h
    rw [putResp_full h]
    exact ⟨rfl, respRing_setResp_same p _ s, sameBut_setResp p _ s⟩
  · intro h
    rw [putResp_room h]
    exact ⟨rfl, ((keeps_memWrite ..).respRing_eq p).trans (respRing_setResp_same p _ s),
      ((keeps_setResp ..).next (keeps_memWrite ..)).sameBut_of_bits (by decide)⟩

/-! ### O12: doorbells (R164) -/

theorem exec_queueDoorbell (q : QIdx) (v : BitVec 32) (s : State) :
    exec (.queueDoorbell q v) s = .next (
      if doorbellOk (s.queue q) v then setQueue q { s.queue q with tail := v } s
      else eventP 0x0301 2 (partOfQ q) (le 2 q.val ++ le 4 (s.queue q).tail.toNat ++ le 4 v.toNat) s) := rfl

theorem doorbellOk_iff (k : Queue) (v : BitVec 32) : doorbellOk k v = true ↔
    (v - k.head).toNat ≤ ringSize k.sizeCode ∧ (v - k.tail).toNat < 2 ^ 31 := by
  simp only [doorbellOk, Bool.and_eq_true, decide_eq_true_eq]

theorem sameBut_eventP (code sev p : Nat) (data : List Byte) (s : State) :
    SameBut eventParts s (eventP code sev p data s) :=
  (keeps_eventP code sev p data s).sameBut_of_bits (by decide)

/-- Settles O12: the two conditions of `doorbellOk`, and what an event leaves. -/
theorem doorbellsMoveTheTail : Obligations.DoorbellsMoveTheTail := by
  intro q v s
  constructor
  · intro hHead hTail
    exact ⟨_, by rw [exec_queueDoorbell, if_pos ((doorbellOk_iff ..).mpr ⟨hHead, hTail⟩)], queue_setQueue_same q _ s,
      fun j hj => queue_setQueue_ne _ s hj, sameBut_setQueue q _ s⟩
  · intro hOut
    have hBad : ¬ doorbellOk (s.queue q) v = true := by rw [doorbellOk_iff]; omega
    exact ⟨_, by rw [exec_queueDoorbell, if_neg hBad], (keeps_eventP ..).queue_eq q, sameBut_eventP _ _ _ _ s, rfl⟩

/-! ### O13: enable, disable, resume, abort (R165, R173, R183) -/

theorem exec_queueEnable_taken {fn : Func} {q : QIdx} {s : State} (hOff : (s.queue q).enable = false)
    (h : enableBlock fn q (partOfQ q) (queueOffset fn q 8) s = none) :
    exec (.queueEnable fn q) s = .next (startQueue q s) := by
  change execQueueEnable fn q s = _
  simp only [execQueueEnable, hOff, h, Bool.false_eq_true, if_false]

theorem enableBlock_eq_none {p : Nat} {s : State} (hReady : s.isReady = true)
    (hAbi : (s.abi (s.ownerFn p)).activeMajor ≠ 0) (hHalt : s.evt.halted.getLsbD p = false) (fn q off : Nat) :
    enableBlock fn q p off s = none := by
  simp [enableBlock, hReady, hAbi, hHalt]

theorem exec_queueDisable (q : QIdx) (s : State) : exec (.queueDisable q) s =
    .next (holdIfIdle (partOfQ q) (modQueue q (fun k => { k with enable := false, state := 0 }) s)) := rfl

theorem exec_queueResume {q : QIdx} {s : State} (h : (s.queue q).state = 3) : exec (.queueResume q) s =
    .next (modQueue q (fun k => { k with state := 1, wait := none }) s) :=
  congrArg Host.Outcome.next (if_pos h)

/-- A queue skips its own part alone. -/
theorem queue_skipPart_ne {q j : Nat} (h : j ≠ q) (e : Envelope) (s : State) :
    (skipPart e q s).queue j = s.queue j := by
  have hDrop (q : Nat) (pos : BitVec 32) (s : State) : (dropMarker q pos s).queue j = s.queue j :=
    (keeps_dropMarker q pos s).queue_eq j
  have hWait (s : State) : (dropWait q s).queue j = s.queue j := (keeps_dropWait q s).queue_eq j
  unfold skipPart
  split
  · rfl
  next x _ =>
  simp only
  cases x.close with
  | none =>
    simp only
    split
    · simp only [queue_modQueue_ne _ _ h, hWait, hDrop]
    · split <;> simp only [queue_modQueue_ne _ _ h, hWait, hDrop]
  | some c =>
    simp only
    split <;> simp only [queue_modQueue_ne _ _ h, hWait, hDrop]

/-- A queue excepted from a skip stays as it is. -/
theorem queue_skipEnvelope_except (uid q : Nat) (s : State) :
    (skipEnvelope uid (some q) s).queue q = s.queue q := by
  unfold skipEnvelope
  cases s.env uid with
  | none => rfl
  | some e =>
    refine ((keeps_modEnv ..).queue_eq q).trans
      (List.foldlRecOn (motive := fun t : State => t.queue q = s.queue q) _ _ rfl fun t ht x hx => ?_)
    have hq : x.q ≠ q := by simpa using (List.mem_filter.mp hx).2
    exact (queue_skipPart_ne (Ne.symm hq) e t).trans ht

/-- An envelope aborted from a queue leaves the queue as the abort set it. -/
theorem queue_abortEnvelope (q : Nat) (s : State) (e : Envelope) : (abortEnvelope q s e).queue q = s.queue q := by
  refine ((keeps_respond ..).queue_eq q).trans (((keeps_leaveQueue ..).queue_eq q).trans ?_)
  exact ((keeps_modEnv ..).queue_eq q).trans
    (((keeps_modEnv ..).queue_eq q).trans (queue_skipEnvelope_except e.uid q s))

/-- A queue that an abort has disabled (R173). -/
def Queue.aborting (k : Queue) : Queue :=
  { k with head := k.tail, state := 0, enable := false, env := none, wait := none, aborted := true }

theorem queue_abortQueue (q : Nat) (s : State) : (abortQueue q s).queue q = (s.queue q).aborting := by
  unfold abortQueue
  refine ((keeps_holdIfIdle ..).queue_eq q).trans (((keeps_purgeEnvs _).queue_eq q).trans ?_)
  refine (List.foldlRecOn (motive := fun t : State => t.queue q = (s.queue q).aborting) _ _ ?_ fun t ht e _ =>
    (queue_abortEnvelope q t e).trans ht)
  refine (queue_modQueue_same ..).trans (congrArg Queue.aborting ?_)
  refine ((keeps_dropWait ..).queue_eq q).trans ?_
  exact List.foldlRecOn (motive := fun t : State => t.queue q = s.queue q) _ _ ((keeps_discardPart ..).queue_eq q)
    fun t ht i _ => ((keeps_dropMarker q i t).queue_eq q).trans ht

/-- Settles O13: an abort's envelopes make the other queues skip their parts and leave the aborted queue alone. -/
theorem queuesStartStopResumeAbort : Obligations.QueuesStartStopResumeAbort := by
  refine ⟨fun fn q s hOff hReady hAbi hHalt => ?_, fun q s => ?_, fun q s h => ?_, fun q s => ?_⟩
  · exact ⟨_, exec_queueEnable_taken hOff (enableBlock_eq_none hReady hAbi hHalt ..), otherQueues_modQueue q _ s,
      sameBut_modQueue q _ s, queue_modQueue_same q _ s⟩
  · exact ⟨_, exec_queueDisable q s, (otherQueues_modQueue q _ s).trans ((keeps_holdIfIdle ..).otherQueues q),
      ((keeps_holdIfIdle ..).queue_eq q).trans (queue_modQueue_same q _ s),
      ((keeps_modQueue ..).next (keeps_holdIfIdle ..)).sameBut_of_bits (by decide)⟩
  · exact ⟨_, exec_queueResume h, otherQueues_modQueue q _ s, queue_modQueue_same q _ s, sameBut_modQueue q _ s⟩
  · refine ⟨abortQueue q s, rfl, ?_⟩
    rw [queue_abortQueue]
    exact ⟨rfl, rfl, rfl, rfl, (keeps_abortQueue q s).sameBut_of_bits (by decide)⟩

end Sys2Proof.Machine
end

section
/-! PROOFS. Dispatch, completion and the opcodes without an engine (R163, R167–R169, R172, R180): the obligation O15. -/

namespace Sys2Proof.Machine

/-! ### O15: dispatch (R163, R169, R180) -/

/-- A queue whose head command has been dispatched: a marker holds it, and some opcodes stop its dispatch. -/
def Queue.dispatched (k : Queue) (w : CmdWord) : Queue :=
  let held := opcodeOf w = 0x61 || opcodeOf w = 0x62
  { k with
    head := if held then k.head else k.head + 1
    state := if held then 2 else k.state
    wait := if blocksQueue (opcodeOf w) then some k.head else none }

/-- The head command of a queue handed over to its engine. -/
def handOverHead (q : Nat) (w : CmdWord) (s : State) : State :=
  modQueue q (fun k => k.dispatched w)
    (modTcs (fun t => { t with inflight := t.inflight ++ [handOver s q w], nextOrd := t.nextOrd + 1 }) s)

/-- What a dispatch does after the hand-over: the ring slot's placements, and the events of its read. -/
def afterDispatch (q : Nat) (k : Queue) (errs : List ReadError) (s u : State) : State :=
  let a := ringReader q k.head
  noteErrors 4 errs (eventUnmapped a (s.unmappedIn a.part (k.slotDva k.head) 32)
    (touchRead a false (k.slotDva k.head) 32 u))

theorem exec_commandDispatch {q : QIdx} {errs : List ReadError} {w : CmdWord} {s u : State}
    (hu : u = keepStored (ringReader q (s.queue q).head) errs s) (hw : w = u.slot q (s.queue q).head)
    (hMay : mayDispatch s q w = true)
    (hFree : s.blocked (readsOf (ringReader q (s.queue q).head) [((s.queue q).slotDva (s.queue q).head, 32)]) = false) :
    exec (.commandDispatch q errs) s = .next (afterDispatch q (s.queue q) errs u (handOverHead q w u)) := by
  subst hu hw
  change execCommandDispatch q s errs = _
  simp only [execCommandDispatch, hMay, Bool.not_true, Bool.false_eq_true, if_false]
  exact congrArg Host.Outcome.next (whenReached_free hFree)

theorem keeps_afterDispatch (q : Nat) (k : Queue) (errs : List ReadError) (s u : State) :
    Keeps (1351614464 ||| 1353719858 ||| 36310273399906354) u (afterDispatch q k errs s u) :=
  ((keeps_touchRead ..).next (keeps_eventUnmapped ..)).next (keeps_noteErrors ..)

theorem keeps_afterDispatch_noErrors (q : Nat) (k : Queue) (s u : State) :
    Keeps (1351614464 ||| 1353719858) u (afterDispatch q k [] s u) :=
  (keeps_touchRead ..).next (keeps_eventUnmapped ..)

theorem keeps_handOverHead (q : Nat) (w : CmdWord) (s : State) : Keeps (4096 ||| 1024) s (handOverHead q w s) := by
  refine Keeps.next (keeps_modTcs (Keeps.refl 4096 s) ?_ ?_ ?_ ?_ ?_ ?_) (keeps_modQueue ..)
  case refine_3 => exact .inl rfl
  all_goals exact .inr (by simp only [Part.same, modTcs, and_self])

theorem queue_handOverHead (q : Nat) (w : CmdWord) (s : State) :
    (handOverHead q w s).queue q = (s.queue q).dispatched w := queue_modQueue_same ..

theorem otherQueues_handOverHead (q : Nat) (w : CmdWord) (s : State) : OtherQueues q s (handOverHead q w s) :=
  fun _ hj => queue_modQueue_ne _ _ hj

theorem inflight_handOverHead_same {q : Nat} {s : State} (h : s.inflight q (s.queue q).head = none) (w : CmdWord) :
    (handOverHead q w s).inflight q (s.queue q).head = some (handOver s q w) := by
  have hNone : s.tcs.inflight.find? (fun f => f.q == q && f.pos == (s.queue q).head) = none := h
  change (s.tcs.inflight ++ [handOver s q w]).find? _ = _
  simp [List.find?_append, hNone, handOver]

theorem otherFlights_handOverHead (q : Nat) (w : CmdWord) (s : State) :
    OtherFlights q (s.queue q).head s (handOverHead q w s) := by
  intro j i hne
  have hNew : ((handOver s q w).q == j && (handOver s q w).pos == i) = false := by
    refine Bool.eq_false_iff.mpr fun h => hne ?_
    simp only [Bool.and_eq_true, beq_iff_eq] at h
    obtain ⟨hq, hpos⟩ := h
    exact ⟨hq.symm, hpos.symm⟩
  change (s.tcs.inflight ++ [handOver s q w]).find? _ = s.tcs.inflight.find? _
  simp [List.find?_append, hNew]

/-- The copy handed over reads the queue, its envelope, the time and the order of dispatch, no memory. -/
theorem handOver_keepStored (q : Nat) (w : CmdWord) (a : Acc) (errs : List ReadError) (s : State) :
    handOver (keepStored a errs s) q w = handOver s q w := by
  have k := keeps_keepStored a errs s
  have hEnv : (keepStored a errs s).env = s.env := funext fun uid => k.env_eq uid
  have hOrd : (keepStored a errs s).tcs.nextOrd = s.tcs.nextOrd := by
    obtain ⟨-, e⟩ := k.same (p := .inflight) (by decide)
    exact e.symm
  simp only [handOver, k.queue_eq q, k.now_eq, hEnv, hOrd]

theorem dispatched_marker {k : Queue} {w : CmdWord} (h : opcodeOf w = 0x61 ∨ opcodeOf w = 0x62) :
    (k.dispatched w).head = k.head ∧ (k.dispatched w).state = 2 := by
  simp [Queue.dispatched, h]

theorem dispatched_other {k : Queue} {w : CmdWord} (h : ¬ (opcodeOf w = 0x61 ∨ opcodeOf w = 0x62)) :
    (k.dispatched w).head = k.head + 1 ∧ (k.dispatched w).state = k.state := by
  simp [Queue.dispatched, h]

/-- Two dispatches with read errors have one list of parts. -/
theorem partsOf_commandDispatch (q : QIdx) (errs : List ReadError) :
    partsOf (.commandDispatch q errs) = partsOf (.commandDispatch 0 []) := rfl

/-- The head command of a queue that may dispatch is handed over as the read returns it (R163, R169, R180). -/
theorem dispatch_hands_over (q : QIdx) (errs : List ReadError) (w : CmdWord) (s : State) :
    let a := ringReader q (s.queue q).head
    w = (keepStored a errs s).slot q (s.queue q).head → mayDispatch s q w = true →
    s.inflight q (s.queue q).head = none →
    s.blocked (readsOf a [((s.queue q).slotDva (s.queue q).head, 32)]) = false →
    ∃ t, exec (.commandDispatch q errs) s = .next t ∧ OtherQueues q s t ∧ OtherFlights q (s.queue q).head s t ∧
      t.inflight q (s.queue q).head = some (handOver s q w) ∧ (t.queue q).tail = (s.queue q).tail ∧
      (if opcodeOf w = 0x61 ∨ opcodeOf w = 0x62 then (t.queue q).head = (s.queue q).head ∧ (t.queue q).state = 2
       else (t.queue q).head = (s.queue q).head + 1 ∧ (t.queue q).state = (s.queue q).state) ∧
      (errs = [] → SameBut (eventParts ++ [.queues, .inflight]) s t) ∧
      SameBut (partsOf (.commandDispatch q errs)) s t := by
  intro a hw hMay hNone hFree
  obtain ⟨u, hu⟩ : ∃ u, u = keepStored a errs s := ⟨_, rfl⟩
  have hStored : Keeps 69206016 s u := hu ▸ keeps_keepStored a errs s
  have hExec := exec_commandDispatch hu (hu ▸ hw) hMay hFree
  have hQueue : u.queue q = s.queue q := hStored.queue_eq q
  have hAfter := keeps_afterDispatch q (s.queue q) errs u (handOverHead q w u)
  have hThen : (afterDispatch q (s.queue q) errs u (handOverHead q w u)).queue q = (s.queue q).dispatched w := by
    rw [hAfter.queue_eq q, queue_handOverHead, hQueue]
  refine ⟨_, hExec, ?_, ?_, ?_, ?_, ?_, ?_, ?_⟩
  · exact (hStored.otherQueues q).trans ((otherQueues_handOverHead q w u).trans (hAfter.otherQueues q))
  · have hOthers := otherFlights_handOverHead q w u
    rw [hQueue] at hOthers
    exact (hStored.otherFlights q _).trans (hOthers.trans (hAfter.otherFlights q _))
  · have hNone' : u.inflight q (u.queue q).head = none := by rw [hQueue, hStored.inflight_eq, hNone]
    have hSame := inflight_handOverHead_same hNone' w
    rw [hQueue] at hSame
    rw [hAfter.inflight_eq, hSame, hu, handOver_keepStored]
  · rw [hThen]; rfl
  · rw [hThen]
    split
    · next h => exact dispatched_marker h
    · next h => exact dispatched_other h
  · rintro rfl
    obtain rfl : u = s := hu
    exact ((keeps_handOverHead q w u).next (keeps_afterDispatch_noErrors q (u.queue q) u _)).sameBut_of_bits (by decide)
  · rw [partsOf_commandDispatch]
    exact (keeps_execCommandDispatch q errs s _ hExec).sameBut_of_bits (by decide)

/-! ### O15: completion and the opcodes without an engine (R167, R168, R172) -/

theorem exec_commandComplete {q : QIdx} {pos : BitVec 32} {f : Inflight} {s : State} (hf : s.inflight q pos = some f)
    (hd : f.done = true) :
    exec (.commandComplete q pos) s = .next (completionActions q pos f.word (dropMarker q pos s)) := by
  change execCommandComplete q pos s = _
  simp only [execCommandComplete, hf, hd, if_true]

/-- The interrupt of a completion, if it asks for one. -/
def completionIrq (q : Nat) (w : CmdWord) (s : State) : State := if fld w 10 1 = 1 then raiseQueue q s else s

theorem keeps_completionIrq (q : Nat) (w : CmdWord) (s : State) : Keeps 1353719858 s (completionIrq q w s) :=
  Keeps.ite (keeps_raiseQueue q s) (Keeps.refl _ s)

theorem completionActions_signal {w : CmdWord} {q k : Nat} {s : State} (hSig : fld w 9 1 = 1)
    (hk : s.keeperOf (partOfQ q) (fld w 16 16) = some k) (pos : BitVec 32) :
    completionActions q pos w s = completionIrq q w (setKeeper k (s.keeper k + 1) s) := by
  simp only [completionActions, completionIrq, if_pos hSig, hk]

theorem completionActions_silent {w : CmdWord} (hSig : fld w 9 1 = 0) (q : Nat) (pos : BitVec 32) (s : State) :
    completionActions q pos w s = completionIrq q w s := by
  simp [completionActions, completionIrq, hSig]

/-- A completed command leaves flight, signals its keeper and raises its queue's vector (R167). -/
theorem completion_leaves_flight {q : QIdx} {pos : BitVec 32} {f : Inflight} {s : State}
    (hf : s.inflight q pos = some f) (hd : f.done = true) :
    ∃ t, exec (.commandComplete q pos) s = .next t ∧ t.inflight q pos = none ∧ OtherFlights q pos s t ∧
      (∀ k, fld f.word 9 1 = 1 → s.keeperOf (partOfQ q) (fld f.word 16 16) = some k →
        t.keeper k = s.keeper k + 1 ∧ OtherKeepers k s t) ∧
      (fld f.word 9 1 = 0 → ∀ k, t.keeper k = s.keeper k) ∧
      (fld f.word 9 1 = 0 → fld f.word 10 1 = 0 → SameBut [.inflight] s t) ∧
      SameBut (eventParts ++ [.keepers, .inflight]) s t := by
  have hExec := exec_commandComplete hf hd
  have hDrop := keeps_dropMarker q pos s
  have hActs := keeps_completionActions q pos f.word (dropMarker q pos s)
  refine ⟨_, hExec, ?_, ?_, fun k hSig hk => ?_, fun hSig k => ?_, fun hSig hIrq => ?_, ?_⟩
  · exact (hActs.inflight_eq q pos).trans (inflight_dropMarker_same q pos s)
  · exact (otherFlights_dropMarker q pos s).trans (hActs.otherFlights q pos)
  · rw [completionActions_signal (s := dropMarker q pos s) hSig hk]
    have hIrq := keeps_completionIrq q f.word (setKeeper k ((dropMarker q pos s).keeper k + 1) (dropMarker q pos s))
    refine ⟨?_, fun j hj => ?_⟩
    · rw [hIrq.keeper_eq k, keeper_setKeeper_same, hDrop.keeper_eq k]
    · rw [hIrq.keeper_eq j, keeper_setKeeper_ne _ _ hj, hDrop.keeper_eq j]
  · rw [completionActions_silent hSig]
    exact ((keeps_completionIrq ..).keeper_eq k).trans (hDrop.keeper_eq k)
  · rw [completionActions_silent hSig, completionIrq, if_neg (by omega)]
    exact hDrop.sameBut_of_bits (by decide)
  · exact (hDrop.next hActs).sameBut_of_bits (by decide)

theorem exec_nop {q : QIdx} {pos : BitVec 32} {f : Inflight} {s : State} (h : s.gate (isOp 0) q pos noReads = .go f) :
    exec (.nop q pos) s = .next (markDone q pos (markStarted q pos s)) := by
  obtain ⟨-, hk, -, -⟩ := gate_go h
  have hw : opcodeOf f.word = 0 := by simpa [isOp] using hk
  exact congrArg Host.Outcome.next (runNow_core h (by omega) _)

theorem rejectedOp_noArray {op : Nat} (h : rejectedOp op = true) : op < 0x10 ∨ 0x26 < op := by
  simp only [rejectedOp, Bool.or_eq_true, Bool.and_eq_true, decide_eq_true_eq] at h
  omega

theorem exec_rejectedOpcode {q : QIdx} {pos : BitVec 32} {f : Inflight} {s : State}
    (h : s.gate (fun w => rejectedOp (opcodeOf w)) q pos noReads = .go f) :
    exec (.rejectedOpcode q pos) s = .next (markDone q pos (eventP 0x0302 2 (partOfQ q)
      (le 2 q.val ++ le 4 pos.toNat ++ le 1 (opcodeOf f.word)) (markStarted q pos s))) := by
  obtain ⟨hf, hk, -, -⟩ := gate_go h
  obtain ⟨hq, hpos⟩ := inflight_pos hf
  refine congrArg Host.Outcome.next ((runNow_core h (rejectedOp_noArray hk) _).trans ?_)
  simp only [hq, hpos]

/-- Settles O15: a dispatch is the hand-over between the read of the slot and the events of that read, which leave the
queues and the commands in flight alone; the opcodes without an engine run between their marks. -/
theorem dispatchAndCompletion : Obligations.DispatchAndCompletion := by
  refine ⟨dispatch_hands_over, fun q pos f s hf hd => completion_leaves_flight hf hd, fun q pos f s h => ?_,
    fun q pos f s h => ?_⟩
  · obtain ⟨hf, -, -, -⟩ := gate_go h
    obtain ⟨hDone, hOthers⟩ := completes_after_start hf (Keeps.refl 0 _)
    exact ⟨_, exec_nop h, hDone, hOthers, ((keeps_markStarted ..).next (keeps_markDone ..)).sameBut_of_bits (by decide)⟩
  · obtain ⟨hf, -, -, -⟩ := gate_go h
    obtain ⟨hDone, hOthers⟩ := completes_after_start hf (keeps_eventP ..)
    exact ⟨_, exec_rejectedOpcode h, hDone, hOthers,
      (((keeps_markStarted ..).next (keeps_eventP ..)).next (keeps_markDone ..)).sameBut_of_bits (by decide), rfl⟩

end Sys2Proof.Machine
end

section
/-! PROOFS. Keepers, phase marks and drains (R169, R172–R177, R360, R434): the obligations O16 to O19. -/

namespace Sys2Proof.Machine

/-! ### O16: keeper commands (R172, R174) -/

theorem touchAll_nil (s : State) : touchAll [] s = (s, true) := rfl

/-- A step without accesses waits for nothing. -/
theorem blocked_nil (s : State) : s.blocked [] = false := by
  simp [State.blocked, touchAll_nil, homesIn, wroteThrottled]

/-- A control core's command that can make its accesses runs its body between its marks. -/
theorem runNowAt_core {s : State} {kind : CmdWord → Bool} {q : Nat} {pos : BitVec 32}
    {reads : Inflight → State → List (Nat × Nat)} {accs : Inflight → State → List Access} {f : Inflight}
    (h : s.gate kind q pos reads = .go f) (hw : opcodeOf f.word < 0x10 ∨ 0x26 < opcodeOf f.word)
    (hb : s.blocked (accs f s) = false) (body : Inflight → State → State) :
    runNowAt kind q pos reads accs body s = markDone q pos (body f (markStarted q pos s)) := by
  obtain ⟨hf, -, -, -⟩ := gate_go h
  obtain ⟨rfl, rfl⟩ := inflight_pos hf
  rw [runNowAt, h]
  exact (whenReached_free hb).trans (by rw [startCmd_of_noArray (arrayOf_eq_none hw)])

theorem opcodeOf_of_gate {s : State} {op q : Nat} {pos : BitVec 32} {reads : Inflight → State → List (Nat × Nat)}
    {f : Inflight} (h : s.gate (isOp op) q pos reads = .go f) : opcodeOf f.word = op := by
  obtain ⟨-, hk, -, -⟩ := gate_go h
  simpa [isOp] using hk

theorem keeperCmd_reached {f : Inflight} {k : Nat} {s : State}
    (h : s.keeperOf (partOfQ f.q) (fld f.word 48 16) = some k) (g : Nat → State → State) : keeperCmd f g s = g k s := by
  simp only [keeperCmd, h]

theorem keeperCmd_beyond {f : Inflight} {s : State} (h : s.keeperOf (partOfQ f.q) (fld f.word 48 16) = none)
    (g : Nat → State → State) :
    keeperCmd f g s = eventKeeper (partOfQ f.q) f.q f.pos.toNat (fld f.word 48 16) s := by
  simp only [keeperCmd, h]

theorem exec_kpSet {q : QIdx} {pos : BitVec 32} {f : Inflight} {s : State}
    (h : s.gate (isOp 0x41) q pos noReads = .go f) : exec (.kpSet q pos) s = .next (markDone q pos
      (keeperCmd f (fun k s => setKeeper k (f.word.extractLsb' 64 32) s) (markStarted q pos s))) :=
  congrArg Host.Outcome.next (runNow_core h (by rw [opcodeOf_of_gate h]; decide) _)

theorem exec_kpAdd {q : QIdx} {pos : BitVec 32} {f : Inflight} {s : State}
    (h : s.gate (isOp 0x42) q pos noReads = .go f) : exec (.kpAdd q pos) s = .next (markDone q pos
      (keeperCmd f (fun k s => setKeeper k (s.keeper k + f.word.extractLsb' 64 32) s) (markStarted q pos s))) :=
  congrArg Host.Outcome.next (runNow_core h (by rw [opcodeOf_of_gate h]; decide) _)

/-- The swap of a kp.cas: y where the keeper equals x. -/
def casSwap (f : Inflight) (k : Nat) (s : State) : State :=
  if s.keeper k = f.word.extractLsb' 64 32 then setKeeper k (f.word.extractLsb' 96 32) s else s

/-- A kp.cas on a keeper: the swap, then the store of the old value, if it names an address. -/
def casKeeper (f : Inflight) (k : Nat) (s : State) : State :=
  if fld f.word 128 52 = 0 then casSwap f k s
  else eventUnmapped (coreAcc f) (s.unmappedIn (partOfQ f.q) (fld f.word 128 52) 4)
    (cmdWrite (coreAcc f) (fld f.word 128 52) (le 4 (s.keeper k).toNat) (casSwap f k s))

/-- The write that a kp.cas waits for. -/
def casWrites (f : Inflight) (s : State) : List Access :=
  if (s.keeperOf (partOfQ f.q) (fld f.word 48 16)).isNone || fld f.word 128 52 == 0 then []
  else writesOf (coreAcc f) [(fld f.word 128 52, 4)]

theorem exec_kpCas {q : QIdx} {pos : BitVec 32} {f : Inflight} {s : State}
    (h : s.gate (isOp 0x43) q pos noReads = .go f) (hb : s.blocked (casWrites f s) = false) :
    exec (.kpCas q pos) s = .next (markDone q pos (keeperCmd f (casKeeper f) (markStarted q pos s))) :=
  congrArg Host.Outcome.next (runNowAt_core h (by rw [opcodeOf_of_gate h]; decide) hb _)

theorem blocked_casWrites_beyond {f : Inflight} {s : State}
    (h : s.keeperOf (partOfQ f.q) (fld f.word 48 16) = none) : s.blocked (casWrites f s) = false := by
  simp [casWrites, h, blocked_nil]

theorem blocked_casWrites {f : Inflight} {s : State}
    (h : fld f.word 128 52 ≠ 0 → s.blocked (writesOf (coreAcc f) [(fld f.word 128 52, 4)]) = false) :
    s.blocked (casWrites f s) = false := by
  unfold casWrites
  split
  · exact blocked_nil s
  · next hc => exact h fun h0 => hc (by simp [h0])

theorem keeper_casSwap (f : Inflight) (k : Nat) (s : State) : (casSwap f k s).keeper k =
    if s.keeper k = f.word.extractLsb' 64 32 then f.word.extractLsb' 96 32 else s.keeper k := by
  unfold casSwap
  split
  · exact keeper_setKeeper_same ..
  · rfl

theorem otherKeepers_casSwap (f : Inflight) (k : Nat) (s : State) : OtherKeepers k s (casSwap f k s) := by
  intro j hj
  unfold casSwap
  split
  · exact keeper_setKeeper_ne _ s hj
  · rfl

theorem keeps_casSwap (f : Inflight) (k : Nat) (s : State) : Keeps 2048 s (casSwap f k s) :=
  Keeps.ite (keeps_setKeeper ..) (Keeps.refl _ s)

theorem keeps_casKeeper (f : Inflight) (k : Nat) (s : State) :
    Keeps (1420820480 ||| 1353719858) (casSwap f k s) (casKeeper f k s) :=
  Keeps.ite (Keeps.refl _ _) ((keeps_cmdWrite ..).next (keeps_eventUnmapped ..))

/-- What a keeper command leaves that ends as a write of one keeper, from its start on. -/
theorem keeper_command_sets {q : QIdx} {pos : BitVec 32} {f : Inflight} {s : State} (hf : s.inflight q pos = some f)
    (k : Nat) (v : BitVec 32) :
    let t := markDone q pos (setKeeper k v (markStarted q pos s))
    t.keeper k = v ∧ OtherKeepers k s t ∧ Completed q pos t ∧ OtherFlights q pos s t ∧
      SameBut [.keepers, .inflight] s t := by
  intro t
  obtain ⟨hDone, hOthers⟩ := completes_after_start hf (keeps_setKeeper k v _)
  exact ⟨keeper_setKeeper_same k v _, otherKeepers_setKeeper k v _, hDone, hOthers,
    (((keeps_markStarted ..).next (keeps_setKeeper ..)).next (keeps_markDone ..)).sameBut_of_bits (by decide)⟩

/-- A kp.cas compares, swaps and stores the old value (R174). -/
theorem kpCas_swaps {q : QIdx} {pos : BitVec 32} {f : Inflight} {k : Nat} {s : State}
    (hk : s.keeperOf (partOfQ q) (fld f.word 48 16) = some k) (h : s.gate (isOp 0x43) q pos noReads = .go f)
    (hb : fld f.word 128 52 ≠ 0 → s.blocked (writesOf (coreAcc f) [(fld f.word 128 52, 4)]) = false) :
    let v := if s.keeper k = f.word.extractLsb' 64 32 then f.word.extractLsb' 96 32 else s.keeper k
    ∃ t, exec (.kpCas q pos) s = .next t ∧ t.keeper k = v ∧
      OtherKeepers k s t ∧ Completed q pos t ∧ OtherFlights q pos s t ∧
      (fld f.word 128 52 = 0 → SameBut [.keepers, .inflight] s t) ∧
      (fld f.word 128 52 ≠ 0 →
        t = markDone q pos (eventUnmapped (coreAcc f) (s.unmappedIn (partOfQ q) (fld f.word 128 52) 4)
          (cmdWrite (coreAcc f) (fld f.word 128 52) (le 4 (s.keeper k).toNat)
            (if s.keeper k = f.word.extractLsb' 64 32 then setKeeper k v (markStarted q pos s)
             else markStarted q pos s)))) ∧
      SameBut (partsOf (.kpCas q pos)) s t := by
  intro v
  obtain ⟨hf, -, -, -⟩ := gate_go h
  obtain ⟨hq, -⟩ := inflight_pos hf
  have hReached : (markStarted q pos s).keeperOf (partOfQ f.q) (fld f.word 48 16) = some k := hq.symm ▸ hk
  have hExec := exec_kpCas h (blocked_casWrites hb)
  rw [keeperCmd_reached hReached] at hExec
  have hSwap := keeps_casSwap f k (markStarted q pos s)
  have hStore := keeps_casKeeper f k (markStarted q pos s)
  obtain ⟨hDone, hOthers⟩ := completes_after_start hf (hSwap.next hStore)
  refine ⟨_, hExec, (hStore.keeper_eq k).trans (keeper_casSwap f k _),
    (otherKeepers_casSwap f k (markStarted q pos s)).trans fun j _ => hStore.keeper_eq j, hDone, hOthers, fun h0 => ?_,
    fun h0 => ?_, ?_⟩
  · rw [casKeeper, if_pos h0]
    exact (((keeps_markStarted ..).next hSwap).next (keeps_markDone ..)).sameBut_of_bits (by decide)
  · have hNew : casSwap f k (markStarted q pos s) =
        if s.keeper k = f.word.extractLsb' 64 32 then setKeeper k v (markStarted q pos s) else markStarted q pos s := by
      rw [casSwap, (keeps_markStarted q pos s).keeper_eq k]
      split
      · next hx => simp only [v, if_pos hx]
      · rfl
    rw [casKeeper, if_neg h0, hNew, hq]
    rfl
  · have hParts : partsOf (.kpCas q pos) = partsOf (.kpCas 0 0) := rfl
    rw [hParts]
    exact (keeps_execKpCas q pos s _ hExec).sameBut_of_bits (by decide)

/-- Settles O16: the three commands are one body between the marks of a control core's command; what a kp.cas stores
leaves the keepers alone. -/
theorem keeperCommands : Obligations.KeeperCommands := by
  refine fun q pos f k s => ⟨fun hk => ⟨fun h => ?_, fun h => ?_, kpCas_swaps hk⟩, fun hk hf => ?_⟩
  · obtain ⟨hf, -, -, -⟩ := gate_go h
    obtain ⟨hq, -⟩ := inflight_pos hf
    exact ⟨_, (exec_kpSet h).trans (by rw [keeperCmd_reached (s := markStarted q pos s) (hq.symm ▸ hk)]),
      keeper_command_sets hf k _⟩
  · obtain ⟨hf, -, -, -⟩ := gate_go h
    obtain ⟨hq, -⟩ := inflight_pos hf
    exact ⟨_, (exec_kpAdd h).trans (by rw [keeperCmd_reached (s := markStarted q pos s) (hq.symm ▸ hk)]; rfl),
      keeper_command_sets hf k _⟩
  · intro t
    obtain ⟨hDone, hOthers⟩ := completes_after_start hf (keeps_eventP ..)
    obtain ⟨hq, hpos⟩ := inflight_pos hf
    have hBeyond : s.keeperOf (partOfQ f.q) (fld f.word 48 16) = none := hq.symm ▸ hk
    have hEvent (g : Nat → State → State) : markDone q pos (keeperCmd f g (markStarted q pos s)) = t := by
      rw [keeperCmd_beyond (s := markStarted q pos s) hBeyond, hq, hpos]
      rfl
    refine ⟨hDone, hOthers,
      (((keeps_markStarted ..).next (keeps_eventP ..)).next (keeps_markDone ..)).sameBut_of_bits (by decide),
      fun h => ?_, fun h => ?_, fun h => ?_⟩
    · rw [exec_kpSet h, hEvent]
    · rw [exec_kpAdd h, hEvent]
    · rw [exec_kpCas h (blocked_casWrites_beyond hBeyond), hEvent]

/-! ### O17: kp.wait (R169, R172, R174) -/

theorem waitMet_internal {f : Inflight} {k : Nat} {s : State} (hInt : waitIsExternal s f = false)
    (hk : s.keeperOf (partOfQ f.q) (fld f.word 48 16) = some k) :
    waitMet s f = waitHolds (fld f.word 96 2) (s.keeper k) (f.word.extractLsb' 64 32) := by
  simp only [waitMet, hInt, hk, Bool.false_or]
  rfl

/-- The turn of a kp.wait on a keeper that the partition reaches. -/
theorem waitTurn_internal {f : Inflight} {k : Nat} {s : State} (hLate : s.isLate f [] = false)
    (hInt : waitIsExternal s f = false) (hk : s.keeperOf (partOfQ f.q) (fld f.word 48 16) = some k) :
    waitTurn f s =
      if waitHolds (fld f.word 96 2) (s.keeper k) (f.word.extractLsb' 64 32) then markDone f.q f.pos (releaseWait f s)
      else markStarted f.q f.pos s := by
  simp only [waitTurn, hLate, hk, waitMet_internal hInt hk, Option.isNone_some, Bool.false_eq_true, if_false]

theorem exec_kpWait {q : QIdx} {pos : BitVec 32} {f : Inflight} {s : State} (hf : s.inflight q pos = some f)
    (hOp : opcodeOf f.word = 0x40) (hDone : f.done = false) (hNew : f.started = false) (hOrd : s.inOrder f = true) :
    exec (.kpWait q pos) s = .next (waitTurn f s) := by
  change execKpWait q pos s = _
  simp [execKpWait, hf, isOp, hOp, hDone, hNew, hOrd, Option.filter]

theorem exec_kpWaitSatisfied {q : QIdx} {pos : BitVec 32} {f : Inflight} {s : State} (hf : s.inflight q pos = some f)
    (hOp : opcodeOf f.word = 0x40) (hDone : f.done = false) (hStarted : f.started = true) :
    exec (.kpWaitSatisfied q pos) s = .next (waitTurn f s) := by
  change execKpWaitSatisfied q pos s = _
  simp [execKpWaitSatisfied, State.running, hf, isOp, hOp, hDone, hStarted, Option.filter]

theorem wait_releaseWait (f : Inflight) (s : State) : ((releaseWait f s).queue f.q).wait =
    if (s.queue f.q).wait = some f.pos then none else (s.queue f.q).wait := by
  rw [releaseWait, queue_modQueue_same]
  split <;> rfl

/-- A wait that is met completes and releases its queue. -/
theorem release_completes {q : QIdx} {pos : BitVec 32} {f : Inflight} {s : State} (hf : s.inflight q pos = some f) :
    let t := markDone q pos (releaseWait f s)
    Completed q pos t ∧ OtherFlights q pos s t ∧ OtherQueues q s t ∧
      (t.queue q).wait = (if (s.queue q).wait = some pos then none else (s.queue q).wait) ∧
      SameBut [.queues, .inflight] s t := by
  intro t
  obtain ⟨hDone, hOthers⟩ := completes_after hf (keeps_releaseWait f s)
  obtain ⟨hq, hpos⟩ := inflight_pos hf
  have hWait := wait_releaseWait f s
  rw [hq, hpos] at hWait
  refine ⟨hDone, hOthers, ?_, hWait, ((keeps_releaseWait ..).next (keeps_markDone ..)).sameBut_of_bits (by decide)⟩
  exact fun j hj => queue_modQueue_ne _ s (hq.symm ▸ hj)

/-- Settles O17: the turn of a kp.wait has two outcomes when its command is not late and it names an internal keeper. -/
theorem keeperWaits : Obligations.KeeperWaits := by
  refine ⟨fun v x => ⟨rfl, rfl, decide_not.symm, rfl⟩, fun q pos f k s hf hOp hDone hTurn hLate hInt hk => ?_⟩
  obtain ⟨hq, hpos⟩ := inflight_pos hf
  have hWait := waitTurn_internal hLate hInt (hq.symm ▸ hk)
  rw [hq, hpos] at hWait
  refine ⟨fun hNew h => ?_, fun hNew h => ?_, fun hStarted h => ?_⟩
  · have hOrd : s.inOrder f = true := hTurn.resolve_left (by simp [hNew])
    rw [h] at hWait
    exact ⟨_, (exec_kpWait hf hOp hDone hNew hOrd).trans (congrArg Host.Outcome.next hWait), release_completes hf⟩
  · have hOrd : s.inOrder f = true := hTurn.resolve_left (by simp [hNew])
    rw [h] at hWait
    refine ⟨_, (exec_kpWait hf hOp hDone hNew hOrd).trans (congrArg Host.Outcome.next hWait), ?_,
      (keeps_markStarted ..).sameBut_of_bits (by decide)⟩
    exact (inflight_markStarted hf).trans (by rw [hNew]; rfl)
  · rw [h] at hWait
    exact ⟨_, (exec_kpWaitSatisfied hf hOp hDone hStarted).trans (congrArg Host.Outcome.next hWait),
      release_completes hf⟩

/-! ### O18: the host's keeper writes (R172, R176, R360) -/

theorem hostKeeperWrite_reached {fn : Func} {k : BitVec 16} {d : Nat} {s : State} (h : hostKeeper fn k s = some d)
    (g : BitVec 32 → BitVec 32) : hostKeeperWrite fn k g s = setKeeper d (g (s.keeper d)) s := by
  simp only [hostKeeperWrite, h]

theorem hostKeeperWrite_beyond {fn : Func} {k : BitVec 16} {s : State} (h : hostKeeper fn k s = none)
    (g : BitVec 32 → BitVec 32) : hostKeeperWrite fn k g s = eventKeeper (fn.val - 1) 0xFFFE fn.val k.toNat s := by
  simp only [hostKeeperWrite, h]

theorem exec_keeperSetHost (fn : Func) (k : BitVec 16) (v : BitVec 32) (s : State) :
    exec (.keeperSetHost fn k v) s = .next (hostKeeperWrite fn k (fun _ => v) s) := rfl

theorem exec_keeperAddHost (fn : Func) (k : BitVec 16) (v : BitVec 32) (s : State) :
    exec (.keeperAddHost fn k v) s = .next (hostKeeperWrite fn k (fun x => x + v) s) := rfl

/-- A host write to a keeper that the function reaches writes it alone. -/
theorem hostKeeperWrite_sets {fn : Func} {k : BitVec 16} {d : Nat} {s : State} (h : hostKeeper fn k s = some d)
    (g : BitVec 32 → BitVec 32) :
    (hostKeeperWrite fn k g s).keeper d = g (s.keeper d) ∧ OtherKeepers d s (hostKeeperWrite fn k g s) ∧
      SameBut [.keepers] s (hostKeeperWrite fn k g s) := by
  rw [hostKeeperWrite_reached h]
  exact ⟨keeper_setKeeper_same .., otherKeepers_setKeeper d _ s, sameBut_setKeeper d _ s⟩

/-- Settles O18: both rows are one host write, of a value or of a sum. -/
theorem hostKeeperWrites : Obligations.HostKeeperWrites := by
  refine fun fn k v s => ⟨fun d hd => ⟨⟨_, exec_keeperSetHost fn k v s, hostKeeperWrite_sets hd _⟩,
    ⟨_, exec_keeperAddHost fn k v s, hostKeeperWrite_sets hd _⟩⟩, fun hf hk c hc => ?_⟩
  have hNone : hostKeeper fn k s = none := (if_neg hf).trans hk
  simp only [List.mem_cons, List.not_mem_nil, or_false] at hc
  rcases hc with rfl | rfl
  · rw [exec_keeperSetHost, hostKeeperWrite_beyond hNone]; rfl
  · rw [exec_keeperAddHost, hostKeeperWrite_beyond hNone]; rfl

/-! ### O19: phase marks and drains (R177, R434) -/

/-- The phase timer that a ph.mark writes. -/
def markPhase (q : Nat) (w : CmdWord) (s : State) : State :=
  modCnt (fun c => { c with phase := tabMod {} c.phase (phaseKey (partOfQ q) (fld w 48 16 % 64)) (fun t =>
    { time := s.now, count := (t.count + 1) % 2 ^ 16, queue := q % 32, hi := fld w 48 16 / 64,
      tag := w.extractLsb' 64 32 }) }) s

theorem exec_phMark {q : QIdx} {pos : BitVec 32} {f : Inflight} {s : State}
    (h : s.gate (isOp 0x60) q pos noReads = .go f) :
    exec (.phMark q pos) s = .next (markDone q pos (markPhase q f.word (markStarted q pos s))) := by
  obtain ⟨hf, -, -, -⟩ := gate_go h
  obtain ⟨hq, -⟩ := inflight_pos hf
  refine congrArg Host.Outcome.next ((runNow_core h (by rw [opcodeOf_of_gate h]; decide) _).trans ?_)
  simp only [hq]
  rfl

theorem keeps_markPhase (q : Nat) (w : CmdWord) (s : State) : Keeps 562949953421312 s (markPhase q w s) := by
  refine keeps_modCnt (Keeps.refl _ s) ?_ ?_ ?_ ?_ ?_ ?_ ?_ ?_
  case refine_5 => exact .inl rfl
  all_goals exact .inr (by simp only [Part.same, modCnt, and_self])

theorem phase_markPhase_same (q : Nat) (w : CmdWord) (s : State) :
    tabGet {} (markPhase q w s).cnt.phase (phaseKey (partOfQ q) (fld w 48 16 % 64)) =
      { time := s.now,
        count := ((tabGet {} s.cnt.phase (phaseKey (partOfQ q) (fld w 48 16 % 64))).count + 1) % 2 ^ 16,
        queue := q % 32, hi := fld w 48 16 / 64, tag := w.extractLsb' 64 32 } := by
  simp only [markPhase, modCnt_cnt, tabGet_mod_same]

theorem phase_markPhase_ne {q j : Nat} {w : CmdWord} (h : j ≠ phaseKey (partOfQ q) (fld w 48 16 % 64)) (s : State) :
    tabGet {} (markPhase q w s).cnt.phase j = tabGet {} s.cnt.phase j := by
  simp only [markPhase, modCnt_cnt, tabGet_mod_ne _ _ _ h]

theorem exec_fnDrain {q : QIdx} {pos : BitVec 32} {f : Inflight} {s : State} (hf : s.inflight q pos = some f)
    (hOp : opcodeOf f.word = 0x65) (hDone : f.done = false) (hTurn : f.started = true ∨ s.inOrder f = true)
    (hLate : s.isLate f [] = false) :
    exec (.fnDrain q pos) s = .next (if drained s f then markDone q pos s else markStarted q pos s) := by
  change execFnDrain q pos s = _
  simp [execFnDrain, hf, isOp, hOp, hDone, hTurn, hLate, Option.filter]

/-- Settles O19: a ph.mark's body writes one phase timer; a drain's turn is one of its marks. -/
theorem phaseMarksAndDrains : Obligations.PhaseMarksAndDrains := by
  refine ⟨fun q pos f s h => ?_, fun q pos f s hf hOp hDone hTurn hLate => ?_⟩
  · obtain ⟨hf, -, -, -⟩ := gate_go h
    have hMark := keeps_markPhase q f.word (markStarted q pos s)
    obtain ⟨hCompleted, hOthers⟩ := completes_after_start hf hMark
    exact ⟨_, exec_phMark h, hCompleted, hOthers,
      (((keeps_markStarted ..).next hMark).next (keeps_markDone ..)).sameBut_of_bits (by decide),
      phase_markPhase_same q f.word (markStarted q pos s),
      fun j hj => phase_markPhase_ne hj (markStarted q pos s)⟩
  · have hExec := exec_fnDrain hf hOp hDone hTurn hLate
    refine ⟨fun h => ?_, fun h => ?_⟩
    · rw [h] at hExec
      exact ⟨_, hExec, completed_markDone (by simp [hf]), otherFlights_markDone q pos s,
        (keeps_markDone ..).sameBut_of_bits (by decide)⟩
    · rw [h] at hExec
      refine ⟨_, hExec, otherFlights_markStarted q pos s, ⟨_, inflight_markStarted hf, ?_, ?_⟩,
        (keeps_markStarted ..).sameBut_of_bits (by decide)⟩
      · split
        · assumption
        · rfl
      · split <;> exact hDone

end Sys2Proof.Machine
end

section
/-! PROOFS. The markers of envelopes (R173, R178–R183): the obligation O20. -/

namespace Sys2Proof.Machine

/-! ### env.open (R178) -/

/-- The state in which a marker is in flight for an envelope. -/
def markFor (q : Nat) (pos : BitVec 32) (uid : Nat) (s : State) : State :=
  modInflight q pos (fun g => { g with env := some uid }) s

theorem inflight_markFor {q : Nat} {pos : BitVec 32} {g : Inflight} {s : State} (h : s.inflight q pos = some g)
    (uid : Nat) : (markFor q pos uid s).inflight q pos = some { g with env := some uid } := by
  rw [markFor, inflight_modInflight_same (g := fun g => { g with env := some uid }) (fun _ => ⟨rfl, rfl⟩), h]
  rfl

theorem otherFlights_markFor (q : Nat) (pos : BitVec 32) (uid : Nat) (s : State) :
    OtherFlights q pos s (markFor q pos uid s) :=
  inflight_modInflight_ne (g := fun g => { g with env := some uid }) (fun _ => ⟨rfl, rfl⟩) s

/-- A command that starts takes the present time. -/
theorem inflight_markStarted_new {q : Nat} {pos : BitVec 32} {f : Inflight} {s : State} (h : s.inflight q pos = some f)
    (hNew : f.started = false) :
    (markStarted q pos s).inflight q pos = some { f with started := true, since := s.now } := by
  rw [inflight_markStarted h, hNew]
  rfl

/-- A marker in flight that has not started takes its turn in order. -/
theorem marker_turn {q op : Nat} {pos : BitVec 32} {f : Inflight} {s : State} (hf : s.inflight q pos = some f)
    (hNew : f.started = false) (hOrd : s.inOrder f = true) (hOp : opcodeOf f.word = op) :
    (s.inflight q pos).filter (fun f => isOp op f.word && ! f.started && s.inOrder f) = some f := by
  simp [hf, isOp, hOp, hNew, hOrd, Option.filter]

theorem exec_envOpen {q : QIdx} {pos : BitVec 32} {f : Inflight} {s : State} (hf : s.inflight q pos = some f)
    (hNew : f.started = false) (hOrd : s.inOrder f = true) (hOp : opcodeOf f.word = 0x61) :
    exec (.envOpen q pos) s = .next (markFor q pos s.tcs.nextUid
      (modTcs (fun t => { t with envs := t.envs ++ [openEnvelope f s.tcs.nextUid], nextUid := s.tcs.nextUid + 1 })
        (markStarted q pos s))) := by
  change execEnvOpen q pos s = _
  simp only [execEnvOpen, marker_turn hf hNew hOrd hOp]
  rfl

theorem envOpen_opens {q : QIdx} {pos : BitVec 32} {f : Inflight} {s : State} (hf : s.inflight q pos = some f)
    (hNew : f.started = false) (hOrd : s.inOrder f = true) (hOp : opcodeOf f.word = 0x61) :
    ∃ t, exec (.envOpen q pos) s = .next t ∧
      t.tcs.envs = s.tcs.envs ++ [openEnvelope f s.tcs.nextUid] ∧ t.tcs.nextUid = s.tcs.nextUid + 1 ∧
      t.inflight q pos = some { f with started := true, since := s.now, env := some s.tcs.nextUid } ∧
      OtherFlights q pos s t ∧ SameBut [.inflight, .envelopes] s t := by
  have hExec := exec_envOpen hf hNew hOrd hOp
  refine ⟨_, hExec, rfl, rfl, inflight_markFor (inflight_markStarted_new hf hNew) _,
    (otherFlights_markStarted q pos s).trans (otherFlights_markFor q pos _ _),
    (keeps_execEnvOpen q pos s _ hExec).sameBut_of_bits (by decide)⟩

/-! ### env.join (R179, R180) -/

/-- An envelope with one part more, whose marker stands at a position of a queue. -/
def Envelope.withPart (e : Envelope) (q : Nat) (pos : BitVec 32) : Envelope :=
  { e with parts := e.parts ++ [{ q := q, first := pos, close := none }] }

/-- A queue attached to an envelope at its marker. -/
def attachPart (q : Nat) (pos : BitVec 32) (uid : Nat) (s : State) : State :=
  modEnv uid (fun x => x.withPart q pos) (markFor q pos uid (markStarted q pos s))

theorem keeps_attachPart (q : Nat) (pos : BitVec 32) (uid : Nat) (s : State) :
    Keeps (4096 ||| 4096 ||| 32768) s (attachPart q pos uid s) :=
  ((keeps_markStarted ..).next (keeps_modInflight ..)).next (keeps_modEnv ..)

theorem env_attachPart {uid : Nat} {e : Envelope} {s : State} (h : s.env uid = some e) (q : Nat) (pos : BitVec 32) :
    (attachPart q pos uid s).env uid = some (e.withPart q pos) :=
  env_modEnv_same (g := fun x => x.withPart q pos) (h : (markFor q pos uid (markStarted q pos s)).env uid = some e)
    (fun _ => rfl)

theorem inflight_attachPart {q : Nat} {pos : BitVec 32} {f : Inflight} {s : State} (hf : s.inflight q pos = some f)
    (hNew : f.started = false) (uid : Nat) : (attachPart q pos uid s).inflight q pos =
      some { f with started := true, since := s.now, env := some uid } :=
  inflight_markFor (inflight_markStarted_new hf hNew) uid

theorem otherFlights_attachPart (q : Nat) (pos : BitVec 32) (uid : Nat) (s : State) :
    OtherFlights q pos s (attachPart q pos uid s) :=
  (otherFlights_markStarted q pos s).trans (otherFlights_markFor q pos uid _)

theorem inflight_dropWait_none {q : Nat} {pos : BitVec 32} {s : State} (h : s.inflight q pos = none) :
    (dropWait q s).inflight q pos = none := by
  unfold dropWait
  split
  · next w _ =>
    by_cases hw : pos = w
    · subst hw
      exact inflight_dropMarker_same q pos s
    · exact (otherFlights_dropMarker q w s q pos fun hc => hw hc.2).trans h
  · exact h

/-- A queue held at the marker of a part not closed yet runs on past the part, without the marker (R173, R183). -/
theorem skipPart_at_marker {q : Nat} {pos : BitVec 32} {e : Envelope} {s : State}
    (hPart : e.parts.find? (fun x => x.q == q) = some { q := q, first := pos, close := none })
    (hHead : (s.queue q).head = pos) :
    ((skipPart e q s).queue q).state = 1 ∧ ((skipPart e q s).queue q).env = none ∧
      ((skipPart e q s).queue q).wait = none ∧ (skipPart e q s).inflight q pos = none := by
  have hGone : (dropWait q (dropMarker q pos s)).inflight q pos = none :=
    inflight_dropWait_none (inflight_dropMarker_same q pos s)
  have hAt : (dropMarker q pos s).queue q = s.queue q := (keeps_dropMarker ..).queue_eq q
  simp only [skipPart, hPart, hAt, hHead, BitVec.sub_self, BitVec.toNat_zero, Nat.zero_le, if_true]
  split <;> simp only [queue_modQueue_same, true_and] <;> exact ((keeps_modQueue ..).inflight_eq q pos).trans hGone

/-- An envelope that a queue joins has no part from it. -/
theorem find_part_of_joinTarget {f : Inflight} {e : Envelope} {s : State} (h : joinTarget s f = some e) :
    e.parts.find? (fun x => x.q == f.q) = none := by
  have hAll := List.find?_some h
  simp only [Bool.and_eq_true, Bool.not_eq_true'] at hAll
  obtain ⟨-, hNo⟩ := hAll
  exact List.find?_eq_none.mpr (List.any_eq_false.mp hNo)

theorem find_withPart_same {q : Nat} {e : Envelope} (h : e.parts.find? (fun x => x.q == q) = none) (pos : BitVec 32) :
    (e.withPart q pos).parts.find? (fun x => x.q == q) = some { q := q, first := pos, close := none } := by
  simp [Envelope.withPart, List.find?_append, h]

/-- Every member queue of a skipping envelope skips its part; the last one ends it (R173, R183). -/
def joinSkips (q : Nat) (e : Envelope) (s : State) : State :=
  purgeEnvs (modEnv e.uid (fun x => { x with status := if x.allJoined then .ended else .skipping }) (skipPart e q s))

theorem keeps_joinSkips (q : Nat) (e : Envelope) (s : State) :
    Keeps (32768 ||| 32768) (skipPart e q s) (joinSkips q e s) := (keeps_modEnv ..).next (keeps_purgeEnvs _)

section
variable {q : QIdx} {pos : BitVec 32} {f : Inflight} {e : Envelope} {s : State} (hf : s.inflight q pos = some f)
  (hNew : f.started = false) (hOrd : s.inOrder f = true) (hOp : opcodeOf f.word = 0x62)
include hf hNew hOrd hOp

theorem exec_envJoin_alone (hNone : joinTarget s f = none) : exec (.envJoin q pos) s = .next s := by
  change execEnvJoin q pos s = _
  simp only [execEnvJoin, marker_turn hf hNew hOrd hOp, hNone]

theorem exec_envJoin_held (hTarget : joinTarget s f = some e) (h : e.status = .opening ∨ e.status = .queued) :
    exec (.envJoin q pos) s = .next (attachPart q pos e.uid s) := by
  obtain ⟨hq, hpos⟩ := inflight_pos hf
  change execEnvJoin q pos s = _
  rcases h with h | h
  · simp only [execEnvJoin, marker_turn hf hNew hOrd hOp, hTarget, h, hq, hpos]
    rfl
  · simp only [execEnvJoin, marker_turn hf hNew hOrd hOp, hTarget, h, hq, hpos]
    rfl

theorem exec_envJoin_enters (hTarget : joinTarget s f = some e)
    (h : e.status = .admitted ∨ e.status = .unguaranteed) : exec (.envJoin q pos) s =
      .next (modQueue q (fun k => { k with wait := none }) (enterPart e q (attachPart q pos e.uid s))) := by
  obtain ⟨hq, hpos⟩ := inflight_pos hf
  change execEnvJoin q pos s = _
  rcases h with h | h
  · simp only [execEnvJoin, marker_turn hf hNew hOrd hOp, hTarget, h, hq, hpos]
    rfl
  · simp only [execEnvJoin, marker_turn hf hNew hOrd hOp, hTarget, h, hq, hpos]
    rfl

theorem exec_envJoin_skips (hTarget : joinTarget s f = some e) (hEnv : s.env e.uid = some e)
    (h : e.status = .skipping) : exec (.envJoin q pos) s =
      .next (joinSkips q (e.withPart q pos) (attachPart q pos e.uid s)) := by
  obtain ⟨hq, hpos⟩ := inflight_pos hf
  have hJoined := env_attachPart hEnv q pos
  simp only [attachPart, markFor, Envelope.withPart] at hJoined
  change execEnvJoin q pos s = _
  simp only [execEnvJoin, marker_turn hf hNew hOrd hOp, hTarget, h, hq, hpos, hJoined]
  rfl

theorem envJoin_held (hTarget : joinTarget s f = some e) (hEnv : s.env e.uid = some e)
    (h : e.status = .opening ∨ e.status = .queued) : ∃ t, exec (.envJoin q pos) s = .next t ∧
      t.env e.uid = some { e with parts := e.parts ++ [{ q := q.val, first := pos, close := none }] } ∧
      t.inflight q pos = some { f with started := true, since := s.now, env := some e.uid } ∧
      OtherFlights q pos s t ∧ SameBut [.inflight, .envelopes] s t :=
  ⟨_, exec_envJoin_held hf hNew hOrd hOp hTarget h, env_attachPart hEnv q pos, inflight_attachPart hf hNew e.uid,
    otherFlights_attachPart q pos e.uid s, (keeps_attachPart q pos e.uid s).sameBut_of_bits (by decide)⟩

theorem envJoin_enters (hTarget : joinTarget s f = some e) (h : e.status = .admitted ∨ e.status = .unguaranteed) :
    ∃ t, exec (.envJoin q pos) s = .next t ∧
      t.queue q = { s.queue q with
        state := 1, head := (s.queue q).head + 1, env := some e.uid, seed := e.seed, step := e.step, wait := none } ∧
      OtherQueues q s t ∧ OtherFlights q pos s t ∧ SameBut [.queues, .inflight, .envelopes] s t := by
  have hExec := exec_envJoin_enters hf hNew hOrd hOp hTarget h
  have hAttach := keeps_attachPart q pos e.uid s
  refine ⟨_, hExec, ?_, ?_, otherFlights_attachPart q pos e.uid s,
    (keeps_execEnvJoin q pos s _ hExec).sameBut_of_bits (by decide)⟩
  · rw [queue_modQueue_same, enterPart, queue_modQueue_same, hAttach.queue_eq q]
  · exact (hAttach.otherQueues q).trans ((otherQueues_modQueue q _ _).trans (otherQueues_modQueue q _ _))

theorem envJoin_skips (hTarget : joinTarget s f = some e) (hEnv : s.env e.uid = some e) (h : e.status = .skipping)
    (hHead : (s.queue q).head = pos) : ∃ t, exec (.envJoin q pos) s = .next t ∧
      (t.queue q).state = 1 ∧ (t.queue q).env = none ∧ (t.queue q).wait = none ∧ t.inflight q pos = none ∧
      OtherQueues q s t ∧ SameBut [.queues, .inflight, .envelopes] s t := by
  obtain ⟨hq, -⟩ := inflight_pos hf
  have hExec := exec_envJoin_skips hf hNew hOrd hOp hTarget hEnv h
  have hAttach := keeps_attachPart q pos e.uid s
  have hPart := find_withPart_same (hq ▸ find_part_of_joinTarget hTarget) pos
  obtain ⟨hState, hOut, hWait, hGone⟩ := skipPart_at_marker (s := attachPart q pos e.uid s) hPart
    ((congrArg Queue.head (hAttach.queue_eq q)).trans hHead)
  have hEnd := keeps_joinSkips q (e.withPart q pos) (attachPart q pos e.uid s)
  refine ⟨_, hExec, ?_, ?_, ?_, ?_, ?_, (keeps_execEnvJoin q pos s _ hExec).sameBut_of_bits (by decide)⟩
  · rw [hEnd.queue_eq q, hState]
  · rw [hEnd.queue_eq q, hOut]
  · rw [hEnd.queue_eq q, hWait]
  · rw [hEnd.inflight_eq q pos, hGone]
  · refine (hAttach.otherQueues q).trans (OtherQueues.trans (fun j hj => ?_) (hEnd.otherQueues q))
    exact queue_skipPart_ne hj _ _

end

/-! ### env.close (R178, R179) -/

/-- The part of a queue in an envelope closed at a position. -/
def Envelope.closePart (e : Envelope) (q : Nat) (pos : BitVec 32) : Envelope :=
  { e with parts := e.parts.map (fun y => if y.q = q ∧ y.close = none then { y with close := some pos } else y) }

theorem otherQueues_releaseWait (f : Inflight) (s : State) : OtherQueues f.q s (releaseWait f s) :=
  otherQueues_modQueue f.q _ s

section
variable {q : QIdx} {pos : BitVec 32} {f : Inflight} {e : Envelope} {s : State} {u : Nat}
  (hf : s.inflight q pos = some f) (hNew : f.started = false) (hOrd : s.inOrder f = true)
  (hOp : opcodeOf f.word = 0x63)
include hf hNew hOrd hOp

theorem exec_envClose_ends (hIn : (s.queue q).env = some u) (hEnv : s.env u = some e)
    (hId : e.envId = f.word.extractLsb' 48 16) : exec (.envClose q pos) s =
      .next (modQueue q (fun k => { k with env := none }) (markStarted q pos
        (modEnv u (fun x => x.closePart q pos) (releaseWait f s)))) := by
  obtain ⟨hq, hpos⟩ := inflight_pos hf
  have hOpen : (((s.queue q).env).bind s.env).filter (fun e => e.envId == f.word.extractLsb' 48 16) = some e := by
    simp [hIn, hEnv, hId, Option.filter]
  change execEnvClose q pos s = _
  simp only [execEnvClose, marker_turn hf hNew hOrd hOp, hOpen, env_uid hEnv, hq, hpos, Envelope.closePart,
    Option.isNone_iff_eq_none]

theorem exec_envClose_other
    (hNone : (((s.queue q).env).bind s.env).filter (fun e => e.envId == f.word.extractLsb' 48 16) = none) :
    exec (.envClose q pos) s = .next (markDone q pos (eventP 0x0304 2 (partOfQ q)
      (le 2 q.val ++ le 4 pos.toNat ++ le 2 (fld f.word 48 16)) (releaseWait f s))) := by
  change execEnvClose q pos s = _
  simp only [execEnvClose, marker_turn hf hNew hOrd hOp, hNone]

theorem envClose_ends (hIn : (s.queue q).env = some u) (hEnv : s.env u = some e)
    (hId : e.envId = f.word.extractLsb' 48 16) :
    ∃ t, exec (.envClose q pos) s = .next t ∧ (t.queue q).env = none ∧ OtherQueues q s t ∧ OtherFlights q pos s t ∧
      t.env u = some (e.closePart q pos) ∧ t.inflight q pos = some { f with started := true, since := s.now } ∧
      SameBut [.queues, .inflight, .envelopes] s t := by
  obtain ⟨hq, -⟩ := inflight_pos hf
  have hRelease := keeps_releaseWait f s
  have hQueues := hq ▸ otherQueues_releaseWait f s
  have hClose := keeps_modEnv u (fun x => x.closePart q pos) (releaseWait f s)
  have hMark := keeps_markStarted q pos (modEnv u (fun x => x.closePart q pos) (releaseWait f s))
  refine ⟨_, exec_envClose_ends hf hNew hOrd hOp hIn hEnv hId, congrArg Queue.env (queue_modQueue_same ..), ?_, ?_, ?_,
    ?_, (((hRelease.next hClose).next hMark).next (keeps_modQueue ..)).sameBut_of_bits (by decide)⟩
  · exact (hQueues.trans ((hClose.next hMark).otherQueues q)).trans (otherQueues_modQueue q _ _)
  · exact ((hRelease.next hClose).otherFlights q pos).trans
      ((otherFlights_markStarted q pos _).trans ((keeps_modQueue ..).otherFlights q pos))
  · exact (((hMark.next (keeps_modQueue ..)).env_eq u)).trans
      (env_modEnv_same ((hRelease.env_eq u).trans hEnv) fun _ => rfl)
  · exact ((keeps_modQueue ..).inflight_eq q pos).trans
      (inflight_markStarted_new (((hRelease.next hClose).inflight_eq q pos).trans hf) hNew)

theorem envClose_other
    (hNone : (((s.queue q).env).bind s.env).filter (fun e => e.envId == f.word.extractLsb' 48 16) = none) :
    ∃ t, exec (.envClose q pos) s = .next t ∧ Completed q pos t ∧
      OtherFlights q pos s t ∧ OtherQueues q s t ∧ SameBut (eventParts ++ [.queues, .inflight]) s t ∧
      t = markDone q pos (eventP 0x0304 2 (partOfQ q) (le 2 q.val ++ le 4 pos.toNat ++ le 2 (fld f.word 48 16))
        (releaseWait f s)) := by
  obtain ⟨hq, -⟩ := inflight_pos hf
  have hQueues := hq ▸ otherQueues_releaseWait f s
  have hEvent := (keeps_releaseWait f s).next (keeps_eventP 0x0304 2 (partOfQ q)
    (le 2 q.val ++ le 4 pos.toNat ++ le 2 (fld f.word 48 16)) (releaseWait f s))
  obtain ⟨hDone, hOthers⟩ := completes_after hf hEvent
  exact ⟨_, exec_envClose_other hf hNew hOrd hOp hNone, hDone, hOthers,
    hQueues.trans (((keeps_eventP ..).next (keeps_markDone ..)).otherQueues q),
    (hEvent.next (keeps_markDone ..)).sameBut_of_bits (by decide), rfl⟩

end

/-! ### O20 -/

theorem openEnvelope_fields (f : Inflight) (u : Nat) :
    (openEnvelope f u).uid = u ∧ (openEnvelope f u).part = f.q / 32 ∧
    (openEnvelope f u).envId = f.word.extractLsb' 48 16 ∧ (openEnvelope f u).members = f.word.extractLsb' 64 32 ∧
    (openEnvelope f u).deadline = fld f.word 96 32 ∧ (openEnvelope f u).seed = f.word.extractLsb' 128 64 ∧
    (openEnvelope f u).step = f.word.extractLsb' 192 32 ∧ (openEnvelope f u).status = .opening ∧
    (openEnvelope f u).update = decide (fld f.word 224 1 = 1) ∧ (openEnvelope f u).onRefuse = fld f.word 225 2 :=
  ⟨rfl, rfl, rfl, rfl, rfl, rfl, rfl, rfl, rfl, rfl⟩

/-- Settles O20: a marker that takes its turn opens, joins by the status of its envelope, or closes; a queue that joins
a skipping envelope at its marker has a part without an env.close, so its head is not past it. -/
theorem envelopeMarkers : Obligations.EnvelopeMarkers := by
  refine ⟨openEnvelope_fields, fun q pos f s hf hNew hOrd => ⟨envOpen_opens hf hNew hOrd,
    exec_envJoin_alone hf hNew hOrd, fun e hOp hTarget hEnv => ⟨?_, ?_, ?_⟩, fun u e hOp hIn hEnv hId => ?_,
    envClose_other hf hNew hOrd⟩⟩
  · exact envJoin_held hf hNew hOrd hOp hTarget hEnv
  · exact envJoin_enters hf hNew hOrd hOp hTarget
  · exact envJoin_skips hf hNew hOrd hOp hTarget hEnv
  · exact envClose_ends hf hNew hOrd hOp hIn hEnv hId

end Sys2Proof.Machine
end

section
/-! PROOFS. Readiness and the answers of the admission unit (R181–R188, R193, R194): the obligation O21. -/

namespace Sys2Proof.Machine

/-! ### Admission queues (R181) -/

theorem admQueue_leaveQueue (p uid : Nat) (s : State) :
    tabGet [] (leaveQueue p uid s).tcs.admQueue p = (tabGet [] s.tcs.admQueue p).filter (fun u => u != uid) := by
  have hStamp (t : State) : (stampHead p t).tcs.admQueue = t.tcs.admQueue := by
    unfold stampHead; split <;> rfl
  unfold leaveQueue
  simp only
  split
  · rw [hStamp, modTcs_tcs, tabGet_put_same]
  · rw [modTcs_tcs, tabGet_put_same]

theorem admSeq_leaveQueue (p uid : Nat) (s : State) : (leaveQueue p uid s).tcs.admSeq = s.tcs.admSeq := by
  have hStamp (t : State) : (stampHead p t).tcs.admSeq = t.tcs.admSeq := by
    unfold stampHead; split <;> rfl
  unfold leaveQueue
  simp only
  split
  · rw [hStamp]; rfl
  · rfl

theorem env_stampHead_ne {p uid : Nat} {s : State} (h : uid ∉ tabGet [] s.tcs.admQueue p) :
    (stampHead p s).env uid = s.env uid := by
  unfold stampHead
  split
  · rfl
  · next v l hl =>
    have hv : uid ≠ v := fun hc => h (by rw [hl, hc]; exact List.mem_cons_self)
    exact env_modEnv_ne (g := fun e => { e with tA := s.now, kpAt := s.tcs.keepers }) hv (fun _ => rfl) s

/-- An envelope that leaves its admission queue keeps its stamp; the next one may take its own. -/
theorem env_leaveQueue (p uid : Nat) (s : State) : (leaveQueue p uid s).env uid = s.env uid := by
  unfold leaveQueue
  simp only
  split
  · refine env_stampHead_ne ?_
    rw [modTcs_tcs, tabGet_put_same]
    simp
  · rfl

theorem filter_ne_of_not_mem {uid : Nat} {rest : List Nat} (h : uid ∉ rest) :
    (uid :: rest).filter (fun u => u != uid) = rest := by
  rw [List.filter_cons_of_neg (by simp)]
  refine List.filter_eq_self.mpr fun u hu => bne_iff_ne.mpr ?_
  rintro rfl
  exact h hu

/-! ### Readiness (R181) -/

/-- A ready envelope behind those of its partition's admission queue. -/
def queueLast (p uid : Nat) (s : State) : State :=
  modTcs (fun t => { t with admQueue := tabPut [] t.admQueue p (tabGet [] s.tcs.admQueue p ++ [uid]) })
    (modEnv uid (fun e => { e with status := .queued }) s)

/-- A ready envelope queues; the first takes its admission instant. -/
def queueEnvelope (p uid : Nat) (s : State) : State :=
  if (tabGet [] s.tcs.admQueue p).isEmpty then stampHead p (queueLast p uid s) else queueLast p uid s

theorem exec_envelopeReady {p : Sys2Proof.Part} {uid : Nat} {e : Envelope} {errs : List ReadError} {s : State}
    (hEnv : s.env uid = some e) (hPart : e.part = p.val) (hReady : envReady (keepStored (planAcc p) errs s) e = true) :
    exec (.envelopeReady p uid errs) s = .next (meetErrors (planAcc p) errs (queueEnvelope p uid) s) := by
  change execEnvelopeReady p uid s errs = _
  simp only [execEnvelopeReady, hEnv, hPart, hReady, Option.filter, beq_self_eq_true, Bool.and_self, if_true]
  rfl

theorem stampHead_first {p uid : Nat} {l : List Nat} {s : State} (h : tabGet [] s.tcs.admQueue p = uid :: l) :
    stampHead p s = modEnv uid (fun e => { e with tA := s.now, kpAt := s.tcs.keepers }) s := by
  simp only [stampHead, h]

theorem admQueue_queueLast (p uid : Nat) (s : State) :
    tabGet [] (queueLast p uid s).tcs.admQueue p = tabGet [] s.tcs.admQueue p ++ [uid] :=
  tabGet_put_same ..

theorem env_queueLast {uid : Nat} {e : Envelope} {s : State} (h : s.env uid = some e) (p : Nat) :
    (queueLast p uid s).env uid = some { e with status := .queued } :=
  env_modEnv_same (g := fun e => { e with status := .queued }) h fun _ => rfl

theorem keeps_queueLast (p uid : Nat) (s : State) : Keeps 32768 s (queueLast p uid s) := by
  refine keeps_modTcs (keeps_modEnv ..) ?_ ?_ ?_ ?_ ?_ ?_
  case refine_6 => exact .inl rfl
  all_goals exact .inr (by simp only [Part.same, modTcs, and_self])

/-- Where an envelope that becomes ready stands (R181). -/
theorem queueEnvelope_stands {uid : Nat} {e : Envelope} {s : State} (hEnv : s.env uid = some e) (p : Nat) :
    tabGet [] (queueEnvelope p uid s).tcs.admQueue p = tabGet [] s.tcs.admQueue p ++ [uid] ∧
      (queueEnvelope p uid s).env uid = some { e with
        status := .queued
        tA := if tabGet [] s.tcs.admQueue p = [] then s.now else e.tA
        kpAt := if tabGet [] s.tcs.admQueue p = [] then s.tcs.keepers else e.kpAt } ∧
      SameBut [.envelopes] s (queueEnvelope p uid s) := by
  have hQueue := admQueue_queueLast p uid s
  have hLast := keeps_queueLast p uid s
  cases hl : tabGet [] s.tcs.admQueue p with
  | nil =>
    rw [hl] at hQueue
    have hStamped : queueEnvelope p uid s = modEnv uid (fun e => { e with tA := s.now, kpAt := s.tcs.keepers })
        (queueLast p uid s) := by
      simp only [queueEnvelope, hl, List.isEmpty_nil, if_true]
      exact stampHead_first hQueue
    rw [hStamped]
    exact ⟨hQueue, env_modEnv_same (env_queueLast hEnv p) fun _ => rfl,
      (hLast.next (keeps_modEnv ..)).sameBut_of_bits (by decide)⟩
  | cons v l =>
    rw [hl] at hQueue
    have hOnly : queueEnvelope p uid s = queueLast p uid s := by
      simp only [queueEnvelope, hl, List.isEmpty_cons, Bool.false_eq_true, if_false]
    rw [hOnly]
    exact ⟨hQueue, env_queueLast hEnv p, hLast.sameBut_of_bits (by decide)⟩

/-! ### Evaluation (R182, R187) -/

/-- The answer of the admission unit to an envelope. -/
def answerEnvelope (e : Envelope) (s : State) : State :=
  if (evaluate s e).reason = 0 then acceptEnvelope e (evaluate s e) s else refuseEnvelope e (evaluate s e) s

theorem answerEnvelope_accepts {e : Envelope} {s : State} (h : (evaluate s e).reason = 0) :
    answerEnvelope e s = acceptEnvelope e (evaluate s e) s := if_pos h

theorem answerEnvelope_refuses {e : Envelope} {s : State} (h : (evaluate s e).reason ≠ 0) :
    answerEnvelope e s = refuseEnvelope e (evaluate s e) s := if_neg h

theorem exec_admissionEvaluate {p : Sys2Proof.Part} {uid : Nat} {e : Envelope} {s : State}
    (hHead : (tabGet [] s.tcs.admQueue p).head? = some uid) (hEnv : s.env uid = some e)
    (hHeld : s.wmc.held.contains p.val = false) (errs : List ReadError) :
    exec (.admissionEvaluate p errs) s = .next (meetErrors (planAcc p) errs (answerEnvelope e) s) := by
  change execAdmissionEvaluate p s errs = _
  simp only [execAdmissionEvaluate, hHead, Option.bind_some, hEnv, hHeld, Bool.false_eq_true, if_false]
  rfl

/-- An evaluation that finds no reason fits W + M below a deadline. -/
def Evaluation.Fits (d : Nat) (v : Evaluation) : Prop := v.reason = 0 → v.w + v.m ≤ d

theorem Evaluation.fits_refuse {r : Nat} (d : Nat) (h : r ≠ 0 := by decide) : (Evaluation.refuse r).Fits d :=
  fun h0 => absurd h0 h

theorem Evaluation.fits_ite {c : Prop} [Decidable c] {d : Nat} {a b : Evaluation} (ha : a.Fits d) (hb : b.Fits d) :
    (if c then a else b).Fits d := by
  split <;> assumption

/-- Every outcome of the order of R182 but the last refuses; the last compares the deadline. -/
theorem evaluate_fits (s : State) (e : Envelope) : (evaluate s e).Fits e.deadline := by
  unfold evaluate
  refine Evaluation.fits_ite (Evaluation.fits_refuse _) (Evaluation.fits_ite (Evaluation.fits_refuse _) ?_)
  split
  · exact Evaluation.fits_refuse _
  refine Evaluation.fits_ite (Evaluation.fits_refuse _) (Evaluation.fits_ite (Evaluation.fits_refuse _)
    (Evaluation.fits_ite (Evaluation.fits_refuse _) (Evaluation.fits_ite (Evaluation.fits_refuse _)
      (Evaluation.fits_ite (Evaluation.fits_refuse _) (Evaluation.fits_ite (Evaluation.fits_refuse _)
        (Evaluation.fits_ite (Evaluation.fits_refuse _) ?_))))))
  split
  · exact Evaluation.fits_refuse _
  · intro h
    have hNo : ¬ _ < _ := fun hLate => absurd ((if_pos hLate).symm.trans h) (by decide)
    exact Nat.le_of_not_lt hNo

/-! ### Acceptance (R184, R188, R194) -/

/-- An envelope as its acceptance sets it. -/
def Envelope.withAnswer (x : Envelope) (s : State) (e : Envelope) (v : Evaluation) : Envelope :=
  { x with
    status := .admitted
    w := v.w
    m := v.m
    bound := x.deadline
    admSeq := s.nextAnswer
    turn := s.nextTurn
    booked := v.booked
    fences := v.fences
    ext := extWaits s e
    usesT1 := v.rates.contains .t1
    usesLink := v.rates.contains .link
    bytesT1 := v.bytes.1
    bytesT2r := v.bytes.2.1
    bytesT2w := v.bytes.2.2.1
    bytesLink := v.bytes.2.2.2 }

/-- An accepted envelope out of its admission queue, its answer numbered. -/
def leaveAccepted (e : Envelope) (v : Evaluation) (s : State) : State :=
  leaveQueue e.part e.uid (numberAnswer (modEnv e.uid (fun x => x.withAnswer s e v) s))

/-- An acceptance after the envelope has been admitted: its queues enter their parts, the answer is counted and told. -/
theorem acceptEnvelope_eq (e : Envelope) (v : Evaluation) (s : State) : acceptEnvelope e v s =
    respond { e with admSeq := s.nextAnswer } 1 v.w v.m 0
      (countAdm e.part (fun c => { c with admitted := satAdd 20 c.admitted 1 })
        (enterParts e.uid (leaveAccepted e v s))) := rfl

theorem admCnt_countAdm (p : Nat) (f : AdmCnt → AdmCnt) (s : State) :
    tabGet {} (countAdm p f s).tcs.admCnt p = f (tabGet {} s.tcs.admCnt p) := tabGet_mod_same ..

theorem keeps_leaveAccepted (e : Envelope) (v : Evaluation) (s : State) :
    Keeps (32768 ||| 32768 ||| 32768) s (leaveAccepted e v s) :=
  ((keeps_modEnv ..).next (keeps_numberAnswer _)).next (keeps_leaveQueue ..)

theorem env_leaveAccepted {e : Envelope} {s : State} (h : s.env e.uid = some e) (v : Evaluation) :
    (leaveAccepted e v s).env e.uid = some (e.withAnswer s e v) :=
  (env_leaveQueue ..).trans (env_modEnv_same (g := fun x => x.withAnswer s e v) h fun _ => rfl)

/-- The unit accepts the envelope at the head of an admission queue (R184). -/
theorem acceptEnvelope_answers {e : Envelope} {rest : List Nat} {s : State}
    (hQueue : tabGet [] s.tcs.admQueue e.part = e.uid :: rest) (hOnce : e.uid ∉ rest) (hEnv : s.env e.uid = some e)
    (v : Evaluation) :
    tabGet [] (acceptEnvelope e v s).tcs.admQueue e.part = rest ∧
      (tabGet {} (acceptEnvelope e v s).tcs.admCnt e.part).admitted =
        satAdd 20 (tabGet {} s.tcs.admCnt e.part).admitted 1 ∧
      (acceptEnvelope e v s).env e.uid = some (e.withAnswer s e v) ∧
      (acceptEnvelope e v s).tcs.admSeq = s.tcs.admSeq + 1 := by
  have hEnter := keeps_enterParts e.uid (leaveAccepted e v s)
  have hTold := (hEnter.next (keeps_countAdm e.part (fun c => { c with admitted := satAdd 20 c.admitted 1 }) _)).next
    (keeps_respond { e with admSeq := s.nextAnswer } 1 v.w v.m 0 _)
  rw [acceptEnvelope_eq]
  refine ⟨?_, ?_, (hTold.env_eq e.uid).trans (env_leaveAccepted hEnv v), ?_⟩
  · rw [hTold.admQueue_eq, leaveAccepted, admQueue_leaveQueue]
    exact (congrArg _ hQueue).trans (filter_ne_of_not_mem hOnce)
  · rw [(keeps_respond ..).admCnt_eq, admCnt_countAdm, hEnter.admCnt_eq, (keeps_leaveAccepted e v s).admCnt_eq]
  · rw [hTold.admSeq_eq, leaveAccepted, admSeq_leaveQueue]
    rfl

/-! ### Refusal (R183, R194) -/

/-- A queue stopped at the marker of a refused envelope. -/
def stopQueue (s : State) (x : Nat × BitVec 32) : State :=
  modQueue x.1 (fun k => { k with state := 3, wait := none }) (dropMarker x.1 x.2 s)

/-- A refused envelope out of its admission queue, its answer numbered. -/
def leaveRefused (e : Envelope) (s : State) : State :=
  numberAnswer (modEnv e.uid (fun x => { x with admSeq := s.nextAnswer }) (leaveQueue e.part e.uid s))

/-- What on_refuse does with the queues of a refused envelope: run without guarantee, skip, or stop. -/
def onRefusal (e : Envelope) (s : State) : State :=
  match e.onRefuse with
  | 1 => enterParts e.uid (modEnv e.uid (fun x => { x with status := .unguaranteed }) s)
  | 2 => skipEnvelope e.uid none s
  | _ => modEnv e.uid (fun x => { x with status := .ended }) ((heldQueues e).foldl stopQueue s)

theorem refuseEnvelope_eq (e : Envelope) (v : Evaluation) (s : State) : refuseEnvelope e v s =
    purgeEnvs (respond { e with admSeq := s.nextAnswer } 2 (if v.reason = 1 then v.w + v.m else 0) v.m v.reason
      (countAdm e.part (fun c => { c with refused := satAdd 20 c.refused 1 }) (onRefusal e (leaveRefused e s)))) := rfl

theorem keeps_stopQueues (l : List (Nat × BitVec 32)) (s : State) : Keeps (4096 ||| 1024) s (l.foldl stopQueue s) :=
  Keeps.foldl (fun _ _ h => (keeps_modQueue ..).app (by decide) ((keeps_dropMarker ..).app (by decide) h)) l s
    (Keeps.refl _ s)

theorem skipEnvelope_admission (uid : Nat) (except_ : Option Nat) (s : State) :
    (skipEnvelope uid except_ s).tcs.admQueue = s.tcs.admQueue ∧
      (skipEnvelope uid except_ s).tcs.admSeq = s.tcs.admSeq ∧
      (skipEnvelope uid except_ s).tcs.admCnt = s.tcs.admCnt := by
  unfold skipEnvelope
  cases s.env uid with
  | none => exact ⟨rfl, rfl, rfl⟩
  | some e =>
    have hSkip : Keeps 5120 s ((e.parts.filter (fun x => some x.q != except_)).foldl (fun s x => skipPart e x.q s) s) :=
      Keeps.foldl (fun _ _ h => (keeps_skipPart ..).app (by decide) h) _ s (Keeps.refl _ s)
    exact ⟨hSkip.admQueue_eq, hSkip.admSeq_eq, hSkip.admCnt_eq⟩

/-- What on_refuse does leaves the admission queues, the numbers of answers and the counts alone. -/
theorem onRefusal_admission (e : Envelope) (s : State) :
    (onRefusal e s).tcs.admQueue = s.tcs.admQueue ∧ (onRefusal e s).tcs.admSeq = s.tcs.admSeq ∧
      (onRefusal e s).tcs.admCnt = s.tcs.admCnt := by
  unfold onRefusal
  split
  · have hEnter := keeps_enterParts e.uid (modEnv e.uid (fun x => { x with status := .unguaranteed }) s)
    exact ⟨hEnter.admQueue_eq, hEnter.admSeq_eq, hEnter.admCnt_eq⟩
  · exact skipEnvelope_admission e.uid none s
  · have hStop := keeps_stopQueues (heldQueues e) s
    exact ⟨hStop.admQueue_eq, hStop.admSeq_eq, hStop.admCnt_eq⟩

/-- Every queue of a list is stopped, once or more often, and no other one. -/
theorem queue_stopQueues (j : Nat) : ∀ (l : List (Nat × BitVec 32)) (s : State),
    (l.foldl stopQueue s).queue j =
      if j ∈ l.map Prod.fst then { s.queue j with state := 3, wait := none } else s.queue j
  | [], s => by simp
  | x :: l, s => by
    have hDrop : (dropMarker x.1 x.2 s).queue j = s.queue j := (keeps_dropMarker ..).queue_eq j
    have hOne : (stopQueue s x).queue j =
        if j = x.1 then { s.queue j with state := 3, wait := none } else s.queue j := by
      split
      · next h => subst h; rw [stopQueue, queue_modQueue_same, hDrop]
      · next h => rw [stopQueue, queue_modQueue_ne _ _ h, hDrop]
    rw [List.foldl_cons, queue_stopQueues j l, hOne]
    by_cases h : j = x.1 <;> simp [h]

@[simp] theorem admQueue_purgeEnvs (s : State) : (purgeEnvs s).tcs.admQueue = s.tcs.admQueue := rfl
@[simp] theorem admSeq_purgeEnvs (s : State) : (purgeEnvs s).tcs.admSeq = s.tcs.admSeq := rfl
@[simp] theorem admQueue_leaveRefused (e : Envelope) (s : State) :
    (leaveRefused e s).tcs.admQueue = (leaveQueue e.part e.uid s).tcs.admQueue := rfl

theorem admSeq_leaveRefused (e : Envelope) (s : State) : (leaveRefused e s).tcs.admSeq = s.tcs.admSeq + 1 :=
  congrArg (· + 1) (admSeq_leaveQueue e.part e.uid s)

theorem onRefusal_stops {e : Envelope} (h : e.onRefuse = 0 ∨ e.onRefuse = 3) (s : State) :
    onRefusal e s = modEnv e.uid (fun x => { x with status := .ended }) ((heldQueues e).foldl stopQueue s) := by
  rcases h with h | h <;> simp only [onRefusal, h]

theorem mem_heldQueues {e : Envelope} {x : EnvPart} (h : x ∈ e.parts) : x.q ∈ (heldQueues e).map Prod.fst := by
  simp only [heldQueues, List.map_map]
  exact List.mem_map.mpr ⟨x, h, rfl⟩

theorem keeps_leaveRefused (e : Envelope) (s : State) : Keeps (32768 ||| 32768 ||| 32768) s (leaveRefused e s) :=
  ((keeps_leaveQueue ..).next (keeps_modEnv ..)).next (keeps_numberAnswer _)

/-- The unit refuses the envelope at the head of an admission queue (R183). -/
theorem refuseEnvelope_answers {e : Envelope} {rest : List Nat} {s : State}
    (hQueue : tabGet [] s.tcs.admQueue e.part = e.uid :: rest) (hOnce : e.uid ∉ rest) (v : Evaluation) :
    tabGet [] (refuseEnvelope e v s).tcs.admQueue e.part = rest ∧
      (tabGet {} (refuseEnvelope e v s).tcs.admCnt e.part).refused =
        satAdd 20 (tabGet {} s.tcs.admCnt e.part).refused 1 ∧
      (refuseEnvelope e v s).tcs.admSeq = s.tcs.admSeq + 1 ∧
      (e.onRefuse = 0 ∨ e.onRefuse = 3 → ∀ x ∈ e.parts, ((refuseEnvelope e v s).queue x.q).state = 3 ∧
        ((refuseEnvelope e v s).queue x.q).wait = none ∧
        ((refuseEnvelope e v s).queue x.q).head = (s.queue x.q).head) := by
  obtain ⟨hAdmQueue, hAdmSeq, hAdmCnt⟩ := onRefusal_admission e (leaveRefused e s)
  rw [refuseEnvelope_eq]
  generalize hAnswer : onRefusal e (leaveRefused e s) = u at hAdmQueue hAdmSeq hAdmCnt ⊢
  have hCount := keeps_countAdm e.part (fun c => { c with refused := satAdd 20 c.refused 1 }) u
  have hRespond := keeps_respond { e with admSeq := s.nextAnswer } 2 (if v.reason = 1 then v.w + v.m else 0) v.m
    v.reason (countAdm e.part (fun c => { c with refused := satAdd 20 c.refused 1 }) u)
  have hTold := hCount.next hRespond
  have hPurge := keeps_purgeEnvs (respond { e with admSeq := s.nextAnswer } 2 (if v.reason = 1 then v.w + v.m else 0)
    v.m v.reason (countAdm e.part (fun c => { c with refused := satAdd 20 c.refused 1 }) u))
  refine ⟨?_, ?_, ?_, fun hStop x hx => ?_⟩
  · rw [admQueue_purgeEnvs, hTold.admQueue_eq, hAdmQueue, admQueue_leaveRefused, admQueue_leaveQueue, hQueue,
      filter_ne_of_not_mem hOnce]
  · rw [hPurge.admCnt_eq, hRespond.admCnt_eq, admCnt_countAdm, hAdmCnt, (keeps_leaveRefused e s).admCnt_eq]
  · rw [admSeq_purgeEnvs, hTold.admSeq_eq, hAdmSeq, admSeq_leaveRefused]
  · rw [(hTold.next hPurge).queue_eq x.q, ← hAnswer, onRefusal_stops hStop, (keeps_modEnv ..).queue_eq x.q,
      queue_stopQueues, if_pos (mem_heldQueues hx), (keeps_leaveRefused e s).queue_eq x.q]
    exact ⟨rfl, rfl, rfl⟩

/-! ### O21 -/

/-- Rows whose reads meet errors act as without them on the stored bits, and the events follow (R41, R228, R239). -/
theorem admission_reads_stored (p : Sys2Proof.Part) (uid : Nat) (e : Envelope) (errs : List ReadError) (s u : State)
    (hEnv : s.env uid = some e) (hPart : e.part = p.val) (hu : u = keepStored (planAcc p) errs s) :
    (envReady u e = true → ∃ t, exec (.envelopeReady p uid []) u = .next t ∧
      exec (.envelopeReady p uid errs) s = .next (noteErrors 4 errs t)) ∧
    ((tabGet [] s.tcs.admQueue p.val).head? = some uid → s.wmc.held.contains p.val = false →
      ∃ t, exec (.admissionEvaluate p []) u = .next t ∧
        exec (.admissionEvaluate p errs) s = .next (noteErrors 4 errs t)) := by
  have hStored : Keeps 69206016 s u := hu ▸ keeps_keepStored (planAcc p) errs s
  have hEnv' : u.env uid = some e := (hStored.env_eq uid).trans hEnv
  refine ⟨fun hReady => ?_, fun hHead hHeld => ?_⟩
  · refine ⟨_, exec_envelopeReady hEnv' hPart hReady, ?_⟩
    rw [exec_envelopeReady hEnv hPart (hu ▸ hReady), meetErrors_nil, hu]
    rfl
  · have hHead' : (tabGet [] u.tcs.admQueue p).head? = some uid := by rw [hStored.admQueue_eq, hHead]
    have hHeld' : u.wmc.held.contains p.val = false := by
      obtain ⟨h, -⟩ : s.wmc.held = u.wmc.held ∧ _ := hStored.same (p := .staging) (by decide)
      rw [← h, hHeld]
    refine ⟨_, exec_admissionEvaluate hHead' hEnv' hHeld' [], ?_⟩
    rw [exec_admissionEvaluate hHead hEnv hHeld, meetErrors_nil, hu]
    rfl

/-- Settles O21: an answer takes the envelope out of its queue, numbers and counts itself, and tells of it; the stamp of
the next envelope is not this one's, and the response record leaves the admission state alone. -/
theorem admissionAnswers : Obligations.AdmissionAnswers := by
  refine ⟨fun p uid e s hEnv hPart hReady => ⟨_, exec_envelopeReady hEnv hPart hReady, queueEnvelope_stands hEnv p⟩,
    admission_reads_stored, evaluate_fits, fun p uid rest e s hQueue hOnce hEnv hPart hHeld => ?_⟩
  obtain rfl := env_uid hEnv
  have hExec := exec_admissionEvaluate (e := e) (congrArg List.head? hQueue) hEnv hHeld []
  rw [meetErrors_nil] at hExec
  rw [← hPart] at hQueue ⊢
  refine ⟨fun hFit => ?_, fun hReason => ?_⟩
  · obtain ⟨hOut, hCount, hAdmitted, hSeq⟩ := acceptEnvelope_answers hQueue hOnce hEnv (evaluate s e)
    refine ⟨_, hExec.trans (by rw [answerEnvelope_accepts hFit]), hOut, hCount,
      ⟨_, hAdmitted, rfl, rfl, rfl, rfl, rfl, rfl, rfl⟩, hSeq, (keeps_acceptEnvelope ..).sameBut_of_bits (by decide)⟩
  · obtain ⟨hOut, hCount, hSeq, hStop⟩ := refuseEnvelope_answers hQueue hOnce (evaluate s e)
    exact ⟨_, hExec.trans (by rw [answerEnvelope_refuses hReason]), hOut, hCount, hSeq, hStop,
      (keeps_refuseEnvelope ..).sameBut_of_bits (by decide)⟩

end Sys2Proof.Machine
end

section
/-! PROOFS. Projections, revocations and the end of envelopes (R184, R188–R193, R220): the obligation O22. -/

namespace Sys2Proof.Machine

/-! ### Projections (R188–R191) -/

section
variable {p : Sys2Proof.Part} {uid : Nat} {draws : List MarginDraw} {e : Envelope} {s : State}
  (hEnv : s.env uid = some e) (hPart : e.part = p.val) (hAdm : e.status = .admitted)
include hEnv hPart hAdm

theorem admitted_of_partition :
    (s.env uid).filter (fun e => e.part == p.val && e.status == .admitted) = some e := by
  simp [hEnv, hPart, hAdm, Option.filter]

theorem exec_projection_interfered (hDead : e.dead = false) (h : interfered s e = true) :
    exec (.projectionEvaluate p uid draws) s = .next (revoke uid 3 (drawSum s e draws) s) := by
  change execProjectionEvaluate p uid draws s = _
  simp only [execProjectionEvaluate, admitted_of_partition hEnv hPart hAdm, hDead, h, Bool.false_eq_true, if_false,
    if_true]

theorem exec_projection_unbounded (hDead : e.dead = false) (h : interfered s e = false)
    (hP : projection s e (drawSum s e draws) = none) (hBound : e.bound ≠ 0xFFFFFFFF) :
    exec (.projectionEvaluate p uid draws) s = .next (revoke uid 2 (drawSum s e draws) s) := by
  change execProjectionEvaluate p uid draws s = _
  simp only [execProjectionEvaluate, admitted_of_partition hEnv hPart hAdm, hDead, h, hP, hBound, Bool.false_eq_true,
    if_false]

/-- A projection that exceeds a bound. -/
theorem exec_projection_late {x : Rat} (hDead : e.dead = false) (h : interfered s e = false)
    (hP : projection s e (drawSum s e draws) = some x) (hBound : e.bound ≠ 0xFFFFFFFF)
    (hLate : ((e.tA + e.bound * 1000 : Nat) : Rat) < x) : exec (.projectionEvaluate p uid draws) s =
      .next (revoke uid 1 (drawSum s e draws) (noteDraw uid (marginUsed e x) s)) := by
  change execProjectionEvaluate p uid draws s = _
  have hExceeds : (e.bound != 0xFFFFFFFF && decide (((e.tA + e.bound * 1000 : Nat) : Rat) < x)) = true := by
    simp only [bne_iff_ne.mpr hBound, hLate, decide_true, Bool.and_self]
  simp only [execProjectionEvaluate, admitted_of_partition hEnv hPart hAdm, hDead, h, hP, hExceeds, Bool.false_eq_true,
    if_false, if_true]

/-- A projection that ends no guarantee notes the margin drawn. -/
theorem exec_projection_noted {x : Rat} (hP : projection s e (drawSum s e draws) = some x)
    (h : e.dead = true ∨
      (interfered s e = false ∧ (e.bound = 0xFFFFFFFF ∨ ¬ ((e.tA + e.bound * 1000 : Nat) : Rat) < x))) :
    exec (.projectionEvaluate p uid draws) s = .next (noteDraw uid (marginUsed e x) s) := by
  change execProjectionEvaluate p uid draws s = _
  have hFront := admitted_of_partition hEnv hPart hAdm
  cases hDead : e.dead with
  | true => simp only [execProjectionEvaluate, hFront, hDead, hP, if_true]
  | false =>
    obtain ⟨hInt, hIn⟩ := h.resolve_left (by simp [hDead])
    have hKept : (e.bound != 0xFFFFFFFF && decide (((e.tA + e.bound * 1000 : Nat) : Rat) < x)) = false := by
      rcases hIn with h | h <;> simp only [h, bne_self_eq_false, Bool.false_and, decide_false, Bool.and_false]
    simp only [execProjectionEvaluate, hFront, hDead, hInt, hP, hKept, Bool.false_eq_true, if_false]

end

/-! ### Revocation (R190–R192) -/

/-- Noting a draw changes what one envelope says of its margin. -/
theorem noteDraw_envelope {uid : Nat} {e : Envelope} {s : State} (h : s.env uid = some e) (used : Nat) :
    (∃ x, (noteDraw uid used s).env uid = some x) ∧ (noteDraw uid used s).tcs.admSeq = s.tcs.admSeq := by
  simp only [noteDraw, h]
  split
  · exact ⟨⟨e, h⟩, rfl⟩
  · exact ⟨⟨_, env_modEnv_same (g := fun e => { e with drew := true }) h fun _ => rfl⟩, rfl⟩

theorem countDrawn_envelope {uid : Nat} {e : Envelope} {s : State} (h : s.env uid = some e) :
    (∃ x, (countDrawn uid s).env uid = some x) ∧ (countDrawn uid s).tcs.admSeq = s.tcs.admSeq := by
  simp only [countDrawn, h]
  split
  · exact ⟨⟨_, env_modEnv_same (g := fun e => { e with counted := true }) h fun _ => rfl⟩, rfl⟩
  · exact ⟨⟨e, h⟩, rfl⟩

/-- The bound and the margin that stand after a revocation. -/
def revokedBound (e : Envelope) (reason drawNs : Nat) (s : State) : Nat × Nat :=
  match (if reason = 3 then none else projection s e drawNs) with
  | none => (0xFFFFFFFF, e.m)
  | some x =>
    let rest := ((x - (s.now : Rat)) / 1000).ceil.toNat
    let m := marginM (s.part e.part) rest
    (((x - (e.tA : Rat)) / 1000).ceil.toNat + m, m)

/-- The margin used that a revocation tells. -/
def revokedDraw (e : Envelope) (drawNs : Nat) (s : State) : Nat :=
  match projection s e drawNs with
  | some x => marginUsed e x
  | none => 0

/-- What a revocation counts, before it is told: the draw, the revocation, and the envelope that drew. -/
def revocationCounted (uid used p : Nat) (s : State) : State :=
  countDrawn uid (countAdm p (fun c => { c with revoked := satAdd 20 c.revoked 1 }) (noteDraw uid used s))

/-- The response record and the event of a revocation. -/
def revocationTold (e : Envelope) (reason used : Nat) (nb : Nat × Nat) (s : State) : State :=
  eventP 0x0310 2 e.part
    (le 1 e.part ++ le 2 e.envId.toNat ++ le 1 reason ++ le 4 e.bound ++ le 4 nb.1 ++ le 4 used)
    (respond e 3 nb.1 nb.2 reason s)

/-- An envelope as a revocation leaves it. -/
def Envelope.revokeAt (x : Envelope) (reason turn : Nat) (nb : Nat × Nat) : Envelope :=
  { x with bound := nb.1, m := nb.2, revoked := true, turn := turn, dead := reason == 3 || x.dead }

/-- A revocation counts, tells of the new bound, and marks the envelope. -/
theorem revoke_eq {uid : Nat} {e : Envelope} {s : State} (h : s.env uid = some e) (reason drawNs : Nat) :
    let used := revokedDraw e drawNs s
    let nb := revokedBound e reason drawNs s
    let u := revocationTold e reason used nb (revocationCounted uid used e.part s)
    revoke uid reason drawNs s = modEnv uid (fun x => x.revokeAt reason u.nextTurn nb) u := by
  simp only [revoke, h]
  rfl

/-- What a revocation counts, read back. -/
theorem revocationCounted_counts {uid : Nat} {e : Envelope} {s : State} (h : s.env uid = some e) (used p : Nat) :
    (∃ x, (revocationCounted uid used p s).env uid = some x) ∧
      (tabGet {} (revocationCounted uid used p s).tcs.admCnt p).revoked =
        satAdd 20 (tabGet {} s.tcs.admCnt p).revoked 1 ∧
      (revocationCounted uid used p s).tcs.admSeq = s.tcs.admSeq := by
  obtain ⟨⟨x, hDrew⟩, hSeq⟩ := noteDraw_envelope h used
  have hCount := keeps_countAdm p (fun c => { c with revoked := satAdd 20 c.revoked 1 }) (noteDraw uid used s)
  obtain ⟨hEnv, hSeq'⟩ := countDrawn_envelope ((hCount.env_eq uid).trans hDrew)
  refine ⟨hEnv, ?_, hSeq'.trans hSeq⟩
  rw [revocationCounted, (keeps_countDrawn ..).admCnt_eq, admCnt_countAdm, (keeps_noteDraw ..).admCnt_eq]

theorem keeps_revocationTold (e : Envelope) (reason used : Nat) (nb : Nat × Nat) (s : State) :
    Keeps (1353719858 ||| 1353719858) s (revocationTold e reason used nb s) := (keeps_respond ..).next (keeps_eventP ..)

theorem revoke_revokes {uid : Nat} {e : Envelope} {s : State} (h : s.env uid = some e) (reason drawNs : Nat) :
    (∃ y, (revoke uid reason drawNs s).env uid = some y ∧ y.revoked = true) ∧
      (tabGet {} (revoke uid reason drawNs s).tcs.admCnt e.part).revoked =
        satAdd 20 (tabGet {} s.tcs.admCnt e.part).revoked 1 ∧
      (revoke uid reason drawNs s).tcs.admSeq = s.tcs.admSeq := by
  obtain ⟨used, hUsed⟩ : ∃ used, used = revokedDraw e drawNs s := ⟨_, rfl⟩
  obtain ⟨nb, hNb⟩ : ∃ nb, nb = revokedBound e reason drawNs s := ⟨_, rfl⟩
  obtain ⟨⟨x, hEnv⟩, hCnt, hSeq⟩ := revocationCounted_counts h used e.part
  have hTold := keeps_revocationTold e reason used nb (revocationCounted uid used e.part s)
  rw [revoke_eq h, ← hUsed, ← hNb]
  generalize revocationTold e reason used nb (revocationCounted uid used e.part s) = u at hTold ⊢
  have hMarked := env_modEnv_same (g := fun x => x.revokeAt reason u.nextTurn nb) ((hTold.env_eq uid).trans hEnv)
    fun _ => rfl
  refine ⟨⟨_, hMarked, rfl⟩, ?_, hTold.admSeq_eq.trans hSeq⟩
  rw [(keeps_modEnv ..).admCnt_eq, hTold.admCnt_eq, hCnt]

/-! ### Completion (R184, R193, R220) -/

theorem tabGet_map_values {α : Type} {d : α} {g : α → α} (hg : g d = d) (k : Nat) : ∀ t : Tab α,
    tabGet d (t.map (fun x => (x.1, g x.2))) k = g (tabGet d t k)
  | [] => hg.symm
  | (i, v) :: r => by
    simp only [List.map_cons, tabGet, tabGet_map_values hg k r]
    split <;> rfl

/-- A bolt that an envelope protects no longer. -/
def Bolt.unprotect (k : Bolt) (uid : Nat) : Bolt :=
  { k with
    prot0 := if k.prot0 = some uid then none else k.prot0
    prot1 := if k.prot1 = some uid then none else k.prot1 }

theorem bolt_releaseProtected (uid p slot b : Nat) (s : State) :
    (releaseProtected uid s).bolt p slot b = (s.bolt p slot b).unprotect uid :=
  tabGet_map_values (d := ({} : Bolt)) (g := fun k => k.unprotect uid) rfl (boltKey p slot b) s.mem.bolts

theorem unprotect_prot (k : Bolt) (uid : Nat) :
    (k.unprotect uid).prot0 ≠ some uid ∧ (k.unprotect uid).prot1 ≠ some uid := by
  constructor
  · simp only [Bolt.unprotect]; split <;> simp_all
  · simp only [Bolt.unprotect]; split <;> simp_all

theorem inflight_markDone_isSome {q : Nat} {pos : BitVec 32} {s : State} (h : (s.inflight q pos).isSome) (j : Nat)
    (i : BitVec 32) : ((markDone j i s).inflight q pos).isSome := by
  by_cases hc : q = j ∧ pos = i
  · obtain ⟨rfl, rfl⟩ := hc
    obtain ⟨f, hf, -, -⟩ := completed_markDone h
    rw [hf]; rfl
  · rw [otherFlights_markDone j i s q pos hc]
    exact h

/-- A completed command stays completed when another command completes. -/
theorem completed_markDone_of {q : Nat} {pos : BitVec 32} {s : State} (h : Completed q pos s) (j : Nat)
    (i : BitVec 32) : Completed q pos (markDone j i s) := by
  obtain ⟨f, hf, hStarted, hDone⟩ := h
  by_cases hc : q = j ∧ pos = i
  · obtain ⟨rfl, rfl⟩ := hc
    exact completed_markDone (by simp [hf])
  · exact ⟨f, (otherFlights_markDone j i s q pos hc).trans hf, hStarted, hDone⟩

/-- Several commands complete. -/
def markAll (l : List (Nat × BitVec 32)) (s : State) : State := l.foldl (fun s x => markDone x.1 x.2 s) s

theorem completed_markAll {q : Nat} {pos : BitVec 32} : ∀ (l : List (Nat × BitVec 32)) (s : State),
    (s.inflight q pos).isSome → (q, pos) ∈ l → Completed q pos (markAll l s)
  | [], _, _, h => by cases h
  | x :: l, s, hs, h => by
    rcases List.mem_cons.mp h with rfl | h
    · exact List.foldlRecOn (motive := fun t : State => Completed q pos t) l _ (completed_markDone hs)
        fun t ht y _ => completed_markDone_of ht y.1 y.2
    · exact completed_markAll l _ (inflight_markDone_isSome hs x.1 x.2) h

/-- The markers of an envelope and the env.close of each part. -/
def Envelope.marks (e : Envelope) : List (Nat × BitVec 32) :=
  e.parts.map (fun x => (x.q, x.first)) ++ e.parts.filterMap (fun x => x.close.map (fun c => (x.q, c)))

/-- An envelope that ends: its markers complete and its bolts are released. -/
def endEnvelope (uid : Nat) (e : Envelope) (s : State) : State :=
  modEnv uid (fun x => { x with status := .ended }) (releaseProtected uid (markAll e.marks (countDrawn uid s)))

/-- The completion record of an admitted envelope, which tells the time it took. -/
def completionTold (e : Envelope) (took : Nat) (s : State) : State :=
  if e.status = .admitted then respond e 4 took e.m 0 s else s

theorem exec_envelopeComplete {p : Sys2Proof.Part} {uid : Nat} {e : Envelope} {s : State} (hEnv : s.env uid = some e)
    (hPart : e.part = p.val) (hDone : envDone s e = true) : exec (.envelopeComplete p uid) s =
      .next (purgeEnvs (completionTold e (ceilDiv (s.now - e.tA) 1000) (endEnvelope uid e s))) := by
  change execEnvelopeComplete p uid s = _
  simp only [execEnvelopeComplete, hEnv, hPart, hDone, Option.filter, beq_self_eq_true, Bool.and_self, if_true]
  rfl

theorem keeps_completionTold (e : Envelope) (took : Nat) (s : State) : Keeps 1353719858 s (completionTold e took s) :=
  Keeps.ite (keeps_respond ..) (Keeps.refl _ s)

theorem env_purgeEnvs_ended {uid : Nat} {s : State} (h : ∀ x ∈ s.tcs.envs, x.uid = uid → x.status = .ended) :
    (purgeEnvs s).env uid = none := by
  simp only [State.env, purgeEnvs, modTcs_tcs, List.find?_eq_none, List.mem_filter]
  rintro x ⟨hx, hLive⟩ hUid
  have hEnded := h x hx (by simpa using hUid)
  simp [hEnded] at hLive

theorem endEnvelope_ends (uid : Nat) (e : Envelope) (s : State) :
    ∀ x ∈ (endEnvelope uid e s).tcs.envs, x.uid = uid → x.status = .ended := by
  intro x hx hUid
  obtain ⟨y, -, rfl⟩ := List.mem_map.mp hx
  by_cases hy : y.uid = uid
  · simp [hy]
  · rw [if_neg hy] at hUid
    exact absurd hUid hy

/-- An envelope all of whose commands have completed ends (R184, R193, R220). -/
theorem envelope_ends {p : Sys2Proof.Part} {uid : Nat} {e : Envelope} {s : State} (hEnv : s.env uid = some e)
    (hPart : e.part = p.val) (hDone : envDone s e = true) :
    ∃ t, exec (.envelopeComplete p uid) s = .next t ∧ t.env uid = none ∧
      (∀ x ∈ e.parts, ∀ f, s.inflight x.q x.first = some f → Completed x.q x.first t) ∧
      (e.status = .unguaranteed → ∀ slot b, (t.bolt p slot b).prot0 ≠ some uid ∧ (t.bolt p slot b).prot1 ≠ some uid) ∧
      SameBut (eventParts ++ [.inflight, .envelopes, .selvCounters]) s t := by
  have hExec := exec_envelopeComplete hEnv hPart hDone
  have hTold := keeps_completionTold e (ceilDiv (s.now - e.tA) 1000) (endEnvelope uid e s)
  refine ⟨_, hExec, env_purgeEnvs_ended ?_, fun x hx f hf => ?_, fun hStatus slot b => ?_,
    (keeps_execEnvelopeComplete p uid s _ hExec).sameBut_of_bits (by decide)⟩
  · obtain ⟨hEnvs, -⟩ : (endEnvelope uid e s).tcs.envs = _ ∧ _ := hTold.same (p := .envelopes) (by decide)
    rw [← hEnvs]
    exact endEnvelope_ends uid e s
  · have hFlight : ((countDrawn uid s).inflight x.q x.first).isSome := by
      rw [(keeps_countDrawn uid s).inflight_eq x.q x.first, hf]; rfl
    have hMark : (x.q, x.first) ∈ e.marks := List.mem_append_left _ (List.mem_map.mpr ⟨x, hx, rfl⟩)
    obtain ⟨g, hg, hStarted, hEnd⟩ := completed_markAll e.marks _ hFlight hMark
    have hAfter := (((keeps_releaseProtected uid (markAll e.marks (countDrawn uid s))).next (keeps_modEnv ..)).next
      hTold).next (keeps_purgeEnvs _)
    exact ⟨g, (hAfter.inflight_eq x.q x.first).trans hg, hStarted, hEnd⟩
  · have hNot : e.status ≠ .admitted := by rw [hStatus]; decide
    rw [completionTold, if_neg hNot]
    have hBolt := bolt_releaseProtected uid p slot b (markAll e.marks (countDrawn uid s))
    exact hBolt ▸ unprotect_prot _ uid

/-- Settles O22: each outcome of a projection is one branch of its row; a revocation marks its envelope after the events
that tell of it; the end of an envelope completes its markers one by one and releases every bolt. -/
theorem projectionAndCompletion : Obligations.ProjectionAndCompletion := by
  refine ⟨fun p uid drawNs draws e s hEnv hPart hAdm hDraw => ?_, fun s e ns => ⟨rfl, rfl, rfl, rfl⟩,
    fun p uid e s hEnv hPart hDone => envelope_ends hEnv hPart hDone⟩
  subst hDraw
  refine ⟨exec_projection_interfered hEnv hPart hAdm, exec_projection_unbounded hEnv hPart hAdm,
    fun x hDead hInt hP hBound hLate => exec_projection_late hEnv hPart hAdm hDead hInt hP hBound hLate,
    fun x hP h => ?_, ?_⟩
  · exact ⟨_, exec_projection_noted hEnv hPart hAdm hP h, rfl, (keeps_noteDraw ..).sameBut_of_bits (by decide)⟩
  rintro reason t rfl
  obtain ⟨⟨y, hEnv', hRevoked⟩, hCnt, hSeq⟩ := revoke_revokes hEnv reason (drawSum s e draws)
  rw [hPart] at hCnt
  exact ⟨y, hEnv', hRevoked, hCnt, hSeq, (keeps_revoke ..).sameBut_of_bits (by decide)⟩

end Sys2Proof.Machine
end
